-- ==== Sys2Proof/Word.lean ====
section
/-! DEFINITION. The character of the lines: eight data bits (R1). -/

namespace Sys2Proof

/-- One character's data bits (R1, R191). -/
abbrev Byte := BitVec 8

end Sys2Proof
end

