-- ==== Sys2Proof/Config.lean ====
section
/-! DEFINITION. What the manual fixes as limits, and the values it leaves open (opaque: nothing can be proved of them). -/

namespace Sys2Proof.Config

/-- 4,294,967,295: where the second count and the forecourt minute stay (R176, R177), where the estimate stops
(R49), and the counter value before which numbers are dealt anew (R65, R99). -/
def max32 : Nat := 4294967295

/-- Where every tally, the delivered count, the faults counter and every measured value stay (R23, R155, R185, R189). -/
def max16 : Nat := 65535

/-- Capacity of Port S's own queue (R13). -/
def ownCapacityS : Nat := 48

/-- Capacity of Port G's own queue (R13). -/
def ownCapacityG : Nat := 8

/-- Port G's own queue takes a REPLY only below this length (R15). -/
def replyRoomG : Nat := 6

/-- Capacity of each transit queue (R16). -/
def transitCapacity : Nat := 16

/-- Poll hold lasts while Port S's own queue is longer than this (R18). -/
def holdThreshold : Nat := 32

/-- Places of the retrieval queue (R98). -/
def places : Nat := 64

/-- Ticket records the ticket table holds (R62). -/
def ticketCapacity : Nat := 320

/-- How many steps of work one event may take before the model stops looking for more (log 14: more than any
event of the part needs). -/
def workFuel : Nat := 4096

/-- FREE VALUE (DESIGN CHOICE, log 12): where one event leaves both lifts with the same kind of work, the manual does
not say which lift works first. True: lift A. Its arguments are the second count and how much fuel is left, so that no
two choices need agree. -/
opaque liftAFirst : Nat → Nat → Bool

/-- FREE VALUE (DESIGN CHOICE, log 22): the item that a NOT_APPLICABLE answer to BAY_SERVICE direction in carries when
a bay in front is closed. R198 gives the detail as an item and no field of the request is at fault. Its arguments are
the bay and the second count. -/
opaque bayServiceItem : Nat → Nat → Byte

/-- FREE VALUE (DESIGN CHOICE, log 34): the character that a TAKEN reply to BAY_SERVICE carries for the number of bays
changed when that number is above 255, which one character does not hold. R198 gives the field one character. Its
arguments are the bay and the second count. -/
opaque baysChanged : Nat → Nat → Byte

/-- FREE VALUE (DESIGN CHOICE, log 35): where one event brings the members of both convoy channels to 0, the manual does
not say which channel ends first. True: channel 0. Its arguments are the second count and how much fuel is left. -/
opaque channel0First : Nat → Nat → Bool

/-- FREE VALUE (DESIGN CHOICE, log 24): the order in which the expiries of one tick are taken, which the manual does not
give: those of a lower rank come first. Its arguments are the second count, the kind of the timer (0 move, 1 pickup, 2
hold) and its owner's number. -/
opaque expiryRank : Nat → Nat → Nat → Nat

end Sys2Proof.Config
end

