-- ==== Sys2Proof/Syntax.lean ====
section
/-! DEFINITION. The commands of the block: one constructor per row of the table of operations and events. -/

namespace Sys2Proof

/-- The two lines (R1, R194): S the stand line, G the garage line. -/
inductive Port where
  | s
  | g
  deriving DecidableEq, Repr

/-- The two lifts (R26, R194). -/
inductive Lift where
  | a
  | b
  deriving DecidableEq, Repr

/-- One frame as R191 lays it out, without its lead, its length field (the payload's length) and its check. -/
structure Frame where
  dest : Byte
  src : Byte
  kind : Byte
  flags : Byte
  payload : List Byte
  deriving DecidableEq, Repr

/-- One command to the block. A frame command carries the port it was accepted on, its flags character (lowest bit MORE)
and its payload characters (R196); its sender is the station being polled (R7). -/
inductive Instr where
  /-- POWER_UP (R45): power returns; `checkAgrees` says whether the store's check agrees with its contents. -/
  | powerUp (checkAgrees : Bool)
  /-- WARM_START (R44). -/
  | warmStart
  /-- TICK (R176). -/
  | tick
  /-- MOVE_TIMER_EXPIRY (R140): of one lift's move timer. -/
  | moveTimerExpiry (l : Lift)
  /-- PICKUP_TIMER_EXPIRY (R167): of one runner's pickup timer. -/
  | pickupTimerExpiry (runner : Nat)
  /-- HOLD_TIMER_EXPIRY (R182): of one HELD ticket's hold timer. -/
  | holdTimerExpiry (ticket : Nat)
  /-- POLL (R5). -/
  | poll (p : Port)
  /-- MISS (R8): the response window ends with no character started. -/
  | miss (p : Port)
  /-- EMPTY (R6): an accepted EMPTY answer. -/
  | empty (p : Port)
  /-- FRAME_DISCARDED (R10): an answer fails a parity, stop or check test. -/
  | frameDiscarded (p : Port)
  /-- IDLE_TIME_END (R11): two idle character times end a skip or a frame cut short. -/
  | idleTimeEnd (p : Port)
  /-- SOURCE_MISMATCH (R7): an accepted answer whose source is not the polled station. -/
  | sourceMismatch (p : Port)
  /-- LINE_BREAK (R12). -/
  | lineBreak (p : Port)
  /-- LINE_RETURN (R12). -/
  | lineReturn (p : Port)
  /-- FRAME_SENT (R17): the transmission of the frame being sent ends. -/
  | frameSent (p : Port)
  /-- MOVE_ORDER_SENT (R181): the last character of that lift's MOVE_ORDER has been sent. -/
  | moveOrderSent (l : Lift)
  /-- LINE_SETTINGS_TAKE_EFFECT (R22): of the settings pending for that port. -/
  | lineSettingsTakeEffect (p : Port)
  /-- TRANSIT (R19): an accepted data frame addressed to another station. -/
  | transit (p : Port) (f : Frame)
  /-- UNKNOWN_KIND (R21): a frame to the part of a kind its sender's role does not permit or the part does not know. -/
  | unknownKind (p : Port) (kind flags : Byte) (payload : List Byte)
  /-- ARRIVAL (0x10, R66). -/
  | arrival (p : Port) (flags : Byte) (payload : List Byte)
  /-- RETRIEVE (0x11, R100). -/
  | retrieve (p : Port) (flags : Byte) (payload : List Byte)
  /-- RESUME (0x12, R112). -/
  | resume (p : Port) (flags : Byte) (payload : List Byte)
  /-- CANCEL (0x13, R113). -/
  | cancel (p : Port) (flags : Byte) (payload : List Byte)
  /-- HANDOVER (0x14, R170). -/
  | handover (p : Port) (flags : Byte) (payload : List Byte)
  /-- RE_PARK (0x15, R78). -/
  | rePark (p : Port) (flags : Byte) (payload : List Byte)
  /-- QUERY_TICKET (0x16, R80). -/
  | queryTicket (p : Port) (flags : Byte) (payload : List Byte)
  /-- KEY_IN (0x20, R88). -/
  | keyIn (p : Port) (flags : Byte) (payload : List Byte)
  /-- KEY_OUT (0x21, R90). -/
  | keyOut (p : Port) (flags : Byte) (payload : List Byte)
  /-- RUNNER_ON (0x28, R162). -/
  | runnerOn (p : Port) (flags : Byte) (payload : List Byte)
  /-- RUNNER_OFF (0x29, R163). -/
  | runnerOff (p : Port) (flags : Byte) (payload : List Byte)
  /-- PICKUP (0x2A, R168). -/
  | pickup (p : Port) (flags : Byte) (payload : List Byte)
  /-- LIFT_STATUS (0x30, R121). -/
  | liftStatus (p : Port) (flags : Byte) (payload : List Byte)
  /-- CAR_PRESENT (0x31, R72). -/
  | carPresent (p : Port) (flags : Byte) (payload : List Byte)
  /-- MOVE_DONE (0x32, R136). -/
  | moveDone (p : Port) (flags : Byte) (payload : List Byte)
  /-- MOVE_FAULT (0x33, R136). -/
  | moveFault (p : Port) (flags : Byte) (payload : List Byte)
  /-- MOVE_REFUSED (0x34, R136). -/
  | moveRefused (p : Port) (flags : Byte) (payload : List Byte)
  /-- SET_LINE (0x40, R22). -/
  | setLine (p : Port) (flags : Byte) (payload : List Byte)
  /-- LOAD_STATIONS (0x41, R4). -/
  | loadStations (p : Port) (flags : Byte) (payload : List Byte)
  /-- LOAD_PASS (0x42, R20). -/
  | loadPass (p : Port) (flags : Byte) (payload : List Byte)
  /-- STATUS (0x43, R23). -/
  | status (p : Port) (flags : Byte) (payload : List Byte)
  /-- STATUS_CLEAR (0x44, R23). -/
  | statusClear (p : Port) (flags : Byte) (payload : List Byte)
  /-- RESTART (0x45, R44). -/
  | restart (p : Port) (flags : Byte) (payload : List Byte)
  /-- LOAD_ZONES (0x50, R35). -/
  | loadZones (p : Port) (flags : Byte) (payload : List Byte)
  /-- LOAD_STACKS (0x51, R36). -/
  | loadStacks (p : Port) (flags : Byte) (payload : List Byte)
  /-- LOAD_BAYS (0x52, R37). -/
  | loadBays (p : Port) (flags : Byte) (payload : List Byte)
  /-- SET_LANES (0x53, R33). -/
  | setLanes (p : Port) (flags : Byte) (payload : List Byte)
  /-- LOAD_CABINET (0x54, R85). -/
  | loadCabinet (p : Port) (flags : Byte) (payload : List Byte)
  /-- ENTER_SERVICE (0x55, R38). -/
  | enterService (p : Port) (flags : Byte) (payload : List Byte)
  /-- LEAVE_SERVICE (0x56, R40). -/
  | leaveService (p : Port) (flags : Byte) (payload : List Byte)
  /-- BAY_SERVICE (0x57, R41). -/
  | bayService (p : Port) (flags : Byte) (payload : List Byte)
  /-- QUERY_BAY (0x58, R43). -/
  | queryBay (p : Port) (flags : Byte) (payload : List Byte)
  /-- HOOK_SERVICE (0x59, R96). -/
  | hookService (p : Port) (flags : Byte) (payload : List Byte)
  /-- SET_WEIGHTS (0x60, R60). -/
  | setWeights (p : Port) (flags : Byte) (payload : List Byte)
  /-- SET_LIMITS (0x61, R61). -/
  | setLimits (p : Port) (flags : Byte) (payload : List Byte)
  /-- SET_FLOOR (0x62, R108). -/
  | setFloor (p : Port) (flags : Byte) (payload : List Byte)
  /-- SET_TIMES (0x63, R180). -/
  | setTimes (p : Port) (flags : Byte) (payload : List Byte)
  /-- SET_CLOCK (0x64, R178). -/
  | setClock (p : Port) (flags : Byte) (payload : List Byte)
  /-- SET_MEASURE (0x65, R184). -/
  | setMeasure (p : Port) (flags : Byte) (payload : List Byte)
  /-- LIFT_SERVICE (0x68, R122). -/
  | liftService (p : Port) (flags : Byte) (payload : List Byte)
  /-- LIFT_RESOLVE (0x69, R142). -/
  | liftResolve (p : Port) (flags : Byte) (payload : List Byte)
  /-- LIFT_REPORT (0x6A, R190). -/
  | liftReport (p : Port) (flags : Byte) (payload : List Byte)
  /-- CONVOY_LOAD (0x70, R147). -/
  | convoyLoad (p : Port) (flags : Byte) (payload : List Byte)
  /-- CONVOY_START (0x71, R148). -/
  | convoyStart (p : Port) (flags : Byte) (payload : List Byte)
  /-- CONVOY_STOP (0x72, R156). -/
  | convoyStop (p : Port) (flags : Byte) (payload : List Byte)
  /-- CONVOY_QUERY (0x73, R158). -/
  | convoyQuery (p : Port) (flags : Byte) (payload : List Byte)
  /-- POWER_LOSS (R45): power fails; `held` says whether the retained store's supply holds. -/
  | powerLoss (held : Bool)
  deriving DecidableEq, Repr

end Sys2Proof
end

