-- ==== Sys2Proof/Machine/State.lean ====
section
/-! DEFINITION. The state of the block as plain data, the reasons a step could stop, and the state after reset. -/

namespace Sys2Proof.Machine

/-- Faults of the model. The part has no event that stops it: every error is answered, alerted or tallied (R202, R203,
R23), so no meaning raises a fault. The one constructor stands so that the type is inhabited. -/
inductive Fault where
  /-- Raised by no meaning (safe: nothing is cut short). -/
  | neverRaised
  deriving DecidableEq, Repr

/-- Refusals of the model. -/
inductive Refusal where
  /-- Raised by `exec` for a command that has no meaning yet (safe); no arm of this model uses it. -/
  | notModelled (mnemonic : String)
  deriving DecidableEq, Repr

/-! ### Tables keyed by number -/

/-- Records keyed by number, keys strictly rising, absent records not listed: equal tables are equal data. -/
abbrev Table (α : Type) := List (Nat × α)

/-! ### The forecourt line (chapter 1) -/

/-- The station roles (R3). -/
inductive Role where
  | podium
  | desk
  | cabinet
  | runnerBase
  | office
  | liftA
  | liftB
  deriving DecidableEq, Repr

/-- A station's poll state (R3). -/
inductive PollState where
  | active
  | silent
  deriving DecidableEq, Repr

/-- One entry of a station table (R3). -/
structure Station where
  number : Nat
  role : Role
  poll : PollState
  misses : Nat
  skips : Nat
  deriving DecidableEq, Repr

/-- Parity of a port (R1). -/
inductive Parity where
  | none
  | even
  | odd
  deriving DecidableEq, Repr

/-- The settings of a port that SET_LINE loads (R2, R22). -/
structure LineSettings where
  prescale : Nat
  divisor : Nat
  parity : Parity
  window : Nat
  deriving DecidableEq, Repr

/-- The settings of one SET_LINE while they are pending (R22). -/
structure LineRequest where
  port : Port
  settings : LineSettings
  enable : Bool
  deriving DecidableEq, Repr

/-- What the end of a queued frame's transmission brings about. -/
inductive Mark where
  /-- Nothing beyond the next choice of the transmit arbiter. -/
  | plain
  /-- The TAKEN reply to RESTART: the warm start begins (R44). -/
  | restartReply
  /-- The TAKEN reply to SET_LINE: the pending settings it carries take effect (R22). -/
  | lineReply (r : LineRequest)
  /-- A MOVE_ORDER of that lift and move number: the move timer starts (R135, R181). -/
  | moveOrder (l : Lift) (number : Nat)
  deriving DecidableEq, Repr

/-- A frame in an own queue or being sent. -/
structure QFrame where
  frame : Frame
  mark : Mark
  deriving DecidableEq, Repr

/-- The port states (R12, R22). -/
inductive PortMode where
  | disabled
  | running
  | lineFault
  deriving DecidableEq, Repr

/-- The visit in progress (R5, R6): the station's number, the exchanges begun, whether poll hold has begun during it,
which ends it with its exchange (R18), the POLL that the last of its exchanges has sent, and whether the station has been
removed from the table since that exchange began (R4). -/
structure Visit where
  station : Nat
  exchanges : Nat
  cut : Bool
  poll : Frame
  removed : Bool
  deriving DecidableEq, Repr

/-- One line port (chapter 1). -/
structure PortState where
  settings : LineSettings
  mode : PortMode
  stations : List Station
  pollPos : Nat
  cyclePolled : Bool
  visit : Option Visit
  awaiting : Bool
  sending : Option QFrame
  turnLeft : Nat
  breakDue : Bool
  ownQueue : List QFrame
  transitQueue : List Frame
  passOver : Nat
  faultTally : Nat
  dropTally : Nat
  deriving DecidableEq, Repr

/-- The actions of the pass table (R19). -/
inductive PassAction where
  | pass
  | drop
  | gateA
  | gateB
  deriving DecidableEq, Repr

/-- One entry of the pass table (R20); no source is ANY. -/
structure PassEntry where
  source : Option Nat
  dest : Nat
  low : Nat
  high : Nat
  action : PassAction
  deriving DecidableEq, Repr

/-- Both ports and what they share. -/
structure Line where
  s : PortState
  g : PortState
  passTable : List PassEntry
  noticeDrops : Nat
  lineDueG : List LineRequest
  deriving DecidableEq, Repr

/-! ### Garage geometry (chapter 2) -/

/-- The operating modes (R34). -/
inductive Mode where
  | commissioning
  | service
  deriving DecidableEq, Repr

/-- A loaded zone record (R26). -/
structure Zone where
  lift : Lift
  level : Nat
  cost : Nat
  deriving DecidableEq, Repr

/-- A loaded stack record (R27). -/
structure Stack where
  zone : Nat
  depth : Nat
  deriving DecidableEq, Repr

/-- A bay's service state (R30). -/
inductive ServiceState where
  | inService
  | outPending
  | out
  | returnPending
  deriving DecidableEq, Repr

/-- A bay's occupancy with the ticket that goes with it (R28, R29). -/
inductive Occupancy where
  | free
  | reserved (ticket : Nat)
  | occupied (ticket : Nat)
  deriving DecidableEq, Repr

/-- A loaded bay record (R28). -/
structure Bay where
  stack : Nat
  position : Nat
  large : Bool
  charger : Bool
  swap : Bool
  service : ServiceState
  occ : Occupancy
  deriving DecidableEq, Repr

/-! ### Allocation settings (chapter 3) -/

/-- The six weights (R47). -/
structure Weights where
  wB : Nat
  wD : Nat
  wL : Nat
  wE : Nat
  wC : Nat
  wS : Nat
  deriving DecidableEq, Repr

/-- The stay thresholds, the default stay and the overflow capacity (R47). -/
structure Limits where
  defaultStay : Nat
  t1 : Nat
  t2 : Nat
  overflowCapacity : Nat
  deriving DecidableEq, Repr

/-! ### Tickets (chapter 4) -/

/-- The car classes (R63). -/
inductive CarClass where
  | s
  | l
  | e
  deriving DecidableEq, Repr

/-- The ticket states (section 4.2). -/
inductive TicketState where
  | allocated
  | parking
  | parked
  | overflow
  | queued
  | retrieving
  | held
  | ready
  | outbound
  | check
  deriving DecidableEq, Repr

/-- The locations of a car (section 1.7, R64); also the ends of a move (R118). -/
inductive Location where
  | bay (n : Nat)
  | hall (l : Lift)
  | lane (l : Lift)
  | lot
  | withRunner
  | unknown
  deriving DecidableEq, Repr

/-- The kinds of move (R118). -/
inductive MoveKind where
  | park
  | relocation
  | final
  deriving DecidableEq, Repr

/-- A move record (R118). `target` names the plan it belongs to by the plan's target; a PARK move has none. -/
structure Move where
  number : Nat
  kind : MoveKind
  ticket : Nat
  tag : Nat
  source : Location
  dest : Location
  target : Option Nat
  deriving DecidableEq, Repr

/-- A ticket's key status (R89). -/
inductive KeyStatus where
  | normal
  | takenUnreleased
  | mishung
  deriving DecidableEq, Repr

/-- The convoy channels (R145). -/
inductive Chan where
  | c0
  | c1
  deriving DecidableEq, Repr

/-- The phases of a retrieval (R63). -/
inductive Phase where
  | relocating
  | waitLane
  | final
  deriving DecidableEq, Repr

/-- A measurement part (R185): a value is absent until recorded, a mark absent until set. -/
structure Measure where
  parkedMinutes : Option Nat
  waitSeconds : Option Nat
  handoverSeconds : Option Nat
  parkedMark : Option Nat
  waitMark : Option Nat
  handoverMark : Option Nat
  deriving DecidableEq, Repr

/-- A ticket record (R63), its place in the retrieval queue's count (R98) and its hold timer (R182). -/
structure Ticket where
  tag : Nat
  cls : CarClass
  defaultPriority : Nat
  arrivalMinute : Nat
  estimate : Nat
  podium : Nat
  state : TicketState
  location : Location
  bay : Option Nat
  unresolved : Option (Lift × Move)
  hook : Nat
  outOfRange : Bool
  keyStatus : KeyStatus
  seq : Option Nat
  priority : Option Nat
  convoy : Option Chan
  hold : Bool
  resumePending : Bool
  phase : Option Phase
  cancelMark : Bool
  blocked : Bool
  runner : Option Nat
  readySeq : Option Nat
  measure : Option Measure
  relocations : Nat
  place : Bool
  holdTimer : Option Nat
  deriving DecidableEq, Repr

/-! ### The key cabinet (chapter 5) -/

/-- The hook states (R86). -/
inductive HookState where
  | free
  | reserved
  | held
  | released
  | out
  | mishung
  | stray
  | disabled
  deriving DecidableEq, Repr

/-- A hook record (R83). -/
structure Hook where
  state : HookState
  ticket : Option Nat
  tag : Option Nat
  deriving DecidableEq, Repr

/-! ### The retrieval queue (chapter 6) -/

/-- An entry of the retrieval queue: its ticket and its eligible-since stamp (R107). -/
structure Entry where
  ticket : Nat
  stamp : Option Nat
  deriving DecidableEq, Repr

/-! ### Lift units (chapter 7) -/

/-- The lift states (R119). -/
inductive LiftState where
  | offline
  | notReady
  | ready
  | moving
  | faulted
  | out
  deriving DecidableEq, Repr

/-- A lift's readiness as last reported (R121). -/
inductive Readiness where
  | none
  | ready
  | notReady
  deriving DecidableEq, Repr

/-- Who holds a lift's tenure (R123); `plan` is the lift unit's own `plan`. -/
inductive Holder where
  | park
  | channel (c : Chan)
  | plan
  deriving DecidableEq, Repr

/-- One relocation of a plan: a blocker, its bay, the bay reserved for it, and whether it has completed. -/
structure Reloc where
  blocker : Nat
  source : Nat
  dest : Nat
  done : Bool
  deriving DecidableEq, Repr

/-- A plan (section 7.3): its target, its level, its relocations front first, whether it holds a lane slot, and, while
in WAIT_LANE, its continuation stamp (R123). -/
structure Plan where
  target : Nat
  level : Nat
  relocs : List Reloc
  slot : Bool
  stamp : Option Nat
  deriving DecidableEq, Repr

/-- One lift unit, with its lift's entry hall and exit lane (chapter 7, R32, R33, R181, R189). -/
structure LiftUnit where
  state : LiftState
  serviceOn : Bool
  offPending : Bool
  readiness : Readiness
  tenure : Option Holder
  plan : Option Plan
  waiting : List Plan
  inFlight : Option Move
  reorder : Option Move
  unresolved : Option Move
  lastResolved : Option Nat
  nextNumber : Nat
  parkRequest : Option (Nat × Nat)
  moveTimer : Option Nat
  hall : Option (Nat × Nat)
  laneCapacity : Nat
  lane : List Nat
  reserved : Nat
  movesDone : Nat
  faults : Nat
  busySeconds : Nat
  deriving DecidableEq, Repr

/-! ### Convoys (chapter 8) -/

/-- The channel states (R145). -/
inductive ChanState where
  | idle
  | loaded
  | running
  | heldBack
  deriving DecidableEq, Repr

/-- One convoy channel (chapter 8). -/
structure Channel where
  state : ChanState
  list : List Nat
  blockLength : Nat
  level : Nat
  mix : Bool
  delivered : Nat
  blockCount : Nat
  blockLevel : Option Nat
  request : Option (Lift × Nat)
  deriving DecidableEq, Repr

/-! ### Runners (chapter 9) -/

/-- The runner states (R160). -/
inductive RunnerState where
  | off
  | free
  | assigned
  | offPending
  deriving DecidableEq, Repr

/-- A runner record with its pickup timer (R160, R167). -/
structure Runner where
  state : RunnerState
  ticket : Option Nat
  timer : Option Nat
  deriving DecidableEq, Repr

/-! ### The whole -/

/-- Every block behind the ports. -/
structure Garage where
  mode : Mode
  zoneRecs : Table Zone
  stackRecs : Table Stack
  bayRecs : Table Bay
  weights : Weights
  limits : Limits
  tickets : Table Ticket
  readyCounter : Nat
  cabinetSize : Nat
  rangeA : Option (Nat × Nat)
  rangeB : Option (Nat × Nat)
  rangeO : Option (Nat × Nat)
  hooks : Table Hook
  queue : List Entry
  requestCounter : Nat
  floor : Nat
  podiumLimit : Nat
  parkLevel : Nat
  liftA : LiftUnit
  liftB : LiftUnit
  chan0 : Channel
  chan1 : Channel
  runners : Table Runner
  freeList : List Nat
  waitList : List Nat
  seconds : Nat
  minute : Nat
  secsIntoMinute : Nat
  movePeriod : Nat
  pickupPeriod : Nat
  holdPeriod : Nat
  measuring : Bool
  deriving DecidableEq, Repr

/-- The state of the block: the supply, the ports, the blocks behind them, and the commands that are waiting. -/
structure State where
  powered : Bool
  storeHeld : Bool
  line : Line
  garage : Garage
  pending : List Instr
  deriving DecidableEq, Repr

/-! ### The state after a cold start -/

/-- The line settings of a cold start (R24). -/
def LineSettings.reset : LineSettings := ⟨1, 64, .even, 16⟩

/-- A port as a cold start leaves it, but for its state and its stations (R24). -/
def PortState.reset (mode : PortMode) (stations : List Station) : PortState where
  settings := LineSettings.reset
  mode := mode
  stations := stations
  pollPos := 0
  cyclePolled := false
  visit := none
  awaiting := false
  sending := none
  turnLeft := 0
  breakDue := false
  ownQueue := []
  transitQueue := []
  passOver := 0
  faultTally := 0
  dropTally := 0

/-- Both ports after a cold start (R24). -/
def Line.reset : Line where
  s := PortState.reset .running [⟨1, .office, .active, 0, 0⟩]
  g := PortState.reset .disabled []
  passTable := []
  noticeDrops := 0
  lineDueG := []

/-- A lift unit after a cold start (R144, R33, R183, R189). -/
def LiftUnit.reset : LiftUnit where
  state := .offline
  serviceOn := true
  offPending := false
  readiness := .none
  tenure := none
  plan := none
  waiting := []
  inFlight := none
  reorder := none
  unresolved := none
  lastResolved := none
  nextNumber := 1
  parkRequest := none
  moveTimer := none
  hall := none
  laneCapacity := 1
  lane := []
  reserved := 0
  movesDone := 0
  faults := 0
  busySeconds := 0

/-- A convoy channel after a cold start (R159). -/
def Channel.reset : Channel where
  state := .idle
  list := []
  blockLength := 1
  level := 0
  mix := false
  delivered := 0
  blockCount := 0
  blockLevel := none
  request := none

/-- A runner after a cold start (R160). -/
def Runner.reset : Runner := ⟨.off, none, none⟩

/-- The 32 runner records of a start (R160, R175). -/
def resetRunners : Table Runner := (List.range 32).map fun n => (n + 1, Runner.reset)

/-- Every block behind the ports after a cold start (R45 and the rules each chapter gives). -/
def Garage.reset : Garage where
  mode := .commissioning
  zoneRecs := []
  stackRecs := []
  bayRecs := []
  weights := ⟨8, 4, 2, 6, 3, 2⟩
  limits := ⟨240, 120, 480, 0⟩
  tickets := []
  readyCounter := 1
  cabinetSize := 0
  rangeA := none
  rangeB := none
  rangeO := none
  hooks := []
  queue := []
  requestCounter := 1
  floor := 5
  podiumLimit := 8
  parkLevel := 6
  liftA := LiftUnit.reset
  liftB := LiftUnit.reset
  chan0 := Channel.reset
  chan1 := Channel.reset
  runners := resetRunners
  freeList := []
  waitList := []
  seconds := 0
  minute := 0
  secsIntoMinute := 0
  movePeriod := 120
  pickupPeriod := 300
  holdPeriod := 900
  measuring := false

/-- The machine right after reset: a cold start that has ended, no command waiting (R45; `powered`, `storeHeld` and the
empty queue are the model's, log 1, 2, 3). -/
def State.reset : State where
  powered := true
  storeHeld := true
  line := Line.reset
  garage := Garage.reset
  pending := []

end Sys2Proof.Machine
end

