-- ==== Sys2Proof/Machine/Table.lean ====
section
/-! DEFINITION. Operations on tables keyed by number; each keeps the keys strictly rising. -/

namespace Sys2Proof.Machine

/-- The record of number `n`, when there is one. -/
def Table.find {α : Type} : Table α → Nat → Option α
  | [], _ => none
  | (k, v) :: rest, n => if k = n then some v else Table.find rest n

/-- The table with the record of number `n` set to `v`. -/
def Table.put {α : Type} : Table α → Nat → α → Table α
  | [], n, v => [(n, v)]
  | (k, w) :: rest, n, v =>
    if n < k then (n, v) :: (k, w) :: rest
    else if n = k then (n, v) :: rest
    else (k, w) :: Table.put rest n v

/-- The table without the record of number `n`. -/
def Table.remove {α : Type} (t : Table α) (n : Nat) : Table α := t.filter fun kv => kv.1 != n

/-- The table with the record of number `n`, when there is one, changed by `f`. -/
def Table.adjust {α : Type} (t : Table α) (n : Nat) (f : α → α) : Table α :=
  t.map fun kv => if kv.1 = n then (kv.1, f kv.2) else kv

/-- The table with every record changed by `f`. -/
def Table.mapAll {α : Type} (t : Table α) (f : α → α) : Table α := t.map fun kv => (kv.1, f kv.2)

/-- How many records satisfy `q`. -/
def Table.count {α : Type} (t : Table α) (q : α → Bool) : Nat := (t.filter fun kv => q kv.2).length

/-- The number of the first record that satisfies `q`. -/
def Table.findKey {α : Type} : Table α → (α → Bool) → Option Nat
  | [], _ => none
  | (k, v) :: rest, q => if q v then some k else Table.findKey rest q

/-- The canonical form: keys strictly rising. -/
def Table.rising {α : Type} : Table α → Bool
  | [] => true
  | (k, _) :: rest => (rest.all fun kv => decide (k < kv.1)) && Table.rising rest

/-- A list with `x` placed before the first element of a larger key (insertion in rising order of `key`). -/
def insertBy {α : Type} (key : α → Nat) (x : α) : List α → List α
  | [] => [x]
  | y :: rest => if key x < key y then x :: y :: rest else y :: insertBy key x rest

/-- A list in rising order of `key`; elements of equal keys come in no stated order. -/
def sortBy {α : Type} (key : α → Nat) : List α → List α
  | [] => []
  | x :: rest => insertBy key x (sortBy key rest)

end Sys2Proof.Machine
end

