-- ==== Sys2Proof/Machine/Flags.lean ====
section
/-! DEFINITION. The codes of enumerated fields (R194), result codes (R202), alert kinds (R203), frame kinds (R195),
saturating tallies (R23) and the MORE flag (R191). -/

namespace Sys2Proof.Machine

/-! ### Tallies and clamps -/

/-- A tally raised by one, staying at 65535 (R23). -/
def tallyUp (n : Nat) : Nat := if n < Config.max16 then n + 1 else n

/-- A tally raised `k` times (R22, R23). -/
def tallyAdd (n k : Nat) : Nat := min (n + k) (max n Config.max16)

/-- `v` clamped into `lo` to `hi` (section 1.7, Clamping). -/
def clamp (lo hi v : Nat) : Nat := if v < lo then lo else if hi < v then hi else v

/-- MORE is the lowest bit of the flags character; the other seven are ignored (R191). -/
def moreFlag (flags : Byte) : Bool := flags.getLsbD 0

/-! ### Frame kinds (R195) -/

namespace Kind

def poll : Byte := 0x01
def empty : Byte := 0x02
def arrival : Byte := 0x10
def retrieve : Byte := 0x11
def resume : Byte := 0x12
def cancel : Byte := 0x13
def handover : Byte := 0x14
def rePark : Byte := 0x15
def queryTicket : Byte := 0x16
def keyIn : Byte := 0x20
def keyOut : Byte := 0x21
def runnerOn : Byte := 0x28
def runnerOff : Byte := 0x29
def pickup : Byte := 0x2A
def liftStatus : Byte := 0x30
def carPresent : Byte := 0x31
def moveDone : Byte := 0x32
def moveFault : Byte := 0x33
def moveRefused : Byte := 0x34
def setLine : Byte := 0x40
def loadStations : Byte := 0x41
def loadPass : Byte := 0x42
def status : Byte := 0x43
def statusClear : Byte := 0x44
def restart : Byte := 0x45
def loadZones : Byte := 0x50
def loadStacks : Byte := 0x51
def loadBays : Byte := 0x52
def setLanes : Byte := 0x53
def loadCabinet : Byte := 0x54
def enterService : Byte := 0x55
def leaveService : Byte := 0x56
def bayService : Byte := 0x57
def queryBay : Byte := 0x58
def hookService : Byte := 0x59
def setWeights : Byte := 0x60
def setLimits : Byte := 0x61
def setFloor : Byte := 0x62
def setTimes : Byte := 0x63
def setClock : Byte := 0x64
def setMeasure : Byte := 0x65
def liftService : Byte := 0x68
def liftResolve : Byte := 0x69
def liftReport : Byte := 0x6A
def convoyLoad : Byte := 0x70
def convoyStart : Byte := 0x71
def convoyStop : Byte := 0x72
def convoyQuery : Byte := 0x73
def reply : Byte := 0x80
def allocation : Byte := 0x81
def carReady : Byte := 0x82
def ticketClosed : Byte := 0x83
def convoyDone : Byte := 0x84
def hookOpen : Byte := 0x85
def runnerTask : Byte := 0x86
def alert : Byte := 0x87
def moveOrder : Byte := 0x88

end Kind

/-! ### Result codes (R202) -/

/-- The result codes. -/
inductive Result where
  | taken
  | inProgress
  | handoverPending
  | notParked
  | unknownTicket
  | queueFull
  | notApplicable
  | refused
  | full
  | noHook
  | duplicate
  | badRequest
  deriving DecidableEq, Repr

/-- The code of a result (R202). -/
def Result.code : Result → Nat
  | .taken => 0
  | .inProgress => 1
  | .handoverPending => 2
  | .notParked => 3
  | .unknownTicket => 4
  | .queueFull => 5
  | .notApplicable => 6
  | .refused => 7
  | .full => 8
  | .noHook => 9
  | .duplicate => 10
  | .badRequest => 11

/-! ### Enumerated fields (R194) -/

/-- The absent marking of an enumerated code (R192). -/
def absentCode : Nat := 0xFF

/-- The absent marking of a bay number or a score (R192). -/
def absentBay : Nat := 0xFFFF

def portCode : Port → Nat
  | .s => 0
  | .g => 1

def liftCode : Lift → Nat
  | .a => 0
  | .b => 1

def parityCode : Parity → Nat
  | .none => 0
  | .even => 1
  | .odd => 2

def portModeCode : PortMode → Nat
  | .disabled => 0
  | .running => 1
  | .lineFault => 2

def modeCode : Mode → Nat
  | .commissioning => 0
  | .service => 1

def classCode : CarClass → Nat
  | .s => 0
  | .l => 1
  | .e => 2

def ticketStateCode : TicketState → Nat
  | .allocated => 0
  | .parking => 1
  | .parked => 2
  | .overflow => 3
  | .queued => 4
  | .retrieving => 5
  | .held => 6
  | .ready => 7
  | .outbound => 8
  | .check => 9

/-- The ticket state code `closed`, used in replies only (R194). -/
def closedCode : Nat := 14

def locationCode : Location → Nat
  | .bay _ => 0
  | .hall .a => 1
  | .hall .b => 2
  | .lane .a => 3
  | .lane .b => 4
  | .lot => 5
  | .withRunner => 6
  | .unknown => 7

/-- The bay field beside a location: the bay, or the absent marking (R194). -/
def locationBay : Location → Nat
  | .bay n => n
  | _ => absentBay

def phaseCode : Phase → Nat
  | .relocating => 0
  | .waitLane => 1
  | .final => 2

def keyStatusCode : KeyStatus → Nat
  | .normal => 0
  | .takenUnreleased => 1
  | .mishung => 2

/-- The key conditions of CAR_READY (R92). -/
inductive KeyCondition where
  | opened
  | notHung
  | mishung
  | alreadyOut
  deriving DecidableEq, Repr

def keyConditionCode : KeyCondition → Nat
  | .opened => 0
  | .notHung => 1
  | .mishung => 2
  | .alreadyOut => 3

def hookStateCode : HookState → Nat
  | .free => 0
  | .reserved => 1
  | .held => 2
  | .released => 3
  | .out => 4
  | .mishung => 5
  | .stray => 6
  | .disabled => 7

def occupancyCode : Occupancy → Nat
  | .free => 0
  | .reserved _ => 1
  | .occupied _ => 2

def serviceStateCode : ServiceState → Nat
  | .inService => 0
  | .outPending => 1
  | .out => 2
  | .returnPending => 3

def liftStateCode : LiftState → Nat
  | .offline => 0
  | .notReady => 1
  | .ready => 2
  | .moving => 3
  | .faulted => 4
  | .out => 5

def moveKindCode : MoveKind → Nat
  | .park => 0
  | .relocation => 1
  | .final => 2

def runnerStateCode : RunnerState → Nat
  | .off => 0
  | .free => 1
  | .assigned => 2
  | .offPending => 3

def chanCode : Chan → Nat
  | .c0 => 0
  | .c1 => 1

def chanStateCode : ChanState → Nat
  | .idle => 0
  | .loaded => 1
  | .running => 2
  | .heldBack => 3

/-- The close causes (R194). -/
inductive CloseCause where
  | handedOver
  | cancelled
  deriving DecidableEq, Repr

def closeCauseCode : CloseCause → Nat
  | .handedOver => 0
  | .cancelled => 1

/-- The code of a flag byte: 1 set, 0 clear. -/
def flagCode (b : Bool) : Nat := if b then 1 else 0

/-! ### Reading codes -/

def portOf : Nat → Option Port
  | 0 => some .s
  | 1 => some .g
  | _ => none

def liftOf : Nat → Option Lift
  | 0 => some .a
  | 1 => some .b
  | _ => none

def parityOf : Nat → Option Parity
  | 0 => some .none
  | 1 => some .even
  | 2 => some .odd
  | _ => none

def classOf : Nat → Option CarClass
  | 0 => some .s
  | 1 => some .l
  | 2 => some .e
  | _ => none

def chanOf : Nat → Option Chan
  | 0 => some .c0
  | 1 => some .c1
  | _ => none

/-- A station role code; `some none` is the role NONE (R194). -/
def roleOf : Nat → Option (Option Role)
  | 0 => some none
  | 1 => some (some .podium)
  | 2 => some (some .desk)
  | 3 => some (some .cabinet)
  | 4 => some (some .runnerBase)
  | 5 => some (some .office)
  | 6 => some (some .liftA)
  | 7 => some (some .liftB)
  | _ => none

def actionOf : Nat → Option PassAction
  | 0 => some .pass
  | 1 => some .drop
  | 2 => some .gateA
  | 3 => some .gateB
  | _ => none

/-- A direction code: out or off is false, in or on is true (R194). -/
def directionOf : Nat → Option Bool
  | 0 => some false
  | 1 => some true
  | _ => none

/-- The car positions of MOVE_FAULT (R136). -/
inductive CarPosition where
  | atSource
  | atDestination
  | unknown
  deriving DecidableEq, Repr

def carPositionOf : Nat → Option CarPosition
  | 0 => some .atSource
  | 1 => some .atDestination
  | 2 => some .unknown
  | _ => none

def carPositionCode : CarPosition → Nat
  | .atSource => 0
  | .atDestination => 1
  | .unknown => 2

/-- The car position code that a LIFT_FAULT alert carries for a location fault (R194). -/
def locationFaultCode : Nat := 3

/-! ### Alert kinds (R203) -/

namespace AlertKind

def stationSilent : Nat := 1
def stationBack : Nat := 2
def lineBreak : Nat := 3
def passGated : Nat := 4
def queueLost : Nat := 5
def retrievalBlocked : Nat := 6
def holdLong : Nat := 7
def wrongHall : Nat := 8
def hallCarNotExpected : Nat := 9
def moveMismatch : Nat := 10
def lateMoveReport : Nat := 11
def moveTimeout : Nat := 12
def liftFault : Nat := 13
def convoySkip : Nat := 14
def keyMismatch : Nat := 15
def keyStray : Nat := 16
def keyTaken : Nat := 17
def keyEventUnexpected : Nat := 18
def runnerLate : Nat := 19
def pickupMismatch : Nat := 20
def reportMalformed : Nat := 21

end AlertKind

end Sys2Proof.Machine
end

