-- ==== Sys2Proof/Machine/Operands.lean ====
section
/-! DEFINITION. The fields of payloads: reading them (R192, R196), writing them (R192, R198), and the length each kind
must have (R197). -/

namespace Sys2Proof.Machine

/-! ### Reading fields -/

/-- The one-character field at offset `i`. -/
def u8 (pl : List Byte) (i : Nat) : Nat := (pl.getD i 0).toNat

/-- The two-character field at offset `i`, least significant byte first (R192). -/
def u16 (pl : List Byte) (i : Nat) : Nat := u8 pl i + 256 * u8 pl (i + 1)

/-- The four-character field at offset `i`, least significant byte first (R192). -/
def u32 (pl : List Byte) (i : Nat) : Nat := u16 pl i + 65536 * u16 pl (i + 2)

/-- A byte that carries a single flag reads any non-zero value as set (R193). -/
def flag8 (pl : List Byte) (i : Nat) : Bool := u8 pl i != 0

/-- Bit `b` of the character at offset `i`. -/
def bit8 (pl : List Byte) (i b : Nat) : Bool := (pl.getD i 0).getLsbD b

/-- The lowest `w` bits of the character at offset `i` (R193). -/
def low8 (pl : List Byte) (i w : Nat) : Nat := u8 pl i % 2 ^ w

/-! ### Writing fields -/

/-- A one-character field. -/
def w8 (n : Nat) : List Byte := [BitVec.ofNat 8 n]

/-- A two-character field, least significant byte first (R192). -/
def w16 (n : Nat) : List Byte := [BitVec.ofNat 8 n, BitVec.ofNat 8 (n / 256)]

/-- A four-character field, least significant byte first (R192). -/
def w32 (n : Nat) : List Byte := w16 n ++ w16 (n / 65536)

/-- A flag byte. -/
def wFlag (b : Bool) : List Byte := w8 (flagCode b)

/-- A number whose absent marking is 0: ticket, tag, station, runner, hook, sequence number, place (R192). -/
def orZero (o : Option Nat) : Nat := o.getD 0

/-- A code whose absent marking is 0xFF (R192). -/
def orFF (o : Option Nat) : Nat := o.getD absentCode

/-- A bay number or score, absent 0xFFFF (R192). -/
def orFFFF (o : Option Nat) : Nat := o.getD absentBay

/-- A list padded with bytes of 0 to `n` characters (R198: bytes beyond a variant's fields are sent as 0). -/
def padTo (n : Nat) (l : List Byte) : List Byte := l ++ List.replicate (n - l.length) 0

/-! ### Lengths (R196, R197) -/

/-- The number of entries a counted request says it carries, its fixed part and its entry length, for a counted kind. -/
def countedLength (kind : Byte) (pl : List Byte) : Option Nat :=
  if kind = Kind.loadStations then some (2 + 2 * u8 pl 1)
  else if kind = Kind.loadPass then some (3 + 5 * u8 pl 2)
  else if kind = Kind.loadZones then some (1 + 5 * u8 pl 0)
  else if kind = Kind.loadStacks then some (1 + 4 * u8 pl 0)
  else if kind = Kind.loadBays then some (1 + 4 * u8 pl 0)
  else if kind = Kind.convoyLoad then some (2 + 2 * u8 pl 1)
  else none

/-- The payload length of a kind of fixed length (R196). -/
def fixedLength (kind : Byte) : Nat :=
  if kind = Kind.arrival then 10
  else if kind = Kind.retrieve then 4
  else if kind = Kind.resume ∨ kind = Kind.cancel ∨ kind = Kind.handover then 2
  else if kind = Kind.rePark then 4
  else if kind = Kind.queryTicket then 6
  else if kind = Kind.keyIn then 6
  else if kind = Kind.keyOut then 2
  else if kind = Kind.runnerOn ∨ kind = Kind.runnerOff then 1
  else if kind = Kind.pickup then 3
  else if kind = Kind.liftStatus then 1
  else if kind = Kind.carPresent then 4
  else if kind = Kind.moveDone then 1
  else if kind = Kind.moveFault ∨ kind = Kind.moveRefused then 2
  else if kind = Kind.setLine then 6
  else if kind = Kind.setLanes then 2
  else if kind = Kind.loadCabinet then 14
  else if kind = Kind.bayService then 3
  else if kind = Kind.queryBay then 2
  else if kind = Kind.hookService then 3
  else if kind = Kind.setWeights then 6
  else if kind = Kind.setLimits then 7
  else if kind = Kind.setFloor then 3
  else if kind = Kind.setTimes then 6
  else if kind = Kind.setClock then 5
  else if kind = Kind.setMeasure then 1
  else if kind = Kind.liftService ∨ kind = Kind.liftResolve ∨ kind = Kind.liftReport then 2
  else if kind = Kind.convoyStart then 4
  else if kind = Kind.convoyStop then 1
  else if kind = Kind.convoyQuery then 2
  else 0

/-- R197: the payload has the length its kind gives it, or the length that the count received gives; and the enumerated
field of a LIFT_STATUS, MOVE_FAULT or MOVE_REFUSED holds one of its codes. A payload too short to hold its count reads
the count as 0 and then has not that length. -/
def wellShaped (kind : Byte) (pl : List Byte) : Bool :=
  pl.length == (countedLength kind pl).getD (fixedLength kind)
    && !(kind == Kind.liftStatus && decide (1 < u8 pl 0))
    && !(kind == Kind.moveFault && decide (2 < u8 pl 1))
    && !(kind == Kind.moveRefused && decide (1 < u8 pl 1))

/-! ### Who may send what (R21), and when it is taken (R34) -/

/-- The management kinds of R195. -/
def managementKinds : List Byte :=
  [Kind.setLine, Kind.loadStations, Kind.loadPass, Kind.status, Kind.statusClear, Kind.restart, Kind.loadZones,
   Kind.loadStacks, Kind.loadBays, Kind.setLanes, Kind.loadCabinet, Kind.enterService, Kind.leaveService,
   Kind.bayService, Kind.queryBay, Kind.hookService, Kind.setWeights, Kind.setLimits, Kind.setFloor, Kind.setTimes,
   Kind.setClock, Kind.setMeasure, Kind.liftService, Kind.liftResolve, Kind.liftReport, Kind.convoyLoad,
   Kind.convoyStart, Kind.convoyStop, Kind.convoyQuery]

/-- The kinds a role permits (R21). -/
def permittedKinds : Role → List Byte
  | .podium =>
    [Kind.arrival, Kind.retrieve, Kind.resume, Kind.cancel, Kind.handover, Kind.rePark, Kind.queryTicket]
  | .desk => [Kind.retrieve, Kind.resume, Kind.cancel, Kind.queryTicket]
  | .cabinet => [Kind.keyIn, Kind.keyOut]
  | .runnerBase => [Kind.runnerOn, Kind.runnerOff, Kind.pickup]
  | .liftA => [Kind.liftStatus, Kind.carPresent, Kind.moveDone, Kind.moveFault, Kind.moveRefused]
  | .liftB => [Kind.liftStatus, Kind.carPresent, Kind.moveDone, Kind.moveFault, Kind.moveRefused]
  | .office => Kind.queryTicket :: managementKinds

/-- Whether a role permits a kind (R21). -/
def permits (r : Role) (kind : Byte) : Bool := (permittedKinds r).contains kind

/-- The kinds taken in COMMISSIONING only (R34). -/
def commissioningKinds : List Byte :=
  [Kind.loadZones, Kind.loadStacks, Kind.loadBays, Kind.setLanes, Kind.loadCabinet, Kind.enterService]

/-- The kinds taken in SERVICE only (R34). -/
def serviceKinds : List Byte :=
  [Kind.arrival, Kind.retrieve, Kind.resume, Kind.cancel, Kind.handover, Kind.rePark, Kind.queryTicket,
   Kind.leaveService]

/-- Whether a kind is taken in a mode (R34). -/
def takenIn (m : Mode) (kind : Byte) : Bool :=
  match m with
  | .commissioning => !serviceKinds.contains kind
  | .service => !commissioningKinds.contains kind

/-- The reports of the cabinet and of the lifts, which receive no REPLY (R21, R197). -/
def reportKinds : List Byte :=
  [Kind.keyIn, Kind.keyOut, Kind.liftStatus, Kind.carPresent, Kind.moveDone, Kind.moveFault, Kind.moveRefused]

end Sys2Proof.Machine
end

