-- ==== Sys2Proof/Machine/Rates.lean ====
section
/-! DEFINITION. Characters, rates and times of a port (R1, R2), the check of a frame (R191), and the acceptance of a
received frame (R9). -/

namespace Sys2Proof.Machine

/-! ### Characters (R1) -/

/-- One received character: its data bits, its parity bit as sampled, and its stop bit as sampled (true is high). -/
structure RxChar where
  data : Byte
  parity : Bool
  stop : Bool
  deriving DecidableEq, Repr

/-- Whether the count of ones in a character's data bits is odd. -/
def oddOnes (b : Byte) : Bool :=
  (List.range 8).foldl (fun acc i => xor acc (b.getLsbD i)) false

/-- The parity bit the port sends: EVEN makes the whole count of ones even, ODD makes it odd (R1). -/
def parityBit (p : Parity) (b : Byte) : Bool :=
  match p with
  | .none => false
  | .even => oddOnes b
  | .odd => !oddOnes b

/-- A parity fault: parity is EVEN or ODD and the parity bit is wrong (R1). -/
def parityFault (p : Parity) (c : RxChar) : Bool := p != .none && c.parity != parityBit p c.data

/-- A stop fault: the stop bit is sampled low (R1). -/
def stopFault (c : RxChar) : Bool := !c.stop

/-- A character as a sender with the same parity setting sends it. -/
def sentChar (p : Parity) (b : Byte) : RxChar := ⟨b, parityBit p b, true⟩

/-- Bit times of a character: 11 with parity and 10 without (R1). -/
def bitsPerChar (p : Parity) : Nat :=
  match p with
  | .none => 10
  | _ => 11

/-- The bits of a character as the port sends it, one bit time each (R1): a start bit, low; the data bits, the least
significant first; the parity bit, when parity is EVEN or ODD; a stop bit, high. -/
def charBits (p : Parity) (b : Byte) : List Bool :=
  [false] ++ (List.range 8).map b.getLsbD ++ (if p = .none then [] else [parityBit p b]) ++ [true]

/-- The byte whose bits stand in a list, the least significant first. -/
def byteOfBits (bits : List Bool) : Byte :=
  bits.foldr (fun bit (acc : Byte) => acc <<< 1 ||| (if bit then 1 else 0)) 0

/-- The character that a port at a parity samples from the bit times of one character, or none when they are not as many
as R1 gives or do not open with a start bit. -/
def sampledChar (p : Parity) (bits : List Bool) : Option RxChar :=
  if bits.length = bitsPerChar p ∧ bits.head? = some false then
    some ⟨byteOfBits ((bits.drop 1).take 8), p != .none && bits.getD 9 false, bits.getLastD false⟩
  else none

/-! ### Rates and times, in cycles of the 7.3728 MHz reference clock (R2) -/

/-- The reference clock in hertz (section 1.6, R2). -/
def referenceClock : Nat := 7372800

/-- Clock cycles of one bit: the divisor of R2, so that the bit rate is the reference clock divided by it. -/
def cyclesPerBit (s : LineSettings) : Nat := 2 * 2 ^ s.prescale * (256 - s.divisor)

/-- Clock cycles of one character time (R1, R2). -/
def cyclesPerChar (s : LineSettings) : Nat := bitsPerChar s.parity * cyclesPerBit s

/-- Clock cycles of the response window (R2, R5). -/
def windowCycles (s : LineSettings) : Nat := s.window * cyclesPerChar s

/-- Clock cycles of the idle time that ends a skip or a frame cut short, and of a break (R11, R12). -/
def idleCycles (s : LineSettings) : Nat := 2 * cyclesPerChar s

/-- Clock cycles of the break a warm start sends: 4 character times low and 2 high (R25). -/
def ownBreakCycles (s : LineSettings) : Nat := 6 * cyclesPerChar s

/-! ### The check of a frame (R191) -/

/-- One data bit through the check register: compare with the lowest bit, shift toward it, combine when they differ. -/
def checkBit (reg : BitVec 16) (bit : Bool) : BitVec 16 :=
  let shifted := reg >>> 1
  if xor (reg.getLsbD 0) bit then shifted ^^^ 0x8408 else shifted

/-- One character through the check register, least significant bit first. -/
def checkByte (reg : BitVec 16) (b : Byte) : BitVec 16 :=
  (List.range 8).foldl (fun r i => checkBit r (b.getLsbD i)) reg

/-- The check over a list of characters: the register starts as all ones and is sent uninverted. -/
def checkOf (chars : List Byte) : BitVec 16 := chars.foldl checkByte 0xFFFF

/-- The lead character (section 11.1). -/
def leadChar : Byte := 0xC5

/-- The characters of a frame from its lead to its last payload character (R191). -/
def frameBody (f : Frame) : List Byte :=
  leadChar :: f.dest :: f.src :: f.kind :: f.flags :: BitVec.ofNat 8 f.payload.length :: f.payload

/-- The two check characters, high byte first (R191). -/
def checkChars (body : List Byte) : List Byte :=
  [(checkOf body).extractLsb' 8 8, (checkOf body).extractLsb' 0 8]

/-- All characters of a frame as it is sent (R191). -/
def frameChars (f : Frame) : List Byte := frameBody f ++ checkChars (frameBody f)

/-! ### Receiving a frame (R9, R10, R11) -/

/-- What became of the characters of an answer. -/
inductive Received where
  /-- The frame reached its last character and passed every test of R9. -/
  | accepted (f : Frame)
  /-- It reached its last character and failed a parity, stop or check test (R10). -/
  | discarded
  /-- It did not open with the lead, or its length field reads more than 48, or it stopped short (R11). -/
  | cutShort
  deriving DecidableEq, Repr

/-- The receive checks of R9 on the characters of one answer, in the order they arrive. -/
def receiveChars (p : Parity) (chars : List RxChar) : Received :=
  let data := chars.map RxChar.data
  let len := (data.getD 5 0).toNat
  if data.head? ≠ some leadChar then .cutShort
  else if chars.length < 6 then .cutShort
  else if 48 < len then .cutShort
  else if chars.length < len + 8 then .cutShort
  else
    let frame := chars.take (len + 8)
    let body := data.take (len + 6)
    if frame.any (fun c => parityFault p c || stopFault c) then .discarded
    else if (data.drop (len + 6)).take 2 ≠ checkChars body then .discarded
    else .accepted ⟨data.getD 1 0, data.getD 2 0, data.getD 3 0, data.getD 4 0, (data.drop 6).take len⟩

end Sys2Proof.Machine
end

