-- ==== Sys2Proof/Decode.lean ====
section
/-! DEFINITION. From what a port receives to commands: the decoder of answers, its inverse, and the (empty) decoder of
table words. -/

namespace Sys2Proof

open Sys2Proof.Machine

/-- No row of the table of operations gives bits, so no word spells a command (log 28). -/
def decodeTableWord (_nbits _w : Nat) : Option Instr := none

/-- The frame command of a kind (R195, R196); none for a code that is no kind sent to the part. -/
def frameCommand (p : Port) (kind flags : Byte) (payload : List Byte) : Option Instr :=
  match kind.toNat with
  | 0x10 => some (.arrival p flags payload)
  | 0x11 => some (.retrieve p flags payload)
  | 0x12 => some (.resume p flags payload)
  | 0x13 => some (.cancel p flags payload)
  | 0x14 => some (.handover p flags payload)
  | 0x15 => some (.rePark p flags payload)
  | 0x16 => some (.queryTicket p flags payload)
  | 0x20 => some (.keyIn p flags payload)
  | 0x21 => some (.keyOut p flags payload)
  | 0x28 => some (.runnerOn p flags payload)
  | 0x29 => some (.runnerOff p flags payload)
  | 0x2A => some (.pickup p flags payload)
  | 0x30 => some (.liftStatus p flags payload)
  | 0x31 => some (.carPresent p flags payload)
  | 0x32 => some (.moveDone p flags payload)
  | 0x33 => some (.moveFault p flags payload)
  | 0x34 => some (.moveRefused p flags payload)
  | 0x40 => some (.setLine p flags payload)
  | 0x41 => some (.loadStations p flags payload)
  | 0x42 => some (.loadPass p flags payload)
  | 0x43 => some (.status p flags payload)
  | 0x44 => some (.statusClear p flags payload)
  | 0x45 => some (.restart p flags payload)
  | 0x50 => some (.loadZones p flags payload)
  | 0x51 => some (.loadStacks p flags payload)
  | 0x52 => some (.loadBays p flags payload)
  | 0x53 => some (.setLanes p flags payload)
  | 0x54 => some (.loadCabinet p flags payload)
  | 0x55 => some (.enterService p flags payload)
  | 0x56 => some (.leaveService p flags payload)
  | 0x57 => some (.bayService p flags payload)
  | 0x58 => some (.queryBay p flags payload)
  | 0x59 => some (.hookService p flags payload)
  | 0x60 => some (.setWeights p flags payload)
  | 0x61 => some (.setLimits p flags payload)
  | 0x62 => some (.setFloor p flags payload)
  | 0x63 => some (.setTimes p flags payload)
  | 0x64 => some (.setClock p flags payload)
  | 0x65 => some (.setMeasure p flags payload)
  | 0x68 => some (.liftService p flags payload)
  | 0x69 => some (.liftResolve p flags payload)
  | 0x6A => some (.liftReport p flags payload)
  | 0x70 => some (.convoyLoad p flags payload)
  | 0x71 => some (.convoyStart p flags payload)
  | 0x72 => some (.convoyStop p flags payload)
  | 0x73 => some (.convoyQuery p flags payload)
  | _ => none

/-- The command that an accepted answer makes (R6, R7, R19, R21): `st` is the polled station and `role` its role. -/
def acceptedAnswer (p : Port) (st : Nat) (role : Role) (f : Frame) : Instr :=
  if f.src.toNat ≠ st then .sourceMismatch p
  else if f.kind = Kind.empty then .empty p
  else if f.dest ≠ 127 then .transit p f
  else if permits role f.kind then (frameCommand p f.kind f.flags f.payload).getD (.unknownKind p f.kind f.flags f.payload)
  else .unknownKind p f.kind f.flags f.payload

/-- The command that the characters of one answer make (R9 to R11): no character at all is a miss. -/
def decodeAnswer (par : Parity) (p : Port) (st : Nat) (role : Role) (chars : List RxChar) : Instr :=
  if chars.isEmpty then .miss p
  else
    match receiveChars par chars with
    | .accepted f => acceptedAnswer p st role f
    | .discarded => .frameDiscarded p
    | .cutShort => .idleTimeEnd p

/-- The frame by which a station makes a command, for the commands that an answer makes (R191, R195). -/
def answerFrame (st : Nat) (i : Instr) : Option Frame :=
  let toPart (kind flags : Byte) (payload : List Byte) : Option Frame :=
    some ⟨127, BitVec.ofNat 8 st, kind, flags, payload⟩
  match i with
  | .powerUp _ => none
  | .warmStart => none
  | .tick => none
  | .moveTimerExpiry _ => none
  | .pickupTimerExpiry _ => none
  | .holdTimerExpiry _ => none
  | .poll _ => none
  | .miss _ => none
  | .empty _ => toPart Kind.empty 0 []
  | .frameDiscarded _ => none
  | .idleTimeEnd _ => none
  | .sourceMismatch _ => none
  | .lineBreak _ => none
  | .lineReturn _ => none
  | .frameSent _ => none
  | .moveOrderSent _ => none
  | .lineSettingsTakeEffect _ => none
  | .transit _ f => some f
  | .unknownKind _ k fl pl => toPart k fl pl
  | .arrival _ fl pl => toPart Kind.arrival fl pl
  | .retrieve _ fl pl => toPart Kind.retrieve fl pl
  | .resume _ fl pl => toPart Kind.resume fl pl
  | .cancel _ fl pl => toPart Kind.cancel fl pl
  | .handover _ fl pl => toPart Kind.handover fl pl
  | .rePark _ fl pl => toPart Kind.rePark fl pl
  | .queryTicket _ fl pl => toPart Kind.queryTicket fl pl
  | .keyIn _ fl pl => toPart Kind.keyIn fl pl
  | .keyOut _ fl pl => toPart Kind.keyOut fl pl
  | .runnerOn _ fl pl => toPart Kind.runnerOn fl pl
  | .runnerOff _ fl pl => toPart Kind.runnerOff fl pl
  | .pickup _ fl pl => toPart Kind.pickup fl pl
  | .liftStatus _ fl pl => toPart Kind.liftStatus fl pl
  | .carPresent _ fl pl => toPart Kind.carPresent fl pl
  | .moveDone _ fl pl => toPart Kind.moveDone fl pl
  | .moveFault _ fl pl => toPart Kind.moveFault fl pl
  | .moveRefused _ fl pl => toPart Kind.moveRefused fl pl
  | .setLine _ fl pl => toPart Kind.setLine fl pl
  | .loadStations _ fl pl => toPart Kind.loadStations fl pl
  | .loadPass _ fl pl => toPart Kind.loadPass fl pl
  | .status _ fl pl => toPart Kind.status fl pl
  | .statusClear _ fl pl => toPart Kind.statusClear fl pl
  | .restart _ fl pl => toPart Kind.restart fl pl
  | .loadZones _ fl pl => toPart Kind.loadZones fl pl
  | .loadStacks _ fl pl => toPart Kind.loadStacks fl pl
  | .loadBays _ fl pl => toPart Kind.loadBays fl pl
  | .setLanes _ fl pl => toPart Kind.setLanes fl pl
  | .loadCabinet _ fl pl => toPart Kind.loadCabinet fl pl
  | .enterService _ fl pl => toPart Kind.enterService fl pl
  | .leaveService _ fl pl => toPart Kind.leaveService fl pl
  | .bayService _ fl pl => toPart Kind.bayService fl pl
  | .queryBay _ fl pl => toPart Kind.queryBay fl pl
  | .hookService _ fl pl => toPart Kind.hookService fl pl
  | .setWeights _ fl pl => toPart Kind.setWeights fl pl
  | .setLimits _ fl pl => toPart Kind.setLimits fl pl
  | .setFloor _ fl pl => toPart Kind.setFloor fl pl
  | .setTimes _ fl pl => toPart Kind.setTimes fl pl
  | .setClock _ fl pl => toPart Kind.setClock fl pl
  | .setMeasure _ fl pl => toPart Kind.setMeasure fl pl
  | .liftService _ fl pl => toPart Kind.liftService fl pl
  | .liftResolve _ fl pl => toPart Kind.liftResolve fl pl
  | .liftReport _ fl pl => toPart Kind.liftReport fl pl
  | .convoyLoad _ fl pl => toPart Kind.convoyLoad fl pl
  | .convoyStart _ fl pl => toPart Kind.convoyStart fl pl
  | .convoyStop _ fl pl => toPart Kind.convoyStop fl pl
  | .convoyQuery _ fl pl => toPart Kind.convoyQuery fl pl
  | .powerLoss _ => none

/-- The characters by which a station, at a parity, makes a command. -/
def encodeAnswer (par : Parity) (st : Nat) (i : Instr) : Option (List RxChar) :=
  (answerFrame st i).map fun f => (frameChars f).map (sentChar par)

end Sys2Proof
end

