-- ==== Sys2Proof/Machine/Event.lean ====
section
/-! DEFINITION. An event in progress: the blocks behind the ports as it has left them so far, and the frames it has
originated, which join the queues in their order when its effects are complete (log 31). -/

namespace Sys2Proof.Machine

/-- To whom a frame of the part goes (R13). -/
inductive Dest where
  /-- A REPLY, to the port on which the request arrived, for the requesting station. -/
  | reply (p : Port) (station : Nat)
  /-- A station by its number. -/
  | station (n : Nat)
  /-- The station with that role. -/
  | role (r : Role)
  deriving DecidableEq, Repr

/-- A frame the part originates, before it is queued. -/
structure Out where
  dest : Dest
  kind : Byte
  payload : List Byte
  mark : Mark
  deriving DecidableEq, Repr

/-- An event in progress. -/
structure Ev where
  g : Garage
  out : List Out
  deriving DecidableEq, Repr

/-- Who sent the frame being handled: the port it arrived on and the polled station (R7). -/
structure Caller where
  port : Port
  station : Nat
  role : Role
  deriving DecidableEq, Repr

/-- Originate a frame. -/
def Ev.emit (e : Ev) (o : Out) : Ev := { e with out := e.out ++ [o] }

/-- Change the blocks behind the ports. -/
def Ev.modG (e : Ev) (f : Garage → Garage) : Ev := { e with g := f e.g }

/-- Queue a REPLY to the caller: the kind answered, the result code, the detail (R198). -/
def Ev.replyMarked (e : Ev) (c : Caller) (kind : Byte) (r : Result) (detail : List Byte) (m : Mark) : Ev :=
  e.emit ⟨.reply c.port c.station, Kind.reply, kind :: w8 r.code ++ detail, m⟩

/-- Queue a REPLY whose transmission has no further effect. -/
def Ev.reply (e : Ev) (c : Caller) (kind : Byte) (r : Result) (detail : List Byte) : Ev :=
  e.replyMarked c kind r detail .plain

/-- A BAD_REQUEST whose detail is one item (R198). -/
def Ev.badRequest (e : Ev) (c : Caller) (kind : Byte) (item : Nat) : Ev := e.reply c kind .badRequest (w8 item)

/-- Queue an ALERT for the office station: its kind, the second count of the event, its arguments (R13, R198). -/
def Ev.alert (e : Ev) (kind : Nat) (args : List Byte) : Ev :=
  e.emit ⟨.role .office, Kind.alert, w8 kind ++ w32 e.g.seconds ++ args, .plain⟩

/-- The role of a lift's station (R3). -/
def liftRole : Lift → Role
  | .a => .liftA
  | .b => .liftB

/-- The lift a role speaks for (R3). -/
def roleLift : Role → Option Lift
  | .liftA => some .a
  | .liftB => some .b
  | _ => none

/-- The other lift. -/
def otherLift : Lift → Lift
  | .a => .b
  | .b => .a

/-- The other channel. -/
def otherChan : Chan → Chan
  | .c0 => .c1
  | .c1 => .c0

end Sys2Proof.Machine
end

