-- ==== Sys2Proof/Machine/Ops.lean ====
section
/-! DEFINITION. The named operations over the blocks behind the ports: lift units, channels, tickets, bays, halls,
lanes, queue and lists. -/

namespace Sys2Proof.Machine

/-! ### Reading and changing the parts -/

/-- A lift unit. -/
def Garage.lift (g : Garage) : Lift → LiftUnit
  | .a => g.liftA
  | .b => g.liftB

/-- A lift unit changed by `f`. -/
def Garage.modLift (g : Garage) (l : Lift) (f : LiftUnit → LiftUnit) : Garage :=
  match l with
  | .a => { g with liftA := f g.liftA }
  | .b => { g with liftB := f g.liftB }

/-- A convoy channel. -/
def Garage.chan (g : Garage) : Chan → Channel
  | .c0 => g.chan0
  | .c1 => g.chan1

/-- A convoy channel changed by `f`. -/
def Garage.modChan (g : Garage) (c : Chan) (f : Channel → Channel) : Garage :=
  match c with
  | .c0 => { g with chan0 := f g.chan0 }
  | .c1 => { g with chan1 := f g.chan1 }

/-- A live ticket's record. -/
def Garage.ticket (g : Garage) (n : Nat) : Option Ticket := g.tickets.find n

/-- A ticket's record changed by `f`. -/
def Garage.modTicket (g : Garage) (n : Nat) (f : Ticket → Ticket) : Garage :=
  { g with tickets := g.tickets.adjust n f }

/-- A loaded bay. -/
def Garage.bay (g : Garage) (n : Nat) : Option Bay := g.bayRecs.find n

/-- A bay changed by `f`. -/
def Garage.modBay (g : Garage) (n : Nat) (f : Bay → Bay) : Garage := { g with bayRecs := g.bayRecs.adjust n f }

/-- A hook record changed by `f`. -/
def Garage.modHook (g : Garage) (n : Nat) (f : Hook → Hook) : Garage := { g with hooks := g.hooks.adjust n f }

/-- A runner's record. -/
def Garage.runner (g : Garage) (n : Nat) : Runner := (g.runners.find n).getD Runner.reset

/-- A runner's record changed by `f`. -/
def Garage.modRunner (g : Garage) (n : Nat) (f : Runner → Runner) : Garage :=
  { g with runners := g.runners.adjust n f }

/-! ### Derived counts -/

/-- The live tickets in a state (R23). -/
def Garage.countState (g : Garage) (st : TicketState) : Nat := g.tickets.count fun t => t.state == st

/-- The ready count (R65). -/
def Garage.readyCount (g : Garage) : Nat := g.tickets.count fun t => t.state == .ready || t.state == .outbound

/-- The overflow count (R59). -/
def Garage.overflowCount (g : Garage) : Nat := g.tickets.count fun t => t.location == .lot

/-- The places held (R98). -/
def Garage.placesHeld (g : Garage) : Nat := g.tickets.count fun t => t.place

/-- The members of a channel (R146). -/
def Garage.members (g : Garage) (c : Chan) : Nat := g.tickets.count fun t => t.convoy == some c

/-- The lift whose tenure a channel holds. -/
def Garage.tenureOf (g : Garage) (c : Chan) : Option Lift :=
  if g.liftA.tenure = some (.channel c) then some .a
  else if g.liftB.tenure = some (.channel c) then some .b
  else none

/-! ### Geometry (R26, R27) -/

/-- The number of the zone a bay lies in. -/
def Garage.zoneNoOf (g : Garage) (b : Bay) : Option Nat := (g.stackRecs.find b.stack).map Stack.zone

/-- The zone a bay lies in. -/
def Garage.zoneOf (g : Garage) (b : Bay) : Option Zone :=
  match g.zoneNoOf b with
  | some z => g.zoneRecs.find z
  | none => none

/-- The lift a bay lies on (R26). -/
def Garage.liftOfBay (g : Garage) (n : Nat) : Option Lift :=
  match g.bay n with
  | some b => (g.zoneOf b).map Zone.lift
  | none => none

/-- The loaded bays of a stack at a position, in increasing number. -/
def Garage.baysAt (g : Garage) (stack pos : Nat) : List (Nat × Bay) :=
  g.bayRecs.filter fun kv => kv.2.stack == stack && kv.2.position == pos

/-- The bay of a stack at a position (R27: in SERVICE there is exactly one at each position of the depth). -/
def Garage.bayAt (g : Garage) (stack pos : Nat) : Option (Nat × Bay) := (g.baysAt stack pos).head?

/-- The bays in front of a bay, front first (R27). -/
def Garage.front (g : Garage) (b : Bay) : List (Nat × Bay) :=
  (List.range (b.position - 1)).flatMap fun i => g.baysAt b.stack (i + 1)

/-- The bays deeper than a bay in its stack, in increasing number (R27). -/
def Garage.deeper (g : Garage) (b : Bay) : List (Nat × Bay) :=
  g.bayRecs.filter fun kv => kv.2.stack == b.stack && decide (b.position < kv.2.position)

/-- The ticket of the car in an OCCUPIED bay. -/
def Occupancy.occupant : Occupancy → Option Nat
  | .occupied t => some t
  | _ => none

/-- Whether a bay is RESERVED. -/
def Occupancy.isReserved : Occupancy → Bool
  | .reserved _ => true
  | _ => false

/-- The ticket an occupancy names. -/
def Occupancy.ticket? : Occupancy → Option Nat
  | .occupied t => some t
  | .reserved t => some t
  | .free => none

/-! ### Occupancy changes (R29, R31) -/

/-- A zone report clears the BLOCKED mark of every QUEUED ticket whose bay lies in that zone (R110). -/
def Garage.zoneReport (g : Garage) (zone : Nat) : Garage :=
  { g with
    tickets := g.tickets.mapAll fun t =>
      match t.bay.bind g.bay with
      | some b => if t.state = .queued ∧ g.zoneNoOf b = some zone then { t with blocked := false } else t
      | none => t }

/-- A zone report for the zone of a bay. -/
def Garage.reportBay (g : Garage) (b : Bay) : Garage :=
  match g.zoneNoOf b with
  | some z => g.zoneReport z
  | none => g

/-- Whether every bay in front of a bay is FREE. -/
def Garage.frontFree (g : Garage) (b : Bay) : Bool := (g.front b).all fun kv => kv.2.occ == .free

/-- R31 ❷: each RETURN_PENDING bay deeper than `b` whose bays in front are all FREE becomes IN_SERVICE. -/
def Garage.returnDeeper (g : Garage) (b : Bay) : Garage :=
  { g with
    bayRecs := g.bayRecs.mapAll fun d =>
      if d.stack = b.stack ∧ b.position < d.position ∧ d.service = .returnPending ∧ g.frontFree d = true then
        { d with service := .inService }
      else d }

/-- R31: the effects of bay `n` having become FREE. -/
def Garage.bayFreed (g : Garage) (n : Nat) : Garage :=
  match g.bay n with
  | none => g
  | some b =>
    let g := if b.service = .outPending then g.modBay n fun b => { b with service := .out } else g
    (g.returnDeeper b).reportBay b

/-- Reserve (R29): a FREE bay is held for a ticket. -/
def Garage.reserve (g : Garage) (n ticket : Nat) : Garage := g.modBay n fun b => { b with occ := .reserved ticket }

/-- Fill (R29): the reserved bay takes the ticket's car. -/
def Garage.fill (g : Garage) (n ticket : Nat) : Garage := g.modBay n fun b => { b with occ := .occupied ticket }

/-- Hold (R29): the bay of a move left unresolved is held for its ticket. -/
def Garage.holdBay (g : Garage) (n ticket : Nat) : Garage := g.modBay n fun b => { b with occ := .reserved ticket }

/-- Vacate (R29), with the effects of R31. -/
def Garage.vacate (g : Garage) (n ticket : Nat) : Garage :=
  match g.bay n with
  | none => g
  | some b =>
    if b.occ = .occupied ticket then (g.modBay n fun b => { b with occ := .free }).bayFreed n else g

/-- Release (R29), with the effects of R31. -/
def Garage.release (g : Garage) (n ticket : Nat) : Garage :=
  match g.bay n with
  | none => g
  | some b =>
    if b.occ = .reserved ticket then (g.modBay n fun b => { b with occ := .free }).bayFreed n else g

/-! ### Exit lanes (R143) -/

/-- A slot of a lane is free (R143). -/
def LiftUnit.slotFree (u : LiftUnit) : Bool := decide (u.lane.length + u.reserved < u.laneCapacity)

/-- The event frees a slot: each plan in WAIT_LANE becomes a continuation requester with this event's stamp (R143). -/
def LiftUnit.stampWaiting (now : Nat) (u : LiftUnit) : LiftUnit :=
  { u with waiting := u.waiting.map fun p => { p with stamp := some now } }

/-- A reserved slot is given up (R143). -/
def Garage.freeSlot (g : Garage) (l : Lift) : Garage :=
  g.modLift l fun u => LiftUnit.stampWaiting g.seconds { u with reserved := u.reserved - 1 }

/-- A ticket leaves its lane by PICKUP or HANDOVER, the tickets behind it keeping their order (R143). -/
def Garage.leaveLane (g : Garage) (l : Lift) (ticket : Nat) : Garage :=
  g.modLift l fun u => LiftUnit.stampWaiting g.seconds { u with lane := u.lane.filter (· != ticket) }

/-! ### Measurement (R185 to R188) -/

/-- The parked mark is set at the first parking (R186). -/
def Measure.markParked (now : Nat) (m : Measure) : Measure :=
  if m.parkedMinutes = none ∧ m.parkedMark = none then { m with parkedMark := some now } else m

/-- Parked minutes are recorded at the first request (R186). -/
def Measure.recordParked (now : Nat) (m : Measure) : Measure :=
  match m.parkedMinutes, m.parkedMark with
  | none, some k => { m with parkedMinutes := some (min ((now - k) / 60) Config.max16), parkedMark := none }
  | _, _ => m

/-- The wait mark is set when a request is taken (R187). -/
def Measure.markWait (now : Nat) (m : Measure) : Measure :=
  if m.waitSeconds = none then { m with waitMark := some now } else m

/-- The wait mark is cleared with nothing recorded (R187). -/
def Measure.clearWait (m : Measure) : Measure := { m with waitMark := none }

/-- Wait seconds are recorded, and the handover mark set, at the entry into READY (R187, R188). -/
def Measure.recordReady (now : Nat) (m : Measure) : Measure :=
  let m :=
    match m.waitSeconds, m.waitMark with
    | none, some k => { m with waitSeconds := some (min (now - k) Config.max16), waitMark := none }
    | _, _ => m
  if m.handoverSeconds = none ∧ m.handoverMark = none then { m with handoverMark := some now } else m

/-- Handover seconds are recorded at the close (R188). -/
def Measure.recordClose (now : Nat) (m : Measure) : Measure :=
  match m.handoverSeconds, m.handoverMark with
  | none, some k => { m with handoverSeconds := some (min (now - k) Config.max16), handoverMark := none }
  | _, _ => m

/-- A new measurement part: three values 0, marks absent (R184). -/
def Measure.new : Measure := ⟨none, none, none, none, none, none⟩

/-- A ticket's measurement part, when it has one, changed by `f`. -/
def Ticket.measured (t : Ticket) (f : Measure → Measure) : Ticket := { t with measure := t.measure.map f }

/-! ### Tickets leaving a retrieval -/

/-- The retrieval fields of a record removed, its place released and its hold timer stopped (R63, R98). -/
def Ticket.clearRetrieval (t : Ticket) : Ticket :=
  { t with
    seq := none
    priority := none
    convoy := none
    hold := false
    resumePending := false
    phase := none
    cancelMark := false
    blocked := false
    place := false
    holdTimer := none }

/-- A ticket removed from the retrieval queue and from both convoy lists. -/
def Garage.dequeue (g : Garage) (n : Nat) : Garage :=
  { g with
    queue := g.queue.filter fun e => e.ticket != n
    chan0 := { g.chan0 with list := g.chan0.list.filter (· != n) }
    chan1 := { g.chan1 with list := g.chan1.list.filter (· != n) } }

/-- A ticket becomes PARKED in the bay it holds without having entered READY: its retrieval fields and its wait mark are
removed (R114, R115, R156, R187). -/
def Garage.becomeParked (g : Garage) (n : Nat) : Garage :=
  (g.dequeue n).modTicket n fun t => (Ticket.clearRetrieval { t with state := .parked }).measured Measure.clearWait

/-- A request sequence number for ordering; a ticket without one stands last. -/
def Garage.seqOf (g : Garage) (n : Nat) : Nat := ((g.ticket n).bind Ticket.seq).getD (Config.max32 + 1)

/-- R105: the target of a plan that ended without its final move returns to the queue or to its convoy list where its
number falls, or becomes PARKED when it carries the cancel mark. -/
def Garage.returnTarget (g : Garage) (n : Nat) : Garage :=
  match g.ticket n with
  | none => g
  | some t =>
    if t.cancelMark then g.becomeParked n
    else
      match t.convoy with
      | some c =>
        let g := g.modTicket n fun t => { t with state := .queued, phase := none, blocked := false }
        g.modChan c fun ch => { ch with list := insertBy g.seqOf n ch.list }
      | none =>
        let g := g.modTicket n fun t =>
          { t with
            state := .queued
            phase := none
            blocked := false
            hold := t.hold && !t.resumePending
            resumePending := false }
        { g with queue := insertBy (fun e => g.seqOf e.ticket) ⟨n, none⟩ g.queue }

/-! ### Plans -/

/-- A plan ends (R115, R126, R139): every relocation bay reserved for it and not filled is released, its lane slot is
released, a tenure it holds in its own right is released; completed relocations stand. -/
def Garage.endPlan (g : Garage) (l : Lift) (p : Plan) : Garage :=
  let g := p.relocs.foldl (fun g r => if r.done then g else g.release r.dest r.blocker) g
  let g := if p.slot then g.freeSlot l else g
  g.modLift l fun u =>
    if (u.plan.map Plan.target) = some p.target then
      { u with plan := none, reorder := none, tenure := if u.tenure = some .plan then none else u.tenure }
    else { u with waiting := u.waiting.filter fun w => w.target != p.target }

/-- The block of a channel ends with its tenure (R152, R154). -/
def Garage.clearBlock (g : Garage) (c : Chan) : Garage :=
  g.modChan c fun ch => { ch with blockCount := 0, blockLevel := none }

/-- A lift enters FAULTED, OUT or OFFLINE: its tenure holder is cleared (R119, R126). The plan, if any, is dealt with by
the caller. -/
def Garage.stopLift (g : Garage) (l : Lift) (st : LiftState) : Garage :=
  let g :=
    match (g.lift l).tenure with
    | some (.channel c) => g.clearBlock c
    | _ => g
  g.modLift l fun u => { u with state := st, tenure := none }

/-- R126 ❶: the plan that held the tenure with no move in flight ends and its target goes back; a refused move is not
ordered again. -/
def Garage.dropPlan (g : Garage) (l : Lift) : Garage :=
  let g :=
    match (g.lift l).plan with
    | some p => (g.endPlan l p).returnTarget p.target
    | none => g
  g.modLift l fun u => { u with reorder := none }

/-- A lift with no move in flight enters FAULTED, OUT or OFFLINE (R126). -/
def Garage.stopIdleLift (g : Garage) (l : Lift) (st : LiftState) : Garage := (g.stopLift l st).dropPlan l

/-! ### Renumbering (R65, R99) -/

/-- The numbers `1` upward given to the tickets of a list in its order, by `f`. -/
def Garage.renumber (g : Garage) (f : Nat → Ticket → Ticket) : Nat → List Nat → Garage
  | _, [] => g
  | k, n :: rest => Garage.renumber (g.modTicket n (f k)) f (k + 1) rest

/-- Every live ticket with a request sequence number, in the order of the numbers. -/
def Garage.seqOrder (g : Garage) : List Nat :=
  (sortBy Prod.fst (g.tickets.filterMap fun kv => kv.2.seq.map fun s => (s, kv.1))).map Prod.snd

/-- Every READY and OUTBOUND ticket with a ready sequence number, in the order of the numbers. -/
def Garage.readyOrder (g : Garage) : List Nat :=
  (sortBy Prod.fst (g.tickets.filterMap fun kv => kv.2.readySeq.map fun s => (s, kv.1))).map Prod.snd

/-- R99: the next request sequence number and the counter raised, after renumbering when it stands at its top. -/
def Garage.takeSeq (g : Garage) : Garage × Nat :=
  let g :=
    if g.requestCounter = Config.max32 then
      { Garage.renumber g (fun k t => { t with seq := some k }) 1 g.seqOrder with
        requestCounter := g.seqOrder.length + 1 }
    else g
  ({ g with requestCounter := g.requestCounter + 1 }, g.requestCounter)

/-- R65: the next ready sequence number and the counter raised, after renumbering when it stands at its top. -/
def Garage.takeReadySeq (g : Garage) : Garage × Nat :=
  let g :=
    if g.readyCounter = Config.max32 then
      { Garage.renumber g (fun k t => { t with readySeq := some k }) 1 g.readyOrder with
        readyCounter := g.readyOrder.length + 1 }
    else g
  ({ g with readyCounter := g.readyCounter + 1 }, g.readyCounter)

/-! ### Lift counters (R189) -/

/-- Moves done rises by one when measurement is on; it wraps. -/
def Garage.countMove (g : Garage) (l : Lift) : Garage :=
  if g.measuring then g.modLift l fun u => { u with movesDone := (u.movesDone + 1) % (Config.max32 + 1) } else g

/-- Faults rises by one when measurement is on; it stays at 65535. -/
def Garage.countFault (g : Garage) (l : Lift) : Garage :=
  if g.measuring then g.modLift l fun u => { u with faults := tallyUp u.faults } else g

/-! ### Hook ranges (R84) -/

/-- The hook range for cars on a lift, or at the lot. -/
def Garage.rangeFor (g : Garage) : Option Lift → Option (Nat × Nat)
  | some .a => g.rangeA
  | some .b => g.rangeB
  | none => g.rangeO

/-- A hook lies inside a range. -/
def inRange (r : Option (Nat × Nat)) (h : Nat) : Bool :=
  match r with
  | some (first, last) => decide (first ≤ h) && decide (h ≤ last)
  | none => false

end Sys2Proof.Machine
end

