-- ==== Sys2Proof/Machine/Allocator.lean ====
section
/-! DEFINITION. The allocator: departure estimate, candidates, the six terms of the score, the winner (chapter 3). -/

namespace Sys2Proof.Machine

/-- The scope of a choice (R48). -/
inductive Scope where
  /-- Every loaded stack (arrival and re-park). -/
  | everywhere
  /-- The stacks whose zone's lift is that lift (hall). -/
  | onLift (l : Lift)
  /-- The stacks of a zone except one stack (relocation). -/
  | relocation (zone exceptStack : Nat)
  deriving DecidableEq, Repr

/-- Whether the scope examines a stack (R48). -/
def Scope.examines (g : Garage) (sc : Scope) (stackNo : Nat) (st : Stack) : Bool :=
  match sc with
  | .everywhere => true
  | .onLift l => (g.zoneRecs.find st.zone).map Zone.lift == some l
  | .relocation z x => st.zone == z && stackNo != x

/-- Whether SWAP bays are accepted and the load term left out (R48). -/
def Scope.isRelocation : Scope → Bool
  | .relocation _ _ => true
  | _ => false

/-- The stay used (R49): a hint of 0 means the default stay, a hint above 2880 is used as 2880. -/
def Garage.stayUsed (g : Garage) (hint : Nat) : Nat :=
  if hint = 0 then g.limits.defaultStay else min hint 2880

/-- The departure estimate formed now (R49): no wrap-around. -/
def Garage.formEstimate (g : Garage) (stay : Nat) : Nat := min (g.minute + stay) Config.max32

/-- Whether the bay of a stack at a position is IN_SERVICE and FREE. -/
def Garage.openAt (g : Garage) (stackNo pos : Nat) : Bool :=
  match g.bayAt stackNo pos with
  | some (_, b) => b.service == .inService && b.occ == .free
  | none => false

/-- R50 ❸: the number of leading positions, at most `depth`, all IN_SERVICE and FREE, from position `pos` on. -/
def Garage.openRun (g : Garage) (stackNo : Nat) : Nat → Nat → Nat
  | 0, _ => 0
  | depth + 1, pos => if g.openAt stackNo pos then Garage.openRun g stackNo depth (pos + 1) + 1 else 0

/-- R50 ❶ ❷: a RESERVED bay, or an OCCUPIED bay whose ticket is QUEUED, RETRIEVING or HELD, excludes its stack. -/
def Garage.excludes (g : Garage) (b : Bay) : Bool :=
  match b.occ with
  | .free => false
  | .reserved _ => true
  | .occupied t =>
    match g.ticket t with
    | some k => k.state == .queued || k.state == .retrieving || k.state == .held
    | none => false

/-- R51: the fit test of a bay. -/
def fits (cls : CarClass) (reloc : Bool) (b : Bay) : Bool := (cls != .l || b.large) && (reloc || !b.swap)

/-- R52: u_k for a lateness; a lateness of 0 or less (Nat subtraction gives 0) gives 0. -/
def quarterHours (late : Nat) : Nat := min ((late + 14) / 15) 16

/-- R52: U, over the cars deeper than the candidate. -/
def Garage.blockedCars (g : Garage) (b : Bay) (estimate : Nat) : Nat :=
  (g.deeper b).foldl
    (fun u kv =>
      match kv.2.occ.occupant.bind g.ticket with
      | some k => u + quarterHours (estimate - k.estimate)
      | none => u) 0

/-- R53: the position that a stay ahead suits, lowered to the stack's depth. -/
def Garage.suited (g : Garage) (estimate depth : Nat) : Nat :=
  let stay := estimate - g.minute
  let q := if stay < g.limits.t1 then 1 else if stay < g.limits.t2 then 2 else 3
  min q depth

/-- The absolute difference of two positions. -/
def distance (p q : Nat) : Nat := (p - q) + (q - p)

/-- R54: the load of a lift, lowered to 31. -/
def Garage.load (g : Garage) (l : Lift) : Nat :=
  let waiting := g.tickets.count fun t =>
    (t.state == .queued || t.state == .retrieving) && (t.bay.bind g.liftOfBay) == some l
  min (waiting + (if (g.lift l).parkRequest.isSome then 1 else 0)) 31

/-- R55: the charger term. -/
def Garage.chargerTerm (g : Garage) (cls : CarClass) (b : Bay) : Nat :=
  if cls = .e then (if b.charger then 0 else g.weights.wE) else (if b.charger then g.weights.wC else 0)

/-- R55: the size term. -/
def Garage.sizeTerm (g : Garage) (cls : CarClass) (b : Bay) : Nat :=
  if cls ≠ .l ∧ b.large = true then g.weights.wS else 0

/-- R56: the score of a candidate bay of a stack in a zone. -/
def Garage.score (g : Garage) (cls : CarClass) (estimate : Nat) (reloc : Bool) (st : Stack) (z : Zone) (b : Bay) : Nat :=
  g.weights.wB * g.blockedCars b estimate
    + g.weights.wD * distance b.position (g.suited estimate st.depth)
    + (if reloc then 0 else g.weights.wL * g.load z.lift)
    + z.cost
    + g.chargerTerm cls b
    + g.sizeTerm cls b

/-- R50: the candidate a stack offers, with its score. -/
def Garage.candidate (g : Garage) (cls : CarClass) (estimate : Nat) (reloc : Bool) (stackNo : Nat) (st : Stack) :
    Option (Nat × Nat) :=
  if g.bayRecs.any fun kv => kv.2.stack == stackNo && g.excludes kv.2 then none
  else
    match g.openRun stackNo st.depth 1 with
    | 0 => none
    | p + 1 =>
      match g.bayAt stackNo (p + 1), g.zoneRecs.find st.zone with
      | some (n, b), some z =>
        if fits cls reloc b then some (n, g.score cls estimate reloc st z b) else none
      | _, _ => none

/-- The better of two candidates: the lower score, then the lower bay number (R56). -/
def betterBay (x y : Nat × Nat) : Nat × Nat :=
  if y.2 < x.2 ∨ (y.2 = x.2 ∧ y.1 < x.1) then y else x

/-- R56: the winning bay and its score, or "no bay". -/
def Garage.choose (g : Garage) (sc : Scope) (cls : CarClass) (estimate : Nat) : Option (Nat × Nat) :=
  let offers := g.stackRecs.filterMap fun kv =>
    if sc.examines g kv.1 kv.2 then g.candidate cls estimate sc.isRelocation kv.1 kv.2 else none
  match offers with
  | [] => none
  | c :: rest => some (rest.foldl betterBay c)

end Sys2Proof.Machine
end

