-- ==== Sys2Proof/Machine/Ready.lean ====
section
/-! DEFINITION. Opening hooks, giving and releasing runners, and the READY effects (R65, R91 to R93, R103, R164 to R166). -/

namespace Sys2Proof.Machine

/-! ### Hooks (chapter 5) -/

/-- HOOK_OPEN for a hook, its tied ticket and its tag (R93, R201). -/
def hookOpenFrame (hook ticket tag : Nat) : Out :=
  ⟨.role .cabinet, Kind.hookOpen, w16 hook ++ w16 ticket ++ w32 tag, .plain⟩

/-- R92: the map acts on the hook of a ticket that enters READY. A HELD hook becomes RELEASED and HOOK_OPEN is queued. -/
def openHook (n : Nat) (t : Ticket) (e : Ev) : Ev :=
  match e.g.hooks.find t.hook with
  | some h =>
    if h.state = .held then
      (e.modG fun g => g.modHook t.hook fun h => { h with state := .released }).emit (hookOpenFrame t.hook n t.tag)
    else e
  | none => e

/-- R92: the key condition that the map returns, from the hook as found. -/
def keyConditionOf (h : Option Hook) : KeyCondition :=
  match h.map Hook.state with
  | some .held => .opened
  | some .mishung => .mishung
  | some .out => .alreadyOut
  | _ => .notHung

/-! ### Runners (chapter 9) -/

/-- RUNNER_TASK for a runner and a ticket (R166, R201). -/
def runnerTaskFrame (r n : Nat) (t : Ticket) : Out :=
  ⟨.role .runnerBase, Kind.runnerTask,
    w8 r ++ w16 n ++ w32 t.tag ++ w8 (locationCode t.location) ++ w16 t.hook ++ wFlag t.outOfRange, .plain⟩

/-- An assignment (R164, R165): the runner and the ticket name each other, the pickup timer starts, RUNNER_TASK is
queued. -/
def assign (r n : Nat) (e : Ev) : Ev :=
  let e := e.modG fun g =>
    (g.modRunner r fun _ => ⟨.assigned, some n, some g.pickupPeriod⟩).modTicket n fun t => { t with runner := some r }
  match e.g.ticket n with
  | some t => e.emit (runnerTaskFrame r n t)
  | none => e

/-- A ready sequence number for ordering; a ticket without one stands last. -/
def Garage.readySeqOf (g : Garage) (n : Nat) : Nat := ((g.ticket n).bind Ticket.readySeq).getD (Config.max32 + 1)

/-- R164: the head of the free list takes a READY ticket, or the ticket joins the wait list where its number falls. -/
def giveRunner (n : Nat) (e : Ev) : Ev :=
  match e.g.freeList with
  | r :: rest => assign r n (e.modG fun g => { g with freeList := rest })
  | [] => e.modG fun g => { g with waitList := insertBy g.readySeqOf n g.waitList }

/-- R165: a runner becomes FREE and takes the head of the wait list, or joins the tail of the free list. -/
def freeRunner (r : Nat) (e : Ev) : Ev :=
  match e.g.waitList with
  | n :: rest => assign r n (e.modG fun g => { g with waitList := rest })
  | [] => e.modG fun g => { g.modRunner r (fun _ => ⟨.free, none, none⟩) with freeList := g.freeList ++ [r] }

/-- R165: the runner of a ticket, when it has one, is released. -/
def releaseRunner (n : Nat) (e : Ev) : Ev :=
  match (e.g.ticket n).bind Ticket.runner with
  | none => e
  | some r =>
    let pending := (e.g.runner r).state = .offPending
    let e := e.modG fun g => g.modTicket n fun t => { t with runner := none }
    if pending then e.modG fun g => g.modRunner r fun _ => Runner.reset else freeRunner r e

/-! ### READY effects (R103) -/

/-- CAR_READY for a ticket (R103 ❹, R201). -/
def carReadyFrame (n : Nat) (t : Ticket) (k : KeyCondition) : Out :=
  ⟨.station t.podium, Kind.carReady,
    w16 n ++ w32 t.tag ++ w8 (locationCode t.location) ++ w16 t.hook ++ wFlag t.outOfRange
      ++ w8 (keyConditionCode k) ++ w8 (orZero t.runner), .plain⟩

/-- The channel of a member counts its delivery (R155). -/
def Garage.countDelivery (g : Garage) (n : Nat) : Garage :=
  match (g.ticket n).bind Ticket.convoy with
  | some c => g.modChan c fun ch => { ch with delivered := tallyUp ch.delivered }
  | none => g

/-- R103 ❶: the ticket's record at its entry into READY, with a ready sequence number. -/
def Ticket.toReady (t : Ticket) (now num : Nat) (loc : Location) : Ticket :=
  (Ticket.clearRetrieval
    { t with
      state := .ready
      location := loc
      bay := none
      unresolved := none
      readySeq := some num }).measured (Measure.recordReady now)

/-- R103 ❶: the record, the numbers and the delivery. -/
def Garage.becomeReady (g : Garage) (n : Nat) (loc : Location) : Garage :=
  let g := (g.countDelivery n).dequeue n
  let (g, num) := g.takeReadySeq
  g.modTicket n fun t => t.toReady g.seconds num loc

/-- R103: the READY effects, in their order. -/
def enterReady (n : Nat) (loc : Location) (e : Ev) : Ev :=
  let e := e.modG fun g => g.becomeReady n loc
  match e.g.ticket n with
  | none => e
  | some t =>
    let k := keyConditionOf (e.g.hooks.find t.hook)
    let e := giveRunner n (openHook n t e)
    match e.g.ticket n with
    | some t => e.emit (carReadyFrame n t k)
    | none => e

end Sys2Proof.Machine
end

