-- ==== Sys2Proof/Machine/Plans.lean ====
section
/-! DEFINITION. Ordering moves, building plans and taking their steps (R127 to R132, R135). -/

namespace Sys2Proof.Machine

/-! ### Ordering a move (R135) -/

/-- The next move number, from 255 to 1 (R118). -/
def nextMoveNumber (n : Nat) : Nat := if n < 255 then n + 1 else 1

/-- A location field with its bay field (R194). -/
def wLocation (x : Location) : List Byte := w8 (locationCode x) ++ w16 (locationBay x)

/-- MOVE_ORDER for a move (R135, R201). -/
def moveOrderFrame (l : Lift) (m : Move) : Out :=
  ⟨.role (liftRole l), Kind.moveOrder, w8 m.number ++ wLocation m.source ++ wLocation m.dest ++ w32 m.tag,
    .moveOrder l m.number⟩

/-- R135: the move record, the number advanced, the lift MOVING, and MOVE_ORDER queued. The number the move carries is
the next move number, whatever number `m` comes with. -/
def order (l : Lift) (m : Move) (e : Ev) : Ev :=
  let m := { m with number := (e.g.lift l).nextNumber }
  (e.modG fun g => g.modLift l fun u =>
    { u with state := .moving, inFlight := some m, reorder := none, nextNumber := nextMoveNumber u.nextNumber }).emit
      (moveOrderFrame l m)

/-- The tag of a live ticket. -/
def Garage.tagOf (g : Garage) (n : Nat) : Nat := ((g.ticket n).map Ticket.tag).getD 0

/-! ### Building a plan (R127 to R129) -/

/-- The bay a ticket's bay field names, with its number. -/
def Garage.bayOfTicket (g : Garage) (n : Nat) : Option (Nat × Bay) :=
  match (g.ticket n).bind Ticket.bay with
  | some k => (g.bay k).map fun b => (k, b)
  | none => none

/-- The cars in front of a bay, front first: bay and ticket (R128). -/
def Garage.blockers (g : Garage) (b : Bay) : List (Nat × Nat) :=
  (g.front b).filterMap fun kv => kv.2.occ.occupant.map fun t => (kv.1, t)

/-- A ticket is waiting for retrieval with no BLOCKED mark (R127). -/
def Garage.promotable (g : Garage) (n : Nat) : Bool :=
  match g.ticket n with
  | some t => t.state == .queued && !t.blocked
  | none => false

/-- R127: the ticket whose plan is built for a winner: the frontmost promotable car in front of it, or the winner. -/
def Garage.promoted (g : Garage) (n : Nat) : Nat :=
  match g.bayOfTicket n with
  | some (_, b) => (((g.blockers b).map Prod.snd).find? g.promotable).getD n
  | none => n

/-- R128: a relocation bay chosen and reserved for each blocker in turn, or the blocker at which the build fails. A
failure answers no blocks' state, so no reservation of it stands and no zone is reported (R129). -/
def Garage.placeBlockers (g : Garage) (zone exceptStack : Nat) : List (Nat × Nat) → Except Nat (Garage × List Reloc)
  | [] => .ok (g, [])
  | (n, t) :: rest =>
    match g.ticket t with
    | none => .error t
    | some k =>
      if k.state = .retrieving then .error t
      else
        match g.choose (.relocation zone exceptStack) k.cls k.estimate with
        | none => .error t
        | some (d, _) =>
          match Garage.placeBlockers (g.reserve d t) zone exceptStack rest with
          | .ok (g', rs) => .ok (g', ⟨t, n, d, false⟩ :: rs)
          | .error b => .error b

/-- R109, R153: the BLOCKED mark with RETRIEVAL_BLOCKED, and CONVOY_SKIP for a member; a mark already set is left with
no second alert (R129). -/
def markBlocked (n blocker zone : Nat) (e : Ev) : Ev :=
  match e.g.ticket n with
  | none => e
  | some t =>
    if t.blocked then e
    else
      let e := (e.modG fun g => g.modTicket n fun t => { t with blocked := true }).alert AlertKind.retrievalBlocked
        (w16 n ++ w16 blocker ++ w8 zone)
      match t.convoy with
      | some c => e.alert AlertKind.convoySkip (w8 (chanCode c) ++ w16 n ++ w8 zone)
      | none => e

/-- R128 ❶ ❷: the target becomes RETRIEVING, leaves its queue or list, and its plan stands on the lift. -/
def Garage.startPlan (g : Garage) (l : Lift) (n level : Nat) (rs : List Reloc) : Garage :=
  ((g.dequeue n).modTicket n fun t =>
      { t with state := .retrieving, phase := if rs.isEmpty then none else some .relocating, blocked := false }).modLift l
    fun u => { u with plan := some ⟨n, level, rs, false, none⟩, reorder := none }

/-- R127, R128, R129: build the plan of a winner, or of the car promoted in its place, at a level. The second part says
whether a plan was built; when it was not, the ticket whose plan it was is marked. -/
def buildPlan (l : Lift) (winner level : Nat) (e : Ev) : Ev × Bool :=
  let n := e.g.promoted winner
  match e.g.bayOfTicket n with
  | none => (e.modG fun g => g.modTicket n fun t => { t with blocked := true }, false)
  | some (_, b) =>
    let z := (e.g.zoneNoOf b).getD 0
    match e.g.placeBlockers z b.stack (e.g.blockers b) with
    | .error blocker => (markBlocked n blocker z e, false)
    | .ok (g, rs) => (e.modG fun _ => g.startPlan l n level rs, true)

/-! ### The steps of a plan (R130 to R132) -/

/-- The final move of a plan: from the target's bay to the exit lane. -/
def Garage.finalMove (g : Garage) (l : Lift) (n : Nat) : Move :=
  ⟨0, .final, n, g.tagOf n, .bay (((g.ticket n).bind Ticket.bay).getD 0), .lane l, some n⟩

/-- R132: a slot is reserved, the phase becomes FINAL and the final move is ordered, the plan standing on the lift. A
tenure that the plan holds in its own right is released (R125). -/
def goToLane (l : Lift) (p : Plan) (e : Ev) : Ev :=
  let e := e.modG fun g =>
    (g.modTicket p.target fun t => { t with phase := some .final }).modLift l fun u =>
      { u with
        reserved := u.reserved + 1
        plan := some { p with slot := true, stamp := none }
        tenure := if u.tenure = some .plan then none else u.tenure }
  order l (e.g.finalMove l p.target) e

/-- R132, R152: no slot is free, so the plan waits for one and the tenure is released; a convoy block ends. -/
def waitForLane (l : Lift) (p : Plan) (e : Ev) : Ev :=
  e.modG fun g =>
    let g :=
      match (g.lift l).tenure with
      | some (.channel c) => g.clearBlock c
      | _ => g
    (g.modTicket p.target fun t => { t with phase := some .waitLane }).modLift l fun u =>
      { u with plan := none, tenure := none, waiting := u.waiting ++ [{ p with slot := false, stamp := none }] }

/-- R132: a plan past its hold point. -/
def passHoldPoint (l : Lift) (p : Plan) (e : Ev) : Ev :=
  if (e.g.lift l).slotFree then goToLane l p e else waitForLane l p e

/-- R131 ❷: the plan suspends, its target HELD with its hold timer started. -/
def suspend (l : Lift) (p : Plan) (e : Ev) : Ev :=
  e.modG fun g =>
    (g.modTicket p.target fun t => { t with state := .held, phase := none, holdTimer := some g.holdPeriod }).modLift l
      fun u => { u with plan := none, tenure := if u.tenure = some .plan then none else u.tenure }

/-- R131: the hold point. -/
def atHoldPoint (l : Lift) (p : Plan) (e : Ev) : Ev :=
  match e.g.ticket p.target with
  | none => e.modG fun g => g.endPlan l p
  | some t =>
    if t.convoy = none ∧ t.hold = true then
      if t.resumePending then
        passHoldPoint l p (e.modG fun g => g.modTicket p.target fun t => { t with hold := false, resumePending := false })
      else suspend l p e
    else passHoldPoint l p e

/-- R130 ❹: the next step of a plan on a READY lift: its next relocation, or its hold point. -/
def planStep (l : Lift) (p : Plan) (e : Ev) : Ev :=
  match p.relocs.find? fun r => !r.done with
  | some r => order l ⟨0, .relocation, r.blocker, e.g.tagOf r.blocker, .bay r.source, .bay r.dest, some p.target⟩ e
  | none => atHoldPoint l p e

/-- R138: a refused move ordered again under a new number. A PARK move's ticket is PARKING again and its tenure is
released; so is a tenure that a plan holds in its own right, when the move is its final move (R125). -/
def reorderMove (l : Lift) (m : Move) (e : Ev) : Ev :=
  let e := e.modG fun g =>
    match m.kind with
    | .park => (g.modTicket m.ticket fun t => { t with state := .parking }).modLift l fun u => { u with tenure := none }
    | .final => g.modLift l fun u => { u with tenure := if u.tenure = some .plan then none else u.tenure }
    | .relocation => g
  order l m e

end Sys2Proof.Machine
end

