-- ==== Sys2Proof/Machine/Arbiter.lean ====
section
/-! DEFINITION. Eligibility, tenure requests, the lift arbiter, convoy blocks, and what an event sets off once its own
effects are complete (R106, R107, R123 to R125, R149 to R155). -/

namespace Sys2Proof.Machine

/-! ### Eligibility and requests -/

/-- R106 ❷ ❸: no bay in front of the ticket's bay is RESERVED, and no car in front is in CHECK. -/
def Garage.wayClear (g : Garage) (n : Nat) : Bool :=
  match g.bayOfTicket n with
  | none => false
  | some (_, b) =>
    (g.front b).all fun kv =>
      !kv.2.occ.isReserved &&
        match kv.2.occ.occupant.bind g.ticket with
        | some t => t.state != .check
        | none => true

/-- The floor test at a level (R106 ❺, R150). -/
def Garage.floorTest (g : Garage) (level : Nat) : Bool :=
  decide (g.readyCount < g.podiumLimit) || decide (g.floor ≤ level)

/-- R106 ❷ to ❺ for a queue entry. -/
def Garage.waitsClear (g : Garage) (n : Nat) : Bool :=
  match g.ticket n with
  | some t => g.wayClear n && !t.blocked && g.floorTest (t.priority.getD 0)
  | none => false

/-- R107: the eligible-since stamps determined anew. -/
def Garage.restamp (g : Garage) : Garage :=
  { g with
    queue := g.queue.map fun en =>
      { en with stamp := if g.waitsClear en.ticket then some (en.stamp.getD g.seconds) else none } }

/-- R150: the lead ticket of a channel, which a RUNNING channel alone has. -/
def Garage.lead (g : Garage) (c : Chan) : Option Nat :=
  if (g.chan c).state = .running then
    (g.chan c).list.find? fun n =>
      match g.ticket n with
      | some t => !t.blocked && g.wayClear n
      | none => false
  else none

/-- The lift on which a ticket's bay lies. -/
def Garage.liftOfTicket (g : Garage) (n : Nat) : Option Lift :=
  match g.bayOfTicket n with
  | some (_, b) => (g.zoneOf b).map Zone.lift
  | none => none

/-- R150: the lift on which a channel has a tenure request standing, when it has one. -/
def Garage.requestLift (g : Garage) (c : Chan) : Option Lift :=
  if (g.chan c).state = .running ∧ g.tenureOf c = none ∧ g.floorTest (g.chan c).level = true then
    (g.lead c).bind g.liftOfTicket
  else none

/-- R150: a channel's tenure request determined anew; on the same lift it keeps its stamp. -/
def Garage.rerequest (g : Garage) (c : Chan) : Garage :=
  let wanted := g.requestLift c
  g.modChan c fun ch =>
    { ch with
      request :=
        match wanted, ch.request with
        | none, _ => none
        | some l, some (k, stamp) => if k = l then some (l, stamp) else some (l, g.seconds)
        | some l, none => some (l, g.seconds) }

/-- Stamps and requests determined anew after a change. -/
def Garage.determine (g : Garage) : Garage := (g.restamp.rerequest .c0).rerequest .c1

/-! ### The arbiter (R123, R124) -/

/-- A requester of a lift's tenure. -/
inductive Requester where
  | park (ticket : Nat)
  | channel (c : Chan)
  | continuation (p : Plan)
  | entry (ticket : Nat)
  deriving DecidableEq, Repr

/-- A requester with what the arbiter compares. -/
structure Bid where
  who : Requester
  level : Nat
  stamp : Nat
  rank : Nat
  seq : Nat
  deriving DecidableEq, Repr

/-- R124: the first bid wins against the second. -/
def Bid.beats (x y : Bid) : Bool :=
  decide (y.level < x.level) ||
    (x.level == y.level &&
      (decide (x.stamp < y.stamp) ||
        (x.stamp == y.stamp &&
          (decide (x.rank < y.rank) || (x.rank == y.rank && decide (x.seq < y.seq))))))

/-- The park move as a requester (R123). -/
def Garage.parkBid (g : Garage) (l : Lift) : List Bid :=
  match (g.lift l).parkRequest with
  | some (n, stamp) => [⟨.park n, g.parkLevel, stamp, 0, 0⟩]
  | none => []

/-- A convoy channel as a requester (R123). -/
def Garage.chanBid (g : Garage) (l : Lift) (c : Chan) (rank : Nat) : List Bid :=
  match (g.chan c).request with
  | some (k, stamp) => if k = l then [⟨.channel c, (g.chan c).level, stamp, rank, 0⟩] else []
  | none => []

/-- The continuations of a lift (R123): its plans in WAIT_LANE while its lane has a free slot. -/
def Garage.laneBids (g : Garage) (l : Lift) : List Bid :=
  if (g.lift l).slotFree then
    (g.lift l).waiting.map fun p => ⟨.continuation p, p.level, p.stamp.getD g.seconds, 3, g.seqOf p.target⟩
  else []

/-- The queue entries offered for a lift (R107): those with a stamp whose bay lies on it. -/
def Garage.entryBids (g : Garage) (l : Lift) : List Bid :=
  g.queue.filterMap fun en =>
    match en.stamp, g.ticket en.ticket with
    | some stamp, some t =>
      if g.liftOfTicket en.ticket = some l then
        some ⟨.entry en.ticket, t.priority.getD 0, stamp, 4, g.seqOf en.ticket⟩
      else none
    | _, _ => none

/-- Every requester of a lift. -/
def Garage.bids (g : Garage) (l : Lift) : List Bid :=
  g.parkBid l ++ g.chanBid l .c0 1 ++ g.chanBid l .c1 2 ++ g.laneBids l ++ g.entryBids l

/-- R124: the winner among the bids. -/
def bestBid : List Bid → Option Bid
  | [] => none
  | b :: rest => some (rest.foldl (fun x y => if y.beats x then y else x) b)

/-- R134: the park move wins: it is ordered, its ticket becomes PARKING, and the tenure is released at once. -/
def grantPark (l : Lift) (n : Nat) (e : Ev) : Ev :=
  match (e.g.ticket n).bind Ticket.bay with
  | none => e.modG fun g => g.modLift l fun u => { u with parkRequest := none }
  | some b =>
    order l ⟨0, .park, n, e.g.tagOf n, .hall l, .bay b, none⟩
      (e.modG fun g => g.modTicket n fun t => { t with state := .parking })

/-- R151: a channel wins and holds the tenure; its request lapses. -/
def grantChannel (l : Lift) (c : Chan) (e : Ev) : Ev :=
  e.modG fun g =>
    ((g.clearBlock c).modChan c fun ch => { ch with request := none }).modLift l fun u =>
      { u with tenure := some (.channel c) }

/-- R132: a continuation wins: it reserves its slot and orders its final move. -/
def grantContinuation (l : Lift) (p : Plan) (e : Ev) : Ev :=
  goToLane l p (e.modG fun g => g.modLift l fun u => { u with waiting := u.waiting.filter fun w => w.target != p.target })

/-- R124, R128, R129: a queue entry wins: its plan, or that of the car promoted in its place, is built and holds the
tenure, or the tenure is released at once. -/
def grantEntry (l : Lift) (n level : Nat) (e : Ev) : Ev :=
  let (e, built) := buildPlan l n level e
  if built then e.modG fun g => g.modLift l fun u => { u with tenure := some .plan } else e

/-- R124: the winner's work begins. -/
def grant (l : Lift) (b : Bid) (e : Ev) : Ev :=
  match b.who with
  | .park n => grantPark l n e
  | .channel c => grantChannel l c e
  | .continuation p => grantContinuation l p e
  | .entry n => grantEntry l n b.level e

/-! ### Convoy blocks (R151 to R153) -/

/-- R152: the block ends and the channel releases the tenure. -/
def endBlock (l : Lift) (c : Chan) (e : Ev) : Ev :=
  e.modG fun g => (g.clearBlock c).modLift l fun u => { u with tenure := none }

/-- The level of the zone in which a ticket's bay lies. -/
def Garage.levelOfTicket (g : Garage) (n : Nat) : Nat :=
  match g.bayOfTicket n with
  | some (_, b) => ((g.zoneOf b).map Zone.level).getD 0
  | none => 0

/-- R151: one block step. A channel that is no longer RUNNING has no lead, so its block ends. A plan that cannot be built
leaves the channel its tenure, and the step is taken again. DESIGN CHOICE (log 17): a channel loaded and started again before
this step, under a tenure it holds from before it entered IDLE, goes on with that tenure's block: the old block count counts
toward the new B, and the old block level stands. -/
def blockStep (l : Lift) (c : Chan) (e : Ev) : Ev :=
  let ch := e.g.chan c
  if ch.blockLength ≤ ch.blockCount then endBlock l c e
  else
    match e.g.lead c with
    | none => endBlock l c e
    | some n =>
      let level := e.g.levelOfTicket n
      if e.g.liftOfTicket n ≠ some l ∨ (ch.blockLevel.getD level) ≠ level then endBlock l c e
      else
        let (e, built) := buildPlan l n ch.level e
        if built then
          e.modG fun g => g.modChan c fun ch =>
            { ch with blockCount := ch.blockCount + 1, blockLevel := some (ch.blockLevel.getD level) }
        else e

/-! ### What an event sets off -/

/-- R121, R130, R137, R151: the holder of a READY lift carries on its work, when there is a holder. -/
def holderWork (l : Lift) (e : Ev) : Option Ev :=
  let u := e.g.lift l
  if u.state = .ready then
    match u.tenure with
    | none => none
    | some h =>
      match u.reorder, u.plan with
      | some m, _ => some (reorderMove l m e)
      | none, some p => some (planStep l p e)
      | none, none =>
        match h with
        | .channel c => some (blockStep l c e)
        | _ => some (e.modG fun g => g.modLift l fun u => { u with tenure := none })
  else none

/-- R149: a HELD_BACK channel becomes RUNNING as the other enters IDLE. -/
def Garage.letRun (g : Garage) (c : Chan) : Garage :=
  g.modChan c fun ch => if ch.state = .heldBack then { ch with state := .running } else ch

/-- R148, R155, R156: a channel enters IDLE: B, the level and the mix flag stand no longer (log 23), and its request is
withdrawn; the delivered count is kept. DESIGN CHOICE (log 17): a tenure that the channel still holds for a plan in progress
stays, and its block count and block level stay with it until the block ends (R152), also when the channel is loaded and
started again before that. -/
def Channel.toIdle (ch : Channel) : Channel :=
  { ch with state := .idle, blockLength := 1, level := 0, mix := false, request := none }

/-- R155: a channel whose members have fallen to 0 enters IDLE, with CONVOY_DONE when it had been started. -/
def channelDone (c : Chan) (e : Ev) : Option Ev :=
  let ch := e.g.chan c
  if ch.state ≠ .idle ∧ e.g.members c = 0 then
    let e' := e.modG fun g => (g.modChan c Channel.toIdle).letRun (otherChan c)
    some (if ch.state = .loaded then e'
      else e'.emit ⟨.role .office, Kind.convoyDone, w8 (chanCode c) ++ w16 ch.delivered, .plain⟩)
  else none

/-- R124: the arbiter of a READY lift with no holder and at least one requester. -/
def arbitrate (l : Lift) (e : Ev) : Option Ev :=
  let u := e.g.lift l
  if u.state = .ready ∧ u.tenure = none then (bestBid (e.g.bids l)).map fun b => grant l b e else none

/-- One of two pieces of work, neither of which the manual puts first: the one that there is; where there are both, the
first when `aFirst` says so. -/
def eitherFirst (aFirst : Bool) (a b : Option Ev) : Option Ev :=
  match a, b with
  | some x, some y => if aFirst then some x else some y
  | some x, none => some x
  | none, y => y

/-- The next piece of work that an event has set off: a holder's, then a channel's end, then an arbiter's (log 13). DESIGN
CHOICE: where both lifts have work of one kind, a free value says which is done first (log 12); where both channels end in
one event, R155 does not order their CONVOY_DONE frames, and a free value says which is sent first (log 35). -/
def nextWork (fuel : Nat) (e : Ev) : Option Ev :=
  let aFirst := Config.liftAFirst e.g.seconds fuel
  match eitherFirst aFirst (holderWork .a e) (holderWork .b e) with
  | some x => some x
  | none =>
    match eitherFirst (Config.channel0First e.g.seconds fuel) (channelDone .c0 e) (channelDone .c1 e) with
    | some x => some x
    | none => eitherFirst aFirst (arbitrate .a e) (arbitrate .b e)

/-- The work an event sets off, until none is left; eligibility and requests are determined anew before each piece. -/
def settleWith : Nat → Ev → Ev
  | 0, e => e
  | fuel + 1, e =>
    let e := e.modG Garage.determine
    match nextWork fuel e with
    | some e' => settleWith fuel e'
    | none => e

/-- The work an event sets off once its own effects are complete. -/
def settle (e : Ev) : Ev := settleWith Config.workFuel e

end Sys2Proof.Machine
end

