-- ==== Sys2Proof/Machine/Outcomes.lean ====
section
/-! DEFINITION. The outcomes of moves: completed, undone, left unresolved, resolved (R130, R133, R134, R137 to R142). -/

namespace Sys2Proof.Machine

/-! ### Applying a completion -/

/-- The bay number of a move's end that is a bay. -/
def Location.bayNo : Location → Nat
  | .bay n => n
  | _ => 0

/-- R130 ❶ ❷: a blocker arrives in the bay reserved for it. -/
def Garage.relocated (g : Garage) (m : Move) : Garage :=
  (((g.vacate m.source.bayNo m.ticket).fill m.dest.bayNo m.ticket).modTicket m.ticket fun t =>
    { t with bay := some m.dest.bayNo, location := m.dest, relocations := min (t.relocations + 1) 255 })

/-- R130 ❸: the relocation of a blocker is marked completed in the plan on the lift. -/
def Garage.markRelocated (g : Garage) (l : Lift) (blocker : Nat) : Garage :=
  g.modLift l fun u =>
    { u with
      plan := u.plan.map fun p =>
        { p with relocs := p.relocs.map fun r => if r.blocker = blocker then { r with done := true } else r } }

/-- A target carries the cancel mark. -/
def Garage.cancelMarked (g : Garage) (n : Nat) : Bool := ((g.ticket n).map Ticket.cancelMark).getD false

/-- R116, R130 ❹: the plan on a lift ends when its target carries the cancel mark, and the target becomes PARKED. -/
def Garage.endIfCancelled (g : Garage) (l : Lift) : Garage :=
  match (g.lift l).plan with
  | some p => if g.cancelMarked p.target then (g.endPlan l p).becomeParked p.target else g
  | none => g

/-- R134: a car parked in its bay: the hall is emptied and the request ends; the first parking is marked (R186). -/
def Garage.parked (g : Garage) (l : Lift) (m : Move) : Garage :=
  let now := g.seconds
  ((g.fill m.dest.bayNo m.ticket).modLift l fun u => { u with hall := none, parkRequest := none }).modTicket m.ticket
    fun t =>
      Ticket.measured { t with state := .parked, bay := some m.dest.bayNo, location := m.dest, unresolved := none }
        (Measure.markParked now)

/-- R133, R143: a car joins the tail of the lane; the slot reserved for it is taken up. -/
def Garage.joinLane (g : Garage) (l : Lift) (n : Nat) : Garage :=
  g.modLift l fun u => { u with lane := u.lane ++ [n], reserved := u.reserved - 1 }

/-- R130, R133, R134: the completion of a move is applied, the lift's own state apart. -/
def complete (l : Lift) (m : Move) (e : Ev) : Ev :=
  match m.kind with
  | .relocation => e.modG fun g => ((g.relocated m).markRelocated l m.ticket).endIfCancelled l
  | .final =>
    enterReady m.ticket (.lane l) (e.modG fun g =>
      ((g.vacate m.source.bayNo m.ticket).joinLane l m.ticket).modLift l fun u => { u with plan := none })
  | .park => e.modG fun g => g.parked l m

/-! ### Moves that did not complete -/

/-- The plan on a lift ends and its target goes back (R105), or becomes PARKED when cancelled. -/
def Garage.abandonPlan (g : Garage) (l : Lift) : Garage :=
  match (g.lift l).plan with
  | some p => (g.endPlan l p).returnTarget p.target
  | none => g

/-- R139 ❶: a move undone with the car at its source. A PARK move's ticket returns to ALLOCATED with its bay still
RESERVED for it (R134, log 15). -/
def undo (l : Lift) (m : Move) (e : Ev) : Ev :=
  match m.kind with
  | .park => e.modG fun g => g.modTicket m.ticket fun t => { t with state := .allocated }
  | _ => e.modG fun g => g.abandonPlan l

/-- R140 ❷: the record of a ticket whose car is left in doubt. -/
def Ticket.toCheck (t : Ticket) (l : Lift) (m : Move) : Ticket :=
  Ticket.clearRetrieval { t with state := .check, location := .unknown, bay := none, unresolved := some (l, m) }

/-- R140 ❶ to ❹: the move in flight is left unresolved; the lift's own state apart. -/
def Garage.leaveUnresolved (g : Garage) (l : Lift) (m : Move) : Garage :=
  let g := (g.dequeue m.ticket).modTicket m.ticket fun t => t.toCheck l m
  let g :=
    match m.source with
    | .bay b => g.holdBay b m.ticket
    | _ => g
  let g :=
    match m.kind with
    | .park => g.modLift l fun u => { u with parkRequest := none }
    | .relocation => (g.markRelocated l m.ticket).abandonPlan l
    | .final => g.modLift l fun u => { u with plan := none }
  g.modLift l fun u => { u with unresolved := some m }

/-- The move in flight is no longer in flight and its timer is stopped (R137 to R140, R181). -/
def Garage.takeOutcome (g : Garage) (l : Lift) : Garage :=
  g.modLift l fun u => { u with inFlight := none, moveTimer := none }

/-- A pending service-off takes a stopped lift to OUT and clears the pending (R137, R139, R140). -/
def Garage.takeOff (g : Garage) (l : Lift) : Garage :=
  g.modLift l fun u => if u.offPending then { u with state := .out, offPending := false } else u

/-! ### Reports and expiry for the move in flight -/

/-- The lift's state after a completed move, by its reported readiness (R137). -/
def LiftUnit.readyState (u : LiftUnit) : LiftState := if u.readiness = .ready then .ready else .notReady

/-- R137: the lift leaves MOVING, for OUT when service-off is pending, with the effects of R126. -/
def Garage.leaveMoving (g : Garage) (l : Lift) : Garage :=
  if (g.lift l).offPending then
    (g.stopIdleLift l .out).modLift l fun u => { u with offPending := false }
  else g.modLift l fun u => { u with state := u.readyState }

/-- R137: MOVE_DONE for the move in flight. -/
def moveCompleted (l : Lift) (m : Move) (e : Ev) : Ev :=
  (complete l m (e.modG fun g => (g.takeOutcome l).countMove l)).modG fun g => g.leaveMoving l

/-- R138 ❶: MOVE_REFUSED with NOT_READY for the move in flight. -/
def Garage.refusedNotReady (g : Garage) (l : Lift) (m : Move) : Garage :=
  let g := (g.takeOutcome l).modLift l fun u => { u with readiness := .notReady }
  let g := if m.kind = .park then g.modTicket m.ticket fun t => { t with state := .allocated } else g
  if (g.lift l).offPending then
    (g.stopIdleLift l .out).modLift l fun u => { u with offPending := false }
  else
    let g := g.modLift l fun u => { u with state := .notReady }
    match m.kind with
    | .park => g.modLift l fun u => { u with tenure := some .park, reorder := some m }
    | _ =>
      if g.cancelMarked (m.target.getD 0) then g.endIfCancelled l
      else g.modLift l fun u => { u with tenure := some (u.tenure.getD .plan), reorder := some m }

/-- ALERT LIFT_FAULT (R139, R203). -/
def liftFaultAlert (l : Lift) (m : Move) (code : Nat) (e : Ev) : Ev :=
  e.alert AlertKind.liftFault (w8 (liftCode l) ++ w8 m.number ++ w16 m.ticket ++ w8 code)

/-- R138 ❷, R139, R140 ❶: the lift becomes FAULTED and the fault is counted. -/
def Garage.faultLift (g : Garage) (l : Lift) : Garage := ((g.takeOutcome l).countFault l).stopLift l .faulted

/-- R138 ❷: MOVE_REFUSED with LOCATION_FAULT for the move in flight. -/
def refusedLocation (l : Lift) (m : Move) (e : Ev) : Ev :=
  (undo l m (liftFaultAlert l m locationFaultCode (e.modG fun g => g.faultLift l))).modG fun g => g.takeOff l

/-- R139: MOVE_FAULT for the move in flight. -/
def moveFaulted (l : Lift) (m : Move) (pos : CarPosition) (e : Ev) : Ev :=
  let e := liftFaultAlert l m (carPositionCode pos) (e.modG fun g => g.faultLift l)
  let e :=
    match pos with
    | .atSource => undo l m e
    | .atDestination => (complete l m (e.modG fun g => g.countMove l)).modG fun g => g.abandonPlan l
    | .unknown => e.modG fun g => g.leaveUnresolved l m
  e.modG fun g => g.takeOff l

/-- R140: the move timer expires with the move in flight. -/
def moveTimedOut (l : Lift) (m : Move) (e : Ev) : Ev :=
  ((e.modG fun g => (g.faultLift l).leaveUnresolved l m).alert AlertKind.moveTimeout
      (w8 (liftCode l) ++ w8 m.number ++ w16 m.ticket)).modG fun g => g.takeOff l

/-! ### Resolution (R141, R142) -/

/-- The unresolved move of a lift is cleared and its number kept (R141). -/
def Garage.clearUnresolved (g : Garage) (l : Lift) (m : Move) : Garage :=
  g.modLift l fun u => { u with unresolved := none, lastResolved := some m.number }

/-- A ticket of a resolved move is placed PARKED in a bay (R141, R187). -/
def Ticket.placed (t : Ticket) (b : Nat) : Ticket :=
  Ticket.measured
    (Ticket.clearRetrieval { t with state := .parked, location := .bay b, bay := some b, unresolved := none })
    Measure.clearWait

/-- R141: the unresolved move is placed at its destination, and counts as a move done (R189). -/
def placeAtDestination (l : Lift) (m : Move) (e : Ev) : Ev :=
  let e := e.modG fun g => (g.clearUnresolved l m).countMove l
  match m.kind with
  | .relocation =>
    e.modG fun g =>
      (((g.fill m.dest.bayNo m.ticket).release m.source.bayNo m.ticket).modTicket m.ticket fun t =>
        { t.placed m.dest.bayNo with relocations := min (t.relocations + 1) 255 })
  | .park => e.modG fun g => g.parked l m
  | .final =>
    enterReady m.ticket (.lane l) (e.modG fun g => (g.release m.source.bayNo m.ticket).joinLane l m.ticket)

/-- R141: the unresolved move is placed at its source. A PARK move's bay stays RESERVED, its zone is reported and the
park move is requested anew. DESIGN CHOICE (log 16): as the bay is released and reserved again, R31 ❶ and ❷ do not
apply in between: an OUT_PENDING bay does not become OUT, nor a deeper RETURN_PENDING bay IN_SERVICE. -/
def placeAtSource (l : Lift) (m : Move) (e : Ev) : Ev :=
  e.modG fun g =>
    let g := g.clearUnresolved l m
    match m.kind with
    | .relocation =>
      ((g.fill m.source.bayNo m.ticket).release m.dest.bayNo m.ticket).modTicket m.ticket fun t =>
        t.placed m.source.bayNo
    | .final =>
      ((g.fill m.source.bayNo m.ticket).freeSlot l).modTicket m.ticket fun t => t.placed m.source.bayNo
    | .park =>
      let g := g.modTicket m.ticket fun t =>
        { t with state := .allocated, location := .hall l, bay := some m.dest.bayNo, unresolved := none }
      let g := g.modLift l fun u => { u with parkRequest := some (m.ticket, g.seconds) }
      match g.bay m.dest.bayNo with
      | some b => g.reportBay b
      | none => g

/-! ### Matching a report (R136) -/

/-- What a report is matched against. -/
inductive Match where
  | inFlight (m : Move)
  | unresolved (m : Move)
  | late
  | mismatch
  deriving DecidableEq, Repr

/-- A number equal to the number of a move record, when there is one. -/
def numbered (o : Option Move) (n : Nat) : Option Move :=
  match o with
  | some m => if m.number = n then some m else none
  | none => none

/-- R136: the order in which a report's number is matched. -/
def LiftUnit.matchReport (u : LiftUnit) (n : Nat) : Match :=
  match numbered u.inFlight n with
  | some m => .inFlight m
  | none =>
    match numbered u.unresolved n with
    | some m => .unresolved m
    | none => if u.lastResolved = some n then .late else .mismatch

/-- R136 ❸ ❹: a report discarded, with its alert. -/
def discardReport (l : Lift) (kind : Byte) (number : Nat) (alertKind : Nat) (e : Ev) : Ev :=
  e.alert alertKind (w8 (liftCode l) ++ w8 number ++ [kind])

/-- R120 ❷ to ❹: a lift whose station falls silent, is removed, or whose port is disabled goes OFFLINE when it is READY
or NOT_READY, with the effects of R126. -/
def Garage.loseLift (g : Garage) (l : Lift) : Garage :=
  match (g.lift l).state with
  | .ready => g.stopIdleLift l .offline
  | .notReady => g.stopIdleLift l .offline
  | _ => g

end Sys2Proof.Machine
end

