-- ==== Sys2Proof/Machine/Queues.lean ====
section
/-! DEFINITION. The frame queues of the ports: where a frame goes, what happens when a queue is full, and how the frames
of an event join the queues (R13 to R16, R18). -/

namespace Sys2Proof.Machine

/-! ### Ports -/

/-- A port. -/
def Line.port (ln : Line) : Port → PortState
  | .s => ln.s
  | .g => ln.g

/-- A port changed by `f`. -/
def Line.modPort (ln : Line) (p : Port) (f : PortState → PortState) : Line :=
  match p with
  | .s => { ln with s := f ln.s }
  | .g => { ln with g := f ln.g }

/-- A port of the block. -/
def State.port (s : State) (p : Port) : PortState := s.line.port p

/-- A port of the block changed by `f`. -/
def State.modPort (s : State) (p : Port) (f : PortState → PortState) : State := { s with line := s.line.modPort p f }

/-- A station is in a port's table. -/
def PortState.hasStation (ps : PortState) (n : Nat) : Bool := ps.stations.any fun st => st.number == n

/-- The entry of a station in a port's table. -/
def PortState.station (ps : PortState) (n : Nat) : Option Station := ps.stations.find? fun st => st.number == n

/-- The entry of a station changed by `f`. -/
def PortState.modStation (ps : PortState) (n : Nat) (f : Station → Station) : PortState :=
  { ps with stations := ps.stations.map fun st => if st.number = n then f st else st }

/-- Both ports are in poll hold (R18). -/
def Line.pollHold (ln : Line) : Bool := decide (Config.holdThreshold < ln.s.ownQueue.length)

/-- The port whose table holds a station, when that port is not DISABLED. -/
def Line.reaches (ln : Line) (n : Nat) : Option Port :=
  if ln.s.hasStation n then some .s
  else if ln.g.hasStation n && ln.g.mode != .disabled then some .g
  else none

/-- The station with a role (R3). -/
def Line.stationOfRole (ln : Line) (r : Role) : Option Nat :=
  ((ln.s.stations ++ ln.g.stations).find? fun st => st.role == r).map Station.number

/-! ### Own queues (R13 to R15) -/

/-- A queue without its oldest ALERT. -/
def dropOldestAlert : List QFrame → List QFrame
  | [] => []
  | q :: rest => if q.frame.kind = Kind.alert then rest else q :: dropOldestAlert rest

/-- A queue holds an ALERT. -/
def holdsAlert (qs : List QFrame) : Bool := qs.any fun q => q.frame.kind == Kind.alert

/-- One more on the notice drop tally (R23). -/
def Line.dropNotice (ln : Line) : Line := { ln with noticeDrops := tallyUp ln.noticeDrops }

/-- Whether a frame of a kind would be taken by a port's own queue, in place of an ALERT or not (R14, R15, log 9). -/
def Line.takes (ln : Line) (p : Port) (kind : Byte) : Bool :=
  match p with
  | .s => decide (ln.s.ownQueue.length < Config.ownCapacityS) || holdsAlert ln.s.ownQueue
  | .g =>
    decide (ln.g.ownQueue.length < (if kind = Kind.moveOrder then Config.ownCapacityG else Config.replyRoomG))

/-- A frame placed at the tail of a port's own queue, or lost (R13 to R15, log 9). -/
def Line.enqueue (ln : Line) (p : Port) (q : QFrame) : Line :=
  if ln.takes p q.frame.kind then
    match p with
    | .s =>
      if ln.s.ownQueue.length < Config.ownCapacityS then
        { ln with s := { ln.s with ownQueue := ln.s.ownQueue ++ [q] } }
      else
        Line.dropNotice { ln with s := { ln.s with ownQueue := dropOldestAlert ln.s.ownQueue ++ [q] } }
    | .g => { ln with g := { ln.g with ownQueue := ln.g.ownQueue ++ [q] } }
  else ln.dropNotice

/-- A frame that the part originates, MORE clear (R191). -/
def originated (dest : Nat) (kind : Byte) (payload : List Byte) : Frame :=
  ⟨BitVec.ofNat 8 dest, 127, kind, 0, payload⟩

/-- A frame for a station by its number, discarded when no enabled port serves it (R13). -/
def Line.sendTo (ln : Line) (n : Nat) (o : Out) : Line :=
  match ln.reaches n with
  | some p => ln.enqueue p ⟨originated n o.kind o.payload, o.mark⟩
  | none => ln.dropNotice

/-- One originated frame joins its queue (R13). -/
def Line.queueOut (ln : Line) (o : Out) : Line :=
  match o.dest with
  | .reply p n => ln.enqueue p ⟨originated n o.kind o.payload, o.mark⟩
  | .station n => ln.sendTo n o
  | .role r =>
    match ln.stationOfRole r with
    | some n => ln.sendTo n o
    | none => ln.dropNotice

/-- An event's effects on the blocks behind the ports, whose frames then join the queues in their order (log 31). -/
def State.run (s : State) (f : Ev → Ev) : State :=
  let e := f ⟨s.garage, []⟩
  { s with garage := e.g, line := e.out.foldl Line.queueOut s.line }

/-! ### Transit queues (R16) -/

/-- A frame in transit joins a port's transit queue, or is dropped with that port's transit drop tally. -/
def PortState.passOn (ps : PortState) (f : Frame) : PortState :=
  if ps.transitQueue.length < Config.transitCapacity then { ps with transitQueue := ps.transitQueue ++ [f] }
  else { ps with dropTally := tallyUp ps.dropTally }

end Sys2Proof.Machine
end

