-- ==== Sys2Proof/Machine/Polling.lean ====
section
/-! DEFINITION. Polling, the transmit arbiter, the end of an exchange, and the poll states of stations (R5 to R8, R10,
R17, R18, R120). -/

namespace Sys2Proof.Machine

/-! ### The transmit arbiter (R17) -/

/-- The frame the transmit arbiter chooses, with the port after it has left its queue. -/
def PortState.chooseFrame (ps : PortState) : Option (QFrame × PortState) :=
  match ps.ownQueue, ps.transitQueue with
  | [], [] => none
  | [], t :: rest => some (⟨t, .plain⟩, { ps with transitQueue := rest, passOver := 0 })
  | q :: own, [] => some (q, { ps with ownQueue := own })
  | q :: own, t :: rest =>
    if 2 ≤ ps.passOver then some (⟨t, .plain⟩, { ps with transitQueue := rest, passOver := 0 })
    else some (q, { ps with ownQueue := own, passOver := ps.passOver + 1 })

/-- Whether a port may begin to send: it is RUNNING, sends nothing, and awaits no answer. -/
def PortState.canSend (ps : PortState) : Bool := ps.mode == .running && ps.sending == none && !ps.awaiting

/-- A port begins its next frame when its turn, or poll hold, lets it (R17). -/
def PortState.sendNext (hold : Bool) (ps : PortState) : PortState :=
  if ps.canSend && (hold || decide (0 < ps.turnLeft)) then
    match ps.chooseFrame with
    | none => { ps with turnLeft := 0 }
    | some (q, ps') =>
      { ps' with sending := some q, breakDue := false, turnLeft := if hold then 0 else ps.turnLeft - 1 }
  else ps

/-! ### Visits (R5, R6) -/

/-- The poll position moved on from the last entry to the first ends the cycle (R5). -/
def PortState.advance (ps : PortState) : PortState :=
  if ps.pollPos + 1 < ps.stations.length then { ps with pollPos := ps.pollPos + 1 }
  else { ps with pollPos := 0, cyclePolled := false }

/-- A visit ends; the poll position advances when it still points at the visited station. The removal of that station has
moved the position on already, though the station may have been loaded again since (R4, R6). -/
def PortState.endVisit (ps : PortState) : PortState :=
  match ps.visit with
  | none => ps
  | some v =>
    let ps' := { ps with visit := none }
    if v.removed = false ∧ (ps.stations[ps.pollPos]?.map Station.number) = some v.station then ps'.advance else ps'

/-- Poll hold ends a visit, at once or with the exchange in progress (R18). -/
def PortState.cutVisit (ps : PortState) : PortState :=
  match ps.visit with
  | none => ps
  | some v => if ps.awaiting then { ps with visit := some { v with cut := true } } else ps.endVisit

/-- Poll hold begins on a port: its visit ends, and its send turn with it (R6, R18). -/
def PortState.enterHold (ps : PortState) : PortState := { ps.cutVisit with turnLeft := 0 }

/-- While poll hold lasts, no visit and no send turn goes on on either port (R18). -/
def State.enterHold (s : State) : State :=
  if s.line.pollHold then (s.modPort .s PortState.enterHold).modPort .g PortState.enterHold else s

/-- A port begins its next frame. A hold that stands before the frame leaves its queue has cut the visits and the turns of
both ports, though the frame's leaving may end it (R6, R18, log 32). -/
def State.sendNext (s : State) (p : Port) : State :=
  s.enterHold.modPort p fun ps => ps.sendNext s.line.pollHold

/-- A send turn: up to two frames (R17). -/
def State.beginTurn (s : State) (p : Port) : State :=
  (s.modPort p fun ps => { ps with turnLeft := 2 }).sendNext p

/-! ### Polls (R5, R8) -/

/-- POLL for a station: the station's number as destination, 127 as source, no payload (R5, R195). -/
def pollFrame (station : Nat) : Frame := originated station Kind.poll []

/-- A visit to a station whose first exchange begins. -/
def Visit.first (station : Nat) : Visit := ⟨station, 1, false, pollFrame station, false⟩

/-- An exchange begins: POLL is sent and the response window runs (R5). -/
def PortState.beginExchange (ps : PortState) (v : Visit) : PortState :=
  { ps with
    visit := some { v with poll := pollFrame v.station }
    awaiting := true
    turnLeft := 0
    breakDue := false }

/-- R5, R8: the next station is sought from the poll position. SILENT stations with a skip count below 3 are passed
over. The second part says whether a station was found and polled; when it is false, the cycle has ended with no
station polled. -/
def PortState.seek : Nat → PortState → PortState × Bool
  | 0, ps => (ps, false)
  | fuel + 1, ps =>
    match ps.stations[ps.pollPos]? with
    | none => ({ ps with pollPos := 0, cyclePolled := false }, false)
    | some st =>
      if st.poll = .silent ∧ st.skips < 3 then
        let ps' := ps.modStation st.number fun st => { st with skips := st.skips + 1 }
        if ps.pollPos + 1 < ps.stations.length ∨ ps.cyclePolled = true then PortState.seek fuel ps'.advance
        else (ps'.advance, false)
      else
        ((ps.modStation st.number fun st => { st with skips := if st.poll = .silent then 0 else st.skips }).beginExchange
            (Visit.first st.number) |> fun ps' => { ps' with cyclePolled := true }, true)

/-- R5: a RUNNING port that is not in poll hold, sends nothing and awaits nothing polls the station whose visit goes on,
or the next in poll order. A cycle in which no station was polled is followed by a send turn. -/
def State.pollNext (s : State) (p : Port) : State :=
  let ps := s.port p
  if ps.canSend && !s.line.pollHold then
    match ps.visit with
    | some v => s.modPort p fun ps => ps.beginExchange { v with exchanges := v.exchanges + 1 }
    | none =>
      let (ps', polled) := ps.seek (2 * ps.stations.length + 1)
      let s := s.modPort p fun _ => ps'
      if polled then s else s.beginTurn p
  else s

/-! ### Poll states (R8, R120) -/

/-- R120 ❶ ❸: the lift unit of a station that has answered. -/
def LiftUnit.answered (u : LiftUnit) (back accepted : Bool) : LiftUnit :=
  if u.state = .offline then
    (if back || accepted then { u with state := .notReady, readiness := .none } else u)
  else if back then { u with readiness := .none }
  else u

/-- R8, R120: a station has answered. A SILENT station becomes ACTIVE with ALERT STATION_BACK; `accepted` says whether
the answer is an accepted one. -/
def State.heard (s : State) (p : Port) (st : Station) (accepted : Bool) : State :=
  let back := st.poll == .silent
  let s := s.modPort p fun ps => ps.modStation st.number fun st =>
    { st with misses := 0, poll := .active, skips := if back then 0 else st.skips }
  s.run fun e =>
    let e := if back then e.alert AlertKind.stationBack (w8 (portCode p) ++ w8 st.number) else e
    match roleLift st.role with
    | some l => e.modG fun g => g.modLift l fun u => u.answered back accepted
    | none => e

/-- R8, R120 ❷: a miss is charged to a station. The third miss of an ACTIVE station makes it SILENT. -/
def State.chargeMiss (s : State) (p : Port) (st : Station) : State :=
  if st.poll = .silent then s
  else if st.misses + 1 < 3 then
    s.modPort p fun ps => ps.modStation st.number fun st => { st with misses := st.misses + 1 }
  else
    (s.modPort p fun ps => ps.modStation st.number fun st => { st with misses := 3, poll := .silent, skips := 0 }).run
      fun e =>
        let e := e.alert AlertKind.stationSilent (w8 (portCode p) ++ w8 st.number)
        match roleLift st.role with
        | some l => settle (e.modG fun g => g.loseLift l)
        | none => e

/-! ### Line settings taking effect (R22) -/

/-- Every station ACTIVE with all counts 0 (R22, R25). -/
def PortState.refresh (ps : PortState) : PortState :=
  { ps with
    stations := ps.stations.map fun st => { st with poll := .active, misses := 0, skips := 0 }
    pollPos := 0
    cyclePolled := false
    turnLeft := 0
    passOver := 0 }

/-- R22: Port G becomes DISABLED: its queues are emptied into the tallies. -/
def Line.disableG (ln : Line) : Line :=
  { ln with
    g := { ln.g with
      mode := .disabled
      visit := none
      awaiting := false
      sending := none
      turnLeft := 0
      ownQueue := []
      transitQueue := []
      dropTally := tallyAdd ln.g.dropTally ln.g.transitQueue.length }
    noticeDrops := tallyAdd ln.noticeDrops ln.g.ownQueue.length }

/-- R22, R120 ❹: the settings of one SET_LINE take effect. -/
def State.applyLine (s : State) (r : LineRequest) : State :=
  let s := s.modPort r.port fun ps => { ps with settings := r.settings }
  match r.port with
  | .s => s
  | .g =>
    if r.enable then
      if s.line.g.mode = .disabled then s.modPort .g fun ps => { ps.refresh with mode := .running } else s
    else if s.line.g.mode = .disabled then s
    else
      State.run { s with line := s.line.disableG } fun e =>
        settle (e.modG fun g => (g.loseLift .a).loseLift .b)

/-- An exchange or a frame is in progress on a port. -/
def PortState.busy (ps : PortState) : Bool := ps.awaiting || ps.sending != none

/-- R22: the reply to a SET_LINE has been sent, or cannot be queued. Settings for Port S take effect now, those for
Port G at the end of its exchange or frame in progress. -/
def State.lineRequestDue (s : State) (r : LineRequest) : State :=
  if r.port = .g && s.line.g.busy then { s with line := { s.line with lineDueG := s.line.lineDueG ++ [r] } }
  else s.applyLine r

/-- R22: the Port G settings that waited for the end of its exchange or frame take effect, in their order. -/
def State.applyDue (s : State) (p : Port) : State :=
  match p with
  | .s => s
  | .g => s.line.lineDueG.foldl State.applyLine { s with line := { s.line with lineDueG := [] } }

/-! ### The end of an exchange (R5, R6, R17) -/

/-- Whether a visit goes on after an exchange with an accepted data frame that carries MORE (R6); the visit to a removed
station does not (R4). -/
def PortState.goesOn (ps : PortState) (hold : Bool) (v : Visit) : Bool :=
  decide (v.exchanges < 4) && !v.cut && !v.removed && !hold && ps.mode == .running && ps.hasStation v.station

/-- An exchange ends: the visit goes on or ends, and the port takes its send turn. -/
def State.finishExchange (s : State) (p : Port) (more : Bool) : State :=
  let ps := s.port p
  if ps.awaiting then
    let again :=
      match ps.visit with
      | some v => more && ps.goesOn s.line.pollHold v
      | none => false
    let s := s.modPort p fun ps =>
      let ps := { ps with awaiting := false }
      if again then ps else ps.endVisit
    (s.applyDue p).beginTurn p
  else s

/-- The polled station of the exchange in progress on a port. There is none once it has been removed from the table, though
it may have been loaded again during the exchange (R4). -/
def PortState.polled (ps : PortState) : Option Station :=
  match ps.visit with
  | some v => if ps.awaiting && !v.removed then ps.station v.station else none
  | none => none

/-! ### After an event -/

/-- Poll hold cuts the visits and lets both ports send without turns (R17, R18, log 32). -/
def State.underHold (s : State) : State := if s.line.pollHold then (s.sendNext .s).sendNext .g else s

end Sys2Proof.Machine
end

