-- ==== Sys2Proof/Machine/Start.lean ====
section
/-! DEFINITION. Cold start, warm start, power, the tick and the expiries of timers (chapter 10, R25, R44 to R46, R81, R82,
R97, R117, R144, R159, R175, R183). -/

namespace Sys2Proof.Machine

/-! ### Warm start: the ports (R25) -/

/-- A port after a warm start: settings and stations kept, stations ACTIVE, queues and tallies cleared. A port that was
not DISABLED is RUNNING with its break to send (log 10, 11). -/
def PortState.warm (ps : PortState) : PortState :=
  { ps.refresh with
    mode := if ps.mode = .disabled then .disabled else .running
    visit := none
    awaiting := false
    sending := none
    breakDue := ps.mode != .disabled
    ownQueue := []
    transitQueue := []
    faultTally := 0
    dropTally := 0 }

/-- Both ports after a warm start; the pass table is kept. -/
def Line.warm (ln : Line) : Line :=
  { s := ln.s.warm, g := ln.g.warm, passTable := ln.passTable, noticeDrops := 0, lineDueG := [] }

/-! ### Warm start: tickets, bays and lifts (R46, R81, R82, R144) -/

/-- A ticket whose loss of a retrieval QUEUE_LOST counts (R81). -/
def Ticket.inRetrieval (t : Ticket) : Bool := t.state == .queued || t.state == .held || t.state == .retrieving

/-- R81: a ticket with no move of its car in flight. -/
def Ticket.warm (t : Ticket) : Ticket :=
  if t.inRetrieval then (Ticket.clearRetrieval { t with state := .parked }).measured Measure.clearWait
  else { t with runner := none }

/-- R81, R46 ❶: the move in flight of a lift is left unresolved: its ticket goes to CHECK and its source bay is held. -/
def Garage.warmMove (g : Garage) (l : Lift) : Garage :=
  match (g.lift l).inFlight with
  | none => g
  | some m =>
    let g := g.modTicket m.ticket fun t => t.toCheck l m
    match m.source with
    | .bay b => g.holdBay b m.ticket
    | _ => g

/-- R46 ❷: a reservation for this ticket stands. -/
def Garage.standsReserved (g : Garage) (n : Nat) : Bool :=
  match g.ticket n with
  | some t => t.state == .allocated || t.state == .check
  | none => false

/-- R46 ❸: every other reservation is released, in increasing bay number. -/
def Garage.releaseLost (g : Garage) : Garage :=
  g.bayRecs.foldl
    (fun g' kv =>
      match kv.2.occ with
      | .reserved n => if g.standsReserved n then g' else g'.release kv.1 n
      | _ => g') g

/-- R33: the slots of a lane held for unresolved moves. -/
def Garage.heldSlots (g : Garage) (l : Lift) : Nat :=
  g.tickets.count fun t =>
    t.state == .check &&
      match t.unresolved with
      | some (_, m) => m.dest == .lane l
      | none => false

/-- R144: the state of a lift after a warm start. A FAULTED lift with an unresolved move whose service flag is off fits two
rows of the table: it stays FAULTED (DESIGN CHOICE, log 33). -/
def LiftUnit.warmState (u : LiftUnit) : LiftState :=
  if u.inFlight.isSome then .faulted
  else if u.state = .faulted ∧ u.unresolved.isSome = true then .faulted
  else if !u.serviceOn then .out
  else .offline

/-- R144: a lift unit after a warm start, but for its park request and its reserved slots. -/
def LiftUnit.warm (u : LiftUnit) : LiftUnit :=
  { u with
    state := u.warmState
    offPending := false
    readiness := .none
    tenure := none
    plan := none
    waiting := []
    inFlight := none
    reorder := none
    unresolved := if u.inFlight.isSome then u.inFlight else u.unresolved
    parkRequest := none
    moveTimer := none }

/-- R82: a park move request made anew for an ALLOCATED ticket that the hall names. -/
def Garage.parkAnew (g : Garage) (u : LiftUnit) : Option (Nat × Nat) :=
  match u.hall with
  | some (_, n) => if (g.ticket n).map Ticket.state = some .allocated then some (n, g.seconds) else none
  | none => none

/-- The READY tickets in ready order (R175). -/
def Garage.readyWaiting (g : Garage) : List Nat :=
  g.readyOrder.filter fun n => (g.ticket n).map Ticket.state == some .ready

/-- R82: READY and OUTBOUND tickets renumbered from 1, and the counter set. -/
def Garage.renumberReady (g : Garage) : Garage :=
  { Garage.renumber g (fun k t => { t with readySeq := some k }) 1 g.readyOrder with
    readyCounter := g.readyOrder.length + 1 }

/-- Every block behind the ports after a warm start. -/
def Garage.warm (g : Garage) : Garage :=
  let g := (g.warmMove .a).warmMove .b
  let g := { g with tickets := g.tickets.mapAll Ticket.warm }
  let g := g.releaseLost.renumberReady
  let g := { g with liftA := g.liftA.warm, liftB := g.liftB.warm }
  { g with
    liftA := { g.liftA with parkRequest := g.parkAnew g.liftA, reserved := g.heldSlots .a }
    liftB := { g.liftB with parkRequest := g.parkAnew g.liftB, reserved := g.heldSlots .b }
    queue := []
    requestCounter := 1
    chan0 := Channel.reset
    chan1 := Channel.reset
    runners := resetRunners
    freeList := []
    waitList := g.readyWaiting
    secsIntoMinute := 0 }

/-- R97: HOOK_OPEN anew for a hook that is RELEASED. -/
def reopenHook (kv : Nat × Hook) : Option Out :=
  if kv.2.state = .released then some (hookOpenFrame kv.1 (orZero kv.2.ticket) (orZero kv.2.tag)) else none

/-- The warm start of the blocks behind the ports with its frames: QUEUE_LOST when its count is not 0, then HOOK_OPEN
for every RELEASED hook in increasing number (R81, R97). -/
def warmEffects (e : Ev) : Ev :=
  let lost := e.g.tickets.count Ticket.inRetrieval
  let e := e.modG Garage.warm
  let e := if lost = 0 then e else e.alert AlertKind.queueLost (w16 lost)
  (e.g.hooks.filterMap reopenHook).foldl Ev.emit e

/-- A warm start (R44, R45). -/
def State.warmStart (s : State) : State := State.run { s with line := s.line.warm } warmEffects

/-- A cold start (R45): every block takes its reset values; the commands that wait are the sender's. -/
def State.coldStart (s : State) : State := { State.reset with pending := s.pending }

/-! ### Every command goes through here -/

/-- A command's effect on a powered part, then what poll hold brings about; a part without power does nothing (log 2). -/
def State.react (s : State) (f : State → State) : Host.Outcome State Fault Refusal :=
  .next (if s.powered then (f s).underHold else s)

/-! ### Power (R45) -/

/-- POWER_LOSS (R45): power fails; `held` says whether the store's supply holds (log 3). -/
def execPowerLoss (held : Bool) (s : State) : Host.Outcome State Fault Refusal :=
  .next { s with powered := false, storeHeld := s.storeHeld && held }

/-- POWER_UP (R45): a warm start when the store was held and its check agrees, else a cold start. -/
def execPowerUp (checkAgrees : Bool) (s : State) : Host.Outcome State Fault Refusal :=
  if s.powered then .next s
  else if s.storeHeld && checkAgrees then .next (State.warmStart { s with powered := true, storeHeld := true }).underHold
  else .next s.coldStart

/-- WARM_START (R44): the warm start begins (log 4). -/
def execWarmStart (s : State) : Host.Outcome State Fault Refusal := s.react State.warmStart

/-! ### Timers (R179 to R182) -/

/-- A timer whose expiry is due: a lift's move timer, a runner's pickup timer, a ticket's hold timer (R180). -/
inductive Due where
  | move (l : Lift)
  | pickup (runner : Nat)
  | hold (ticket : Nat)
  deriving DecidableEq, Repr

/-- The remaining count of a timer, when it is counting. -/
def Garage.remaining (g : Garage) : Due → Option Nat
  | .move l => (g.lift l).moveTimer
  | .pickup r => (g.runners.find r).bind Runner.timer
  | .hold n => (g.ticket n).bind Ticket.holdTimer

/-- R181, R140: a lift's move timer expires: a one-shot timer, it stops, and leaves a move in flight unresolved. -/
def moveExpires (l : Lift) (e : Ev) : Ev :=
  match (e.g.lift l).inFlight with
  | some m => settle (moveTimedOut l m e)
  | none => e.modG fun g => g.modLift l fun u => { u with moveTimer := none }

/-- R167: a runner's pickup timer expires: RUNNER_LATE, and the timer reloads. -/
def pickupExpires (r : Nat) (e : Ev) : Ev :=
  let n := (e.g.runner r).ticket
  let loc := match n.bind e.g.ticket with
    | some t => locationCode t.location
    | none => absentCode
  (e.modG fun g => g.modRunner r fun k => { k with timer := some g.pickupPeriod }).alert AlertKind.runnerLate
    (w8 r ++ w16 (orZero n) ++ w8 loc)

/-- R182: a ticket's hold timer expires: HOLD_LONG, and the timer reloads. -/
def holdExpires (n : Nat) (e : Ev) : Ev :=
  (e.modG fun g => g.modTicket n fun t => { t with holdTimer := some g.holdPeriod }).alert AlertKind.holdLong
    (w16 n ++ w16 (orFFFF ((e.g.ticket n).bind Ticket.bay)))

/-- The expiry of a timer, an event of its owner (R179). -/
def expires : Due → Ev → Ev
  | .move l => moveExpires l
  | .pickup r => pickupExpires r
  | .hold n => holdExpires n

/-- The expiry of a timer that stands at 0; a timer that is stopped, or still counts, does not expire. -/
def State.expire (s : State) (d : Due) : State :=
  if s.garage.remaining d = some 0 then s.run (expires d) else s

/-- Expiries one after another, each an event of its own; one that an earlier one has stopped does not happen. -/
def State.expireAll (s : State) (ds : List Due) : State := ds.foldl (fun s d => (s.expire d).underHold) s

/-! ### The tick (R176, R177, R179, R189) -/

/-- One tick of a timer: a counting timer is lowered by one. -/
def tickTimer (t : Option Nat) : Option Nat := t.map fun n => n - 1

/-- One tick of a lift unit: its move timer, and its busy seconds while MOVING. -/
def LiftUnit.tick (u : LiftUnit) (measuring : Bool) : LiftUnit :=
  { u with
    moveTimer := tickTimer u.moveTimer
    busySeconds :=
      if measuring && u.state == .moving then (u.busySeconds + 1) % (Config.max32 + 1) else u.busySeconds }

/-- The tick's own effects: the counts of time and every counting timer. -/
def Garage.tick (g : Garage) : Garage :=
  { g with
    seconds := min (g.seconds + 1) Config.max32
    minute := if g.secsIntoMinute + 1 = 60 then min (g.minute + 1) Config.max32 else g.minute
    secsIntoMinute := if g.secsIntoMinute + 1 = 60 then 0 else g.secsIntoMinute + 1
    liftA := g.liftA.tick g.measuring
    liftB := g.liftB.tick g.measuring
    tickets := g.tickets.mapAll fun t => { t with holdTimer := tickTimer t.holdTimer }
    runners := g.runners.mapAll fun r => { r with timer := tickTimer r.timer } }

/-- The place of a timer in the order in which one tick's expiries are taken: a free value (log 24). -/
def Due.rank (now : Nat) : Due → Nat
  | .move .a => Config.expiryRank now 0 0
  | .move .b => Config.expiryRank now 0 1
  | .pickup r => Config.expiryRank now 1 r
  | .hold n => Config.expiryRank now 2 n

/-- Every timer there is. -/
def Garage.timers (g : Garage) : List Due :=
  [.move .a, .move .b] ++ g.runners.map (fun kv => .pickup kv.1) ++ g.tickets.map fun kv => .hold kv.1

/-- The timers that stand at 0: the tick has brought them to their expiry (R179). -/
def Garage.due (g : Garage) : List Due := g.timers.filter fun d => g.remaining d == some 0

/-- The timers that stand at 0, in the order in which the tick takes their expiries (log 24). -/
def Garage.dueOrder (g : Garage) : List Due := sortBy (Due.rank g.seconds) g.due

/-- The block when the tick has lowered its counts, before any expiry. -/
def State.ticked (s : State) : State := { s with garage := s.garage.tick }

/-- TICK (R176, R179): the tick's own effects, then the expiry of every timer that it brings to 0. -/
def execTick (s : State) : Host.Outcome State Fault Refusal :=
  s.react fun s => s.ticked.expireAll s.ticked.garage.dueOrder

/-! ### Expiries (R140, R167, R179, R182) -/

/-- The tick that is a timer's expiry (R179): the whole tick, with that timer's expiry taken before the others that are
due. A timer that the next tick does not bring to 0 has no expiry, and nothing happens (log 24). -/
def State.tickExpiring (d : Due) (s : State) : State :=
  if s.ticked.garage.remaining d = some 0 then s.ticked.expireAll (d :: s.ticked.garage.dueOrder.filter (· ≠ d)) else s

/-- MOVE_TIMER_EXPIRY (R140): the tick that brings a lift's move timer to 0. -/
def execMoveTimerExpiry (l : Lift) (s : State) : Host.Outcome State Fault Refusal := s.react (State.tickExpiring (.move l))

/-- PICKUP_TIMER_EXPIRY (R167): the tick that brings a runner's pickup timer to 0. -/
def execPickupTimerExpiry (r : Nat) (s : State) : Host.Outcome State Fault Refusal :=
  s.react (State.tickExpiring (.pickup r))

/-- HOLD_TIMER_EXPIRY (R182): the tick that brings a ticket's hold timer to 0. -/
def execHoldTimerExpiry (n : Nat) (s : State) : Host.Outcome State Fault Refusal := s.react (State.tickExpiring (.hold n))

end Sys2Proof.Machine
end

