-- ==== Sys2Proof/Machine/LineEvents.lean ====
section
/-! DEFINITION. The events of the lines: polls, misses, answers that carry nothing to the part, breaks, transmissions that
end, frames in transit (R5 to R12, R17, R19, R22). -/

namespace Sys2Proof.Machine

/-! ### The end of a transmission (R17, R22, R44, R181) -/

/-- R181: a lift's move timer starts for the move number that its MOVE_ORDER carried, when that move is in flight (log
25). -/
def Garage.startMoveTimer (g : Garage) (l : Lift) (number : Nat) : Garage :=
  g.modLift l fun u =>
    if (u.inFlight.map Move.number) = some number then { u with moveTimer := some g.movePeriod } else u

/-- What the end of a frame's transmission brings about. -/
def State.applyMark (s : State) (m : Mark) : State :=
  match m with
  | .plain => s
  | .restartReply => s.warmStart
  | .lineReply r => s.lineRequestDue r
  | .moveOrder l n => { s with garage := s.garage.startMoveTimer l n }

/-- R17: the transmission of the frame being sent ends, and the port's arbiter chooses the next. -/
def State.endTransmission (s : State) (p : Port) : State :=
  match (s.port p).sending with
  | none => s
  | some q =>
    let s := s.modPort p fun ps => { ps with sending := none }
    ((s.applyMark q.mark).applyDue p).sendNext p

/-- FRAME_SENT (R17). -/
def execFrameSent (p : Port) (s : State) : Host.Outcome State Fault Refusal := s.react fun s => s.endTransmission p

/-- The mark of the frame being sent is that of a MOVE_ORDER of a lift. -/
def Mark.isOrderOf (l : Lift) : Mark → Bool
  | .moveOrder k _ => k == l
  | _ => false

/-- MOVE_ORDER_SENT (R181): the last character of that lift's MOVE_ORDER has been sent (log 4). -/
def execMoveOrderSent (l : Lift) (s : State) : Host.Outcome State Fault Refusal :=
  s.react fun s =>
    match s.line.g.sending with
    | some q => if q.mark.isOrderOf l then s.endTransmission .g else s
    | none => s

/-- The mark of the frame being sent is that of a SET_LINE reply for a port. -/
def Mark.isLineReplyFor (p : Port) : Mark → Bool
  | .lineReply r => r.port == p
  | _ => false

/-- LINE_SETTINGS_TAKE_EFFECT (R22): the last character of the SET_LINE reply for that port has been sent; or, for Port G,
its exchange or frame has ended with settings waiting (log 4). -/
def execLineSettingsTakeEffect (p : Port) (s : State) : Host.Outcome State Fault Refusal :=
  s.react fun s =>
    match s.line.s.sending with
    | some q =>
      if q.mark.isLineReplyFor p then s.endTransmission .s
      else if p = .g && !s.line.g.busy then s.applyDue .g
      else s
    | none => if p = .g && !s.line.g.busy then s.applyDue .g else s

/-! ### Polls and answers (R5 to R11) -/

/-- POLL (R5). -/
def execPoll (p : Port) (s : State) : Host.Outcome State Fault Refusal := s.react fun s => s.pollNext p

/-- What an exchange that ends does, by the polled station; the answer of a station removed during the exchange, be it
loaded again or not, is discarded without any tally, and so is its miss (R4). -/
def State.endExchange (s : State) (p : Port) (f : Station → State → State) : State :=
  if (s.port p).awaiting then
    (match (s.port p).polled with
      | some st => f st s
      | none => s).finishExchange p false
  else s

/-- MISS (R8). -/
def execMiss (p : Port) (s : State) : Host.Outcome State Fault Refusal :=
  s.react fun s => s.endExchange p fun st s => s.chargeMiss p st

/-- EMPTY (R6). -/
def execEmpty (p : Port) (s : State) : Host.Outcome State Fault Refusal :=
  s.react fun s => s.endExchange p fun st s => s.heard p st true

/-- One more on a port's fault tally (R10, R23). -/
def State.tallyFault (s : State) (p : Port) : State :=
  s.modPort p fun ps => { ps with faultTally := tallyUp ps.faultTally }

/-- R10, R11: an answer discarded for its receive checks counts as an answer. -/
def State.discardAnswer (s : State) (p : Port) (st : Station) : State := (s.tallyFault p).heard p st false

/-- FRAME_DISCARDED (R10). -/
def execFrameDiscarded (p : Port) (s : State) : Host.Outcome State Fault Refusal :=
  s.react fun s => s.endExchange p fun st s => s.discardAnswer p st

/-- IDLE_TIME_END (R11): the same effects as R10. -/
def execIdleTimeEnd (p : Port) (s : State) : Host.Outcome State Fault Refusal :=
  s.react fun s => s.endExchange p fun st s => s.discardAnswer p st

/-- SOURCE_MISMATCH (R7): the fault tally, and a miss for the polled station. -/
def execSourceMismatch (p : Port) (s : State) : Host.Outcome State Fault Refusal :=
  s.react fun s => s.endExchange p fun st s => (s.tallyFault p).chargeMiss p st

/-! ### Breaks (R12) -/

/-- R17, R135: the frame being sent is lost as its port enters LINE_FAULT. A MOVE_ORDER so lost starts its timer; a lost
reply takes its settings or its restart with it (log 8). -/
def State.loseSending (s : State) (p : Port) : State :=
  let s' := s.modPort p fun ps => { ps with sending := none }
  match (s.port p).sending with
  | some ⟨_, .moveOrder l n⟩ => { s' with garage := s'.garage.startMoveTimer l n }
  | _ => s'

/-- R12: a RUNNING port detects a break. -/
def State.breakLine (s : State) (p : Port) : State :=
  let s := (s.loseSending p).modPort p fun ps =>
    { PortState.endVisit { ps with awaiting := false } with mode := .lineFault, turnLeft := 0 }
  (s.run fun e => e.alert AlertKind.lineBreak (w8 (portCode p))).applyDue p

/-- LINE_BREAK (R12): a break on a port in LINE_FAULT queues no second alert; a DISABLED port detects none (log 7). -/
def execLineBreak (p : Port) (s : State) : Host.Outcome State Fault Refusal :=
  s.react fun s => if (s.port p).mode = .running then s.breakLine p else s

/-- LINE_RETURN (R12): the port is RUNNING again and takes a send turn. -/
def execLineReturn (p : Port) (s : State) : Host.Outcome State Fault Refusal :=
  s.react fun s =>
    if (s.port p).mode = .lineFault then (s.modPort p fun ps => { ps with mode := .running }).beginTurn p else s

/-! ### Frames in transit (R19) -/

/-- R19 ❷: an entry of the pass table matches a frame. -/
def PassEntry.covers (en : PassEntry) (source dest kind : Nat) : Bool :=
  (en.source.all fun n => n == source) && en.dest == dest && decide (en.low ≤ kind) && decide (kind ≤ en.high)

/-- R19 ❸: whether an action passes a frame now; `none` means it is gated. -/
def Garage.passes (g : Garage) : PassAction → Option Bool
  | .pass => some true
  | .drop => some false
  | .gateA => if g.liftA.state = .out then some true else none
  | .gateB => if g.liftB.state = .out then some true else none

/-- R19: an accepted data frame of a station, addressed to another, is routed. -/
def State.route (s : State) (p : Port) (source : Nat) (f : Frame) : State :=
  match s.line.reaches f.dest.toNat with
  | none => s.modPort p fun ps => { ps with dropTally := tallyUp ps.dropTally }
  | some q =>
    match s.line.passTable.find? fun en => en.covers source f.dest.toNat f.kind.toNat with
    | none => s
    | some en =>
      match s.garage.passes en.action with
      | some true => s.modPort q fun ps => ps.passOn f
      | some false => s
      | none => s.run fun e => e.alert AlertKind.passGated (w8 source ++ [f.dest] ++ [f.kind])

/-! ### Frames that end an exchange with data -/

/-- A data frame of the polled station ends its exchange: a payload of more than 48 characters ends it as R11 gives (log
6); the answer of a station removed during the exchange is discarded (R4); otherwise the station is heard and `f` acts on
the frame. -/
def State.dataFrame (s : State) (p : Port) (flags : Byte) (payload : List Byte) (f : Station → State → State) : State :=
  if (s.port p).awaiting then
    match (s.port p).polled with
    | none => s.finishExchange p false
    | some st =>
      if 48 < payload.length then (s.discardAnswer p st).finishExchange p false
      else (f st (s.heard p st true)).finishExchange p (moreFlag flags)
  else s

/-- TRANSIT (R19). -/
def execTransit (p : Port) (f : Frame) (s : State) : Host.Outcome State Fault Refusal :=
  s.react fun s => s.dataFrame p f.flags f.payload fun st s => s.route p st.number f

end Sys2Proof.Machine
end

