-- ==== Sys2Proof/Machine/Receive.lean ====
section
/-! DEFINITION. The gates through which every frame to the part goes: role, mode and length (R21, R34, R197). -/

namespace Sys2Proof.Machine

/-- What the block that owns a kind does with a frame that has passed the gates. -/
abbrev Body := Caller → List Byte → State → State

/-- A body that changes the blocks behind the ports by one event. -/
def evBody (f : Caller → List Byte → Ev → Ev) : Body := fun c pl s => s.run fun e => f c pl e

/-- A body whose effects may leave work for the lifts. -/
def workBody (f : Caller → List Byte → Ev → Ev) : Body := fun c pl s => s.run fun e => settle (f c pl e)

/-- R34, R198: the answer to a kind refused by the mode: no detail, but check 0 and record 0 for ENTER_SERVICE. -/
def modeRefused (c : Caller) (kind : Byte) (e : Ev) : Ev :=
  e.reply c kind .refused (if kind = Kind.enterService then w8 0 ++ w8 0 else [])

/-- R197: what is done with a frame of a wrong length or, for a lift report, with a code outside its values. -/
def malformed (c : Caller) (kind : Byte) (payload : List Byte) (e : Ev) : Ev :=
  if reportKinds.contains kind then
    e.alert AlertKind.reportMalformed (w8 (portCode c.port) ++ w8 c.station ++ [kind] ++ w8 payload.length)
  else e.badRequest c kind 0xFE

/-- R21, R34, R197: the gates in their order, then the block that owns the kind. -/
def State.judge (s : State) (c : Caller) (kind : Byte) (payload : List Byte) (body : Body) : State :=
  if !permits c.role kind then s.run fun e => e.reply c kind .refused []
  else if !takenIn s.garage.mode kind then s.run fun e => modeRefused c kind e
  else if !wellShaped kind payload then s.run fun e => malformed c kind payload e
  else body c payload s

/-- A frame to the part, from the polled station. -/
def State.receive (s : State) (p : Port) (kind flags : Byte) (payload : List Byte) (body : Body) : State :=
  s.dataFrame p flags payload fun st s => s.judge ⟨p, st.number, st.role⟩ kind payload body

/-- The meaning of a frame command of a kind, by its body. -/
def State.frame (s : State) (p : Port) (kind flags : Byte) (payload : List Byte) (body : Body) :
    Host.Outcome State Fault Refusal :=
  s.react fun s => s.receive p kind flags payload body

end Sys2Proof.Machine
end

