-- ==== Sys2Proof/Machine/Tickets.lean ====
section
/-! DEFINITION. Hooks for tickets, the closing of tickets, and the frames that carry records (R69, R71, R77, R80, R87,
R94, R95, R173, R198 to R201). -/

namespace Sys2Proof.Machine

/-! ### Hooks of tickets -/

/-- The lowest-numbered FREE hook that satisfies `ok`. -/
def Garage.lowestFreeHook (g : Garage) (ok : Nat → Bool) : Option Nat :=
  (g.hooks.find? fun kv => kv.2.state == .free && ok kv.1).map Prod.fst

/-- R87: the hook for a range, and the out-of-range flag. -/
def Garage.chooseHook (g : Garage) (range : Option (Nat × Nat)) : Option (Nat × Bool) :=
  match g.lowestFreeHook (inRange range) with
  | some h => some (h, false)
  | none => (g.lowestFreeHook fun _ => true).map fun h => (h, true)

/-- R87: the chosen hook is RESERVED for a ticket. -/
def Garage.tieHook (g : Garage) (h n : Nat) : Garage := g.modHook h fun _ => ⟨.reserved, some n, none⟩

/-- ALERT KEY_STRAY (R203). -/
def keyStray (hook tag : Nat) (e : Ev) : Ev := e.alert AlertKind.keyStray (w16 hook ++ w32 tag)

/-- R94: the close mapping of a ticket's hook. -/
def closeMapping (t : Ticket) (e : Ev) : Ev :=
  let free := e.modG fun g => g.modHook t.hook fun _ => ⟨.free, none, none⟩
  let stray (tag : Nat) := keyStray t.hook tag (e.modG fun g => g.modHook t.hook fun _ => ⟨.stray, none, some tag⟩)
  match e.g.hooks.find t.hook with
  | none => e
  | some h =>
    match h.state with
    | .out => free
    | .reserved => free
    | .held => stray t.tag
    | .released => stray t.tag
    | .mishung => stray (orZero h.tag)
    | _ => e

/-! ### Places in lists -/

/-- The place of a number in a list counted from 1, or 0 (R192). -/
def placeIn : List Nat → Nat → Nat
  | [], _ => 0
  | m :: rest, n => if m = n then 1 else match placeIn rest n with | 0 => 0 | k + 1 => k + 2

/-- A ticket's place in the retrieval queue. -/
def Garage.queuePlace (g : Garage) (n : Nat) : Nat := placeIn (g.queue.map Entry.ticket) n

/-- The lift whose entry hall names a ticket. -/
def Garage.hallOf (g : Garage) (n : Nat) : Option Lift :=
  if g.liftA.hall.map Prod.snd = some n then some .a
  else if g.liftB.hall.map Prod.snd = some n then some .b
  else none

/-! ### Records in frames -/

/-- The three measured values; a value never recorded, and a part that is absent, are sent as 0 (R185, R192). -/
def wMeasure (m : Option Measure) : List Byte :=
  match m with
  | some k => w16 (orZero k.parkedMinutes) ++ w16 (orZero k.waitSeconds) ++ w16 (orZero k.handoverSeconds)
  | none => w16 0 ++ w16 0 ++ w16 0

/-- The flag byte of a ticket record (R200). -/
def ticketFlags (t : Ticket) : Nat :=
  flagCode t.measure.isSome + 2 * flagCode t.hold + 4 * flagCode t.resumePending + 8 * flagCode t.cancelMark
    + 16 * flagCode t.blocked

/-- The common part of a ticket record, 33 characters (R200). -/
def ticketCommon (n : Nat) (t : Ticket) : List Byte :=
  w16 n ++ w32 t.tag ++ w8 (classCode t.cls) ++ w8 t.defaultPriority ++ w32 t.arrivalMinute ++ w32 t.estimate
    ++ w8 t.podium ++ w8 (ticketStateCode t.state) ++ w8 (locationCode t.location) ++ w16 (orFFFF t.bay)
    ++ w16 t.hook ++ wFlag t.outOfRange ++ w8 (keyStatusCode t.keyStatus) ++ w8 t.relocations ++ w8 (ticketFlags t)
    ++ wMeasure t.measure

/-- The place of a ticket in an exit lane, or 0. -/
def Garage.lanePlace (g : Garage) (t : Ticket) (n : Nat) : Nat :=
  match t.location with
  | .lane l => placeIn (g.lift l).lane n
  | _ => 0

/-- The place of a ticket in its convoy list or in the retrieval queue, or 0. -/
def Garage.waitingPlace (g : Garage) (t : Ticket) (n : Nat) : Nat :=
  match t.convoy with
  | some c => placeIn (g.chan c).list n
  | none => g.queuePlace n

/-- The state part of a ticket record, before padding (R200). -/
def statePart (g : Garage) (n : Nat) (t : Ticket) : List Byte :=
  let waiting :=
    w32 (orZero t.seq) ++ w8 (orFF t.priority) ++ w8 (orFF (t.convoy.map chanCode)) ++ w8 (orFF (t.phase.map phaseCode))
      ++ w8 (g.waitingPlace t n)
  let ready :=
    w8 (orZero t.runner) ++ w32 (orZero t.readySeq) ++ w8 (g.lanePlace t n) ++ w8 (placeIn g.waitList n)
  match t.state with
  | .allocated => w8 (orFF ((g.hallOf n).map liftCode))
  | .parking => w8 (orFF ((g.hallOf n).map liftCode))
  | .queued => waiting
  | .retrieving => waiting
  | .held => waiting
  | .ready => ready
  | .outbound => ready
  | .check =>
    match t.unresolved with
    | some (l, m) =>
      w8 (liftCode l) ++ w8 m.number ++ w8 (moveKindCode m.kind) ++ wLocation m.source ++ wLocation m.dest
    | none => w8 absentCode ++ w8 0 ++ w8 absentCode ++ w8 absentCode ++ w16 absentBay ++ w8 absentCode ++ w16 absentBay
  | .parked => []
  | .overflow => []

/-- The ticket record of QUERY_TICKET, 46 characters (R200). -/
def ticketRecord (g : Garage) (n : Nat) (t : Ticket) : List Byte := ticketCommon n t ++ padTo 13 (statePart g n t)

/-- What an ALLOCATION says of a bay: bay, lift, stack, position, score; absent for the lot (R201). -/
def allocationPlace (g : Garage) (choice : Option (Nat × Nat)) : List Byte :=
  match choice with
  | some (b, score) =>
    w8 (locationCode (.bay b)) ++ w16 b ++ w8 (orFF ((g.liftOfBay b).map liftCode))
      ++ w8 (((g.bay b).map Bay.stack).getD absentCode) ++ w8 (((g.bay b).map Bay.position).getD 0) ++ w16 score
  | none =>
    w8 (locationCode .lot) ++ w16 absentBay ++ w8 absentCode ++ w8 absentCode ++ w8 0 ++ w16 absentBay

/-- ALLOCATION, of class REPLY, for the sending podium (R71, R201). -/
def allocation (c : Caller) (kind : Byte) (n : Nat) (t : Ticket) (choice : Option (Nat × Nat)) (stay : Nat) (e : Ev) :
    Ev :=
  e.emit ⟨.reply c.port c.station, Kind.allocation,
    kind :: w8 Result.taken.code ++ w16 n ++ w32 t.tag ++ allocationPlace e.g choice ++ w16 t.hook
      ++ wFlag t.outOfRange ++ w16 stay ++ w32 t.estimate ++ w8 t.defaultPriority, .plain⟩

/-! ### Closing (R77, R173) -/

/-- TICKET_CLOSED, from the record as it stood at the close (R173, R201). -/
def ticketClosed (n : Nat) (t : Ticket) (station : Nat) (cause : CloseCause) (e : Ev) : Ev :=
  e.emit ⟨.role .office, Kind.ticketClosed,
    w16 n ++ w32 t.tag ++ w8 (classCode t.cls) ++ w32 t.arrivalMinute ++ w32 t.estimate ++ w8 t.podium ++ w8 station
      ++ w8 (ticketStateCode t.state)
      ++ w8 (if t.state = .ready then locationCode t.location else absentCode)
      ++ w16 t.hook ++ wFlag t.outOfRange ++ w8 (keyStatusCode t.keyStatus) ++ w8 (orZero t.runner) ++ w8 t.relocations
      ++ wFlag t.measure.isSome ++ wMeasure t.measure ++ w8 (closeCauseCode cause), .plain⟩

/-- R77, R173, R188: the measurement part is completed, TICKET_CLOSED is composed, and the record is removed. -/
def closeTicket (n : Nat) (t : Ticket) (station : Nat) (cause : CloseCause) (e : Ev) : Ev :=
  (ticketClosed n (t.measured (Measure.recordClose e.g.seconds)) station cause e).modG fun g =>
    { g with tickets := g.tickets.remove n }

end Sys2Proof.Machine
end

