-- ==== Sys2Proof/Machine/Requests.lean ====
section
/-! DEFINITION. Requests of the podiums and the desk: ARRIVAL, RETRIEVE, RESUME, CANCEL, HANDOVER, RE_PARK, QUERY_TICKET
(chapters 4, 6, 9). -/

namespace Sys2Proof.Machine

/-! ### ARRIVAL (R66 to R71) -/

/-- The record of a new ticket (R70). -/
def newTicket (tag : Nat) (cls : CarClass) (prio minute estimate podium : Nat) (bay : Option Nat) (loc : Location)
    (hook : Nat) (outOfRange measuring : Bool) : Ticket where
  tag := tag
  cls := cls
  defaultPriority := prio
  arrivalMinute := minute
  estimate := estimate
  podium := podium
  state := if bay.isSome then .allocated else .overflow
  location := loc
  bay := bay
  unresolved := none
  hook := hook
  outOfRange := outOfRange
  keyStatus := .normal
  seq := none
  priority := none
  convoy := none
  hold := false
  resumePending := false
  phase := none
  cancelMark := false
  blocked := false
  runner := none
  readySeq := none
  measure := if measuring then some Measure.new else none
  relocations := 0
  place := false
  holdTimer := none

/-- The location of a car allocated to a bay: the entry hall of the bay's lift (R64). -/
def Garage.hallFor (g : Garage) (bay : Nat) : Location := .hall ((g.liftOfBay bay).getD .a)

/-- R69, R70, R71: a hook is asked for and the record made, for a bay already reserved or for the lot; without a hook the
reservation is released and the answer is NO_HOOK. -/
def admitCar (c : Caller) (n tag : Nat) (cls : CarClass) (prio stay estimate : Nat) (choice : Option (Nat × Nat)) (e : Ev) :
    Ev :=
  let bay := choice.map Prod.fst
  match e.g.chooseHook (e.g.rangeFor (bay.bind e.g.liftOfBay)) with
  | none =>
    (e.modG fun g => match bay with | some b => g.release b n | none => g).reply c Kind.arrival .noHook []
  | some (h, out) =>
    let loc := match bay with | some b => e.g.hallFor b | none => .lot
    let t := newTicket tag cls prio e.g.minute estimate c.station bay loc h out e.g.measuring
    allocation c Kind.arrival n t choice stay
      (e.modG fun g => (({ g with tickets := g.tickets.put n t } : Garage)).tieHook h n)

/-- R67 to R69: the checks against the ticket table, the choice of bay, the admission to the lot. -/
def arriveChecked (c : Caller) (n tag : Nat) (cls : CarClass) (prio hint : Nat) (e : Ev) : Ev :=
  let holderTag := e.g.tickets.findKey fun t => t.tag == tag
  let live := (e.g.ticket n).isSome
  if live || holderTag.isSome then
    e.reply c Kind.arrival .duplicate
      (w8 (flagCode live + 2 * flagCode holderTag.isSome) ++ w16 (if live then n else 0) ++ w16 (orZero holderTag))
  else if Config.ticketCapacity ≤ e.g.tickets.length then e.reply c Kind.arrival .noHook []
  else
    let stay := e.g.stayUsed hint
    let estimate := e.g.formEstimate stay
    match e.g.choose .everywhere cls estimate with
    | some (b, score) =>
      admitCar c n tag cls prio stay estimate (some (b, score)) (e.modG fun g => g.reserve b n)
    | none =>
      if e.g.overflowCount < e.g.limits.overflowCapacity then admitCar c n tag cls prio stay estimate none e
      else e.reply c Kind.arrival .full (w16 stay)

/-- R66: the fields of an ARRIVAL are checked first. -/
def arrive (c : Caller) (pl : List Byte) (e : Ev) : Ev :=
  if u16 pl 0 = 0 then e.badRequest c Kind.arrival 0
  else if u32 pl 2 = 0 then e.badRequest c Kind.arrival 2
  else
    match classOf (u8 pl 6) with
    | none => e.badRequest c Kind.arrival 6
    | some cls => arriveChecked c (u16 pl 0) (u32 pl 2) cls (min (u8 pl 7) 7) (u16 pl 8) e

/-- What the part does with an ARRIVAL. -/
def arrivalBody : Body := workBody arrive

/-- ARRIVAL (R66). -/
def execArrival (p : Port) (flags : Byte) (payload : List Byte) (s : State) : Host.Outcome State Fault Refusal :=
  s.frame p Kind.arrival flags payload arrivalBody

/-! ### RETRIEVE (R100 to R104) -/

/-- The detail of every reply to RETRIEVE (R198). -/
def retrieveDetail (n state seq prio : Nat) (hold : Bool) (pos : Nat) : List Byte :=
  w16 n ++ w8 state ++ w32 seq ++ w8 prio ++ wFlag hold ++ w8 pos

/-- A reply to RETRIEVE other than TAKEN: number, priority and position absent, hold clear (R198). -/
def retrieveRefused (c : Caller) (n state : Nat) (r : Result) (e : Ev) : Ev :=
  e.reply c Kind.retrieve r (retrieveDetail n state 0 absentCode false 0)

/-- The podium of record after a RETRIEVE answered TAKEN (R100). -/
def Caller.podiumFor (c : Caller) (t : Ticket) : Nat := if c.role = .podium then c.station else t.podium

/-- R102 ❶ to ❸, R186, R187: a PARKED ticket joins the queue with a sequence number. -/
def Ticket.toQueued (t : Ticket) (now seq prio : Nat) (hold : Bool) (podium : Nat) : Ticket :=
  ({ t with
    state := .queued
    seq := some seq
    priority := some prio
    hold := hold
    resumePending := false
    blocked := false
    place := true
    podium := podium }).measured fun m => (m.recordParked now).markWait now

/-- R102: a RETRIEVE taken for a PARKED ticket. -/
def joinQueue (c : Caller) (n : Nat) (prio : Nat) (hold : Bool) (e : Ev) : Ev :=
  let (g, seq) := e.g.takeSeq
  let g := g.modTicket n fun t => t.toQueued g.seconds seq prio hold (c.podiumFor t)
  let g : Garage := { g with queue := g.queue ++ [⟨n, none⟩] }
  (e.modG fun _ => g).reply c Kind.retrieve .taken
    (retrieveDetail n (ticketStateCode .queued) seq prio hold g.queue.length)

/-- R104: a RETRIEVE taken for an OVERFLOW ticket: its number lapses, the reply, then the READY effects. -/
def releaseAtLot (c : Caller) (n : Nat) (prio : Nat) (e : Ev) : Ev :=
  let e := e.modG fun g => (g.takeSeq).1.modTicket n fun t =>
    ({ t with podium := c.podiumFor t }).measured (Measure.markWait g.seconds)
  enterReady n .lot (e.reply c Kind.retrieve .taken
    (retrieveDetail n (ticketStateCode .ready) 0 prio false 0))

/-- The priority used by a RETRIEVE (R100). -/
def priorityUsed (pl : List Byte) (t : Ticket) : Nat := if bit8 pl 3 1 then min (u8 pl 2) 7 else t.defaultPriority

/-- R101: a RETRIEVE is answered by the state of its ticket. -/
def retrieveTicket (c : Caller) (pl : List Byte) (n : Nat) (t : Ticket) (e : Ev) : Ev :=
  let answer (r : Result) := retrieveRefused c n (ticketStateCode t.state) r e
  match t.state with
  | .parked =>
    if Config.places ≤ e.g.placesHeld then answer .queueFull
    else joinQueue c n (priorityUsed pl t) (bit8 pl 3 0) e
  | .overflow => releaseAtLot c n (priorityUsed pl t) e
  | .queued => answer .inProgress
  | .retrieving => answer .inProgress
  | .held => answer .inProgress
  | .ready => answer .handoverPending
  | .outbound => answer .handoverPending
  | .allocated => answer .notParked
  | .parking => answer .notParked
  | .check => answer .notParked

/-- R100, R101: a RETRIEVE (log 21 for the detail with ticket 0). -/
def retrieve (c : Caller) (pl : List Byte) (e : Ev) : Ev :=
  if u16 pl 0 = 0 then retrieveRefused c 0 absentCode .badRequest e
  else
    match e.g.ticket (u16 pl 0) with
    | none => retrieveRefused c (u16 pl 0) absentCode .unknownTicket e
    | some t => retrieveTicket c pl (u16 pl 0) t e

/-- What the part does with a RETRIEVE. -/
def retrieveBody : Body := workBody retrieve

/-- RETRIEVE (R100). -/
def execRetrieve (p : Port) (flags : Byte) (payload : List Byte) (s : State) : Host.Outcome State Fault Refusal :=
  s.frame p Kind.retrieve flags payload retrieveBody

/-! ### RESUME (R112) -/

/-- A reply that carries a ticket and its state (R198). -/
def Ev.ticketReply (e : Ev) (c : Caller) (kind : Byte) (r : Result) (n state : Nat) : Ev :=
  e.reply c kind r (w16 n ++ w8 state)

/-- R112, R105: a HELD ticket returns to the queue by its sequence number. -/
def Garage.resumeHeld (g : Garage) (n : Nat) : Garage :=
  let g := g.modTicket n fun t => { t with state := .queued, hold := false, holdTimer := none }
  { g with queue := insertBy (fun en => g.seqOf en.ticket) ⟨n, none⟩ g.queue }

/-- R112: a RESUME is answered by the state and flags of its ticket. The reply for a HELD ticket shows QUEUED, the state it
returns to, also when an arbiter starts its plan anew in the same event (DESIGN CHOICE, log 21). -/
def resumeTicket (c : Caller) (n : Nat) (t : Ticket) (e : Ev) : Ev :=
  let refused := e.ticketReply c Kind.resume .notApplicable n (ticketStateCode t.state)
  match t.state with
  | .held => (e.modG fun g => g.resumeHeld n).ticketReply c Kind.resume .taken n (ticketStateCode .queued)
  | .retrieving =>
    if t.convoy = none ∧ t.hold = true ∧ t.resumePending = false ∧ t.cancelMark = false then
      (e.modG fun g => g.modTicket n fun t => { t with resumePending := true }).ticketReply c Kind.resume .taken n
        (ticketStateCode .retrieving)
    else refused
  | .queued =>
    if t.convoy = none ∧ t.hold = true then
      (e.modG fun g => g.modTicket n fun t => { t with hold := false }).ticketReply c Kind.resume .taken n
        (ticketStateCode .queued)
    else refused
  | _ => refused

/-- R112: a RESUME. -/
def resume (c : Caller) (pl : List Byte) (e : Ev) : Ev :=
  if u16 pl 0 = 0 then e.ticketReply c Kind.resume .badRequest 0 absentCode
  else
    match e.g.ticket (u16 pl 0) with
    | none => e.ticketReply c Kind.resume .unknownTicket (u16 pl 0) absentCode
    | some t => resumeTicket c (u16 pl 0) t e

/-- What the part does with a RESUME. -/
def resumeBody : Body := workBody resume

/-- RESUME (R112). -/
def execResume (p : Port) (flags : Byte) (payload : List Byte) (s : State) : Host.Outcome State Fault Refusal :=
  s.frame p Kind.resume flags payload resumeBody

/-! ### CANCEL (R76, R113 to R116) -/

/-- R76 ❷: the hall that names a ticket is emptied and its lift unit withdraws the park move request, with a tenure that
the request holds (R134). -/
def LiftUnit.withdraw (u : LiftUnit) (n : Nat) : LiftUnit :=
  if u.hall.map Prod.snd = some n then
    { u with
      hall := none
      parkRequest := none
      reorder := if u.tenure = some .park then none else u.reorder
      tenure := if u.tenure = some .park then none else u.tenure }
  else u

/-- R76: an ALLOCATED ticket is closed by CANCEL. -/
def cancelAllocated (c : Caller) (n : Nat) (t : Ticket) (e : Ev) : Ev :=
  let e := e.ticketReply c Kind.cancel .taken n closedCode
  let e := e.modG fun g => match t.bay with | some b => g.release b n | none => g
  let e := e.modG fun g => { g with liftA := g.liftA.withdraw n, liftB := g.liftB.withdraw n }
  closeTicket n t c.station .cancelled (closeMapping t e)

/-- The lift whose move in flight belongs to the plan of a target (R115, R116). -/
def Garage.flightOf (g : Garage) (n : Nat) : Option Lift :=
  if (g.liftA.inFlight.bind Move.target) = some n then some .a
  else if (g.liftB.inFlight.bind Move.target) = some n then some .b
  else none

/-- The plans of a lift, the one that stands on it and those in WAIT_LANE. -/
def LiftUnit.plans (u : LiftUnit) : List Plan := u.plan.toList ++ u.waiting

/-- R115: the plan of a target ends, on whichever lift it is. -/
def Garage.endPlanOf (g : Garage) (n : Nat) : Garage :=
  match g.liftA.plans.find? fun p => p.target == n with
  | some p => g.endPlan .a p
  | none =>
    match g.liftB.plans.find? fun p => p.target == n with
    | some p => g.endPlan .b p
    | none => g

/-- R115, R116: a retrieval is given up: its plan ends at once, or its cancel mark is set while a move of it is in
flight. -/
def Garage.giveUp (g : Garage) (n : Nat) : Garage :=
  match g.flightOf n with
  | some _ => g.modTicket n fun t => { t with cancelMark := true }
  | none => (g.endPlanOf n).becomeParked n

/-- R113: a CANCEL is answered by the state of its ticket. -/
def cancelTicket (c : Caller) (n : Nat) (t : Ticket) (e : Ev) : Ev :=
  let park := (e.modG fun g => g.becomeParked n).ticketReply c Kind.cancel .taken n (ticketStateCode .parked)
  match t.state with
  | .allocated => cancelAllocated c n t e
  | .queued => park
  | .held => park
  | .retrieving =>
    (e.modG fun g => g.giveUp n).ticketReply c Kind.cancel .taken n
      (ticketStateCode (if (e.g.flightOf n).isSome then .retrieving else .parked))
  | _ => e.ticketReply c Kind.cancel .notApplicable n (ticketStateCode t.state)

/-- R113: a CANCEL. -/
def cancel (c : Caller) (pl : List Byte) (e : Ev) : Ev :=
  if u16 pl 0 = 0 then e.ticketReply c Kind.cancel .badRequest 0 absentCode
  else
    match e.g.ticket (u16 pl 0) with
    | none => e.ticketReply c Kind.cancel .unknownTicket (u16 pl 0) absentCode
    | some t => cancelTicket c (u16 pl 0) t e

/-- What the part does with a CANCEL. -/
def cancelBody : Body := workBody cancel

/-- CANCEL (R113). -/
def execCancel (p : Port) (flags : Byte) (payload : List Byte) (s : State) : Host.Outcome State Fault Refusal :=
  s.frame p Kind.cancel flags payload cancelBody

/-! ### HANDOVER (R170 to R173) -/

/-- R172 ❶ ❸: a READY ticket leaves its lane and the wait list. -/
def Garage.leaveReady (g : Garage) (n : Nat) (t : Ticket) : Garage :=
  let g :=
    match t.location with
    | .lane l => g.leaveLane l n
    | _ => g
  { g with waitList := g.waitList.filter (· != n) }

/-- R171, R172: a HANDOVER taken. -/
def handOver (c : Caller) (n : Nat) (t : Ticket) (e : Ev) : Ev :=
  let e := e.ticketReply c Kind.handover .taken n (ticketStateCode t.state)
  let e := e.modG fun g => if t.state = .ready then g.leaveReady n t else g
  closeTicket n t c.station .handedOver (closeMapping t (releaseRunner n e))

/-- R170: a HANDOVER is answered by the state of its ticket. -/
def handoverTicket (c : Caller) (n : Nat) (t : Ticket) (e : Ev) : Ev :=
  if t.state = .ready ∨ t.state = .outbound then handOver c n t e
  else e.ticketReply c Kind.handover .notApplicable n (ticketStateCode t.state)

/-- R170: a HANDOVER. -/
def handover (c : Caller) (pl : List Byte) (e : Ev) : Ev :=
  if u16 pl 0 = 0 then e.ticketReply c Kind.handover .badRequest 0 absentCode
  else
    match e.g.ticket (u16 pl 0) with
    | none => e.ticketReply c Kind.handover .unknownTicket (u16 pl 0) absentCode
    | some t => handoverTicket c (u16 pl 0) t e

/-- What the part does with a HANDOVER. -/
def handoverBody : Body := workBody handover

/-- HANDOVER (R170). -/
def execHandover (p : Port) (flags : Byte) (payload : List Byte) (s : State) : Host.Outcome State Fault Refusal :=
  s.frame p Kind.handover flags payload handoverBody

/-! ### RE_PARK (R78, R79, R95, R174) -/

/-- R79: the record after a RE_PARK, but for its runner. -/
def Ticket.reParked (t : Ticket) (bay : Option Nat) (loc : Location) (estimate podium : Nat) (outOfRange : Bool) :
    Ticket :=
  { t with
    state := if bay.isSome then .allocated else .overflow
    location := loc
    bay := bay
    estimate := estimate
    podium := podium
    readySeq := none
    outOfRange := outOfRange
    keyStatus := .normal }

/-- R79, R95, R174: a RE_PARK taken: the record, the hook, the ALLOCATION, then the release of the runner. -/
def rePlace (c : Caller) (n : Nat) (stay estimate : Nat) (choice : Option (Nat × Nat)) (e : Ev) : Ev :=
  let bay := choice.map Prod.fst
  let loc := match bay with | some b => e.g.hallFor b | none => .lot
  let range := e.g.rangeFor (bay.bind e.g.liftOfBay)
  let e := e.modG fun g =>
    let g := match bay with | some b => g.reserve b n | none => g
    g.modTicket n fun t => t.reParked bay loc estimate c.station (!inRange range t.hook)
  match e.g.ticket n with
  | none => e
  | some t =>
    releaseRunner n (allocation c Kind.rePark n t choice stay (e.modG fun g => g.tieHook t.hook n))

/-- R78: a RE_PARK. -/
def reParkTicket (c : Caller) (n : Nat) (t : Ticket) (hint : Nat) (e : Ev) : Ev :=
  if t.state ≠ .outbound then e.reply c Kind.rePark .notApplicable []
  else
    let stay := e.g.stayUsed hint
    let estimate := e.g.formEstimate stay
    match e.g.choose .everywhere t.cls estimate with
    | some choice => rePlace c n stay estimate (some choice) e
    | none =>
      if e.g.overflowCount < e.g.limits.overflowCapacity then rePlace c n stay estimate none e
      else e.reply c Kind.rePark .full (w16 stay)

/-- R78: a RE_PARK. -/
def rePark (c : Caller) (pl : List Byte) (e : Ev) : Ev :=
  if u16 pl 0 = 0 then e.badRequest c Kind.rePark 0
  else
    match e.g.ticket (u16 pl 0) with
    | none => e.reply c Kind.rePark .unknownTicket []
    | some t => reParkTicket c (u16 pl 0) t (u16 pl 2) e

/-- What the part does with a RE_PARK. -/
def reParkBody : Body := workBody rePark

/-- RE_PARK (R78). -/
def execRePark (p : Port) (flags : Byte) (payload : List Byte) (s : State) : Host.Outcome State Fault Refusal :=
  s.frame p Kind.rePark flags payload reParkBody

/-! ### QUERY_TICKET (R80) -/

/-- R80: the ticket a query names: by number when that is not 0, else by tag. -/
def Garage.queried (g : Garage) (number tag : Nat) : Option Nat :=
  if number ≠ 0 then (if (g.ticket number).isSome then some number else none)
  else g.tickets.findKey fun t => t.tag == tag

/-- R80: a QUERY_TICKET. -/
def queryTicket (c : Caller) (pl : List Byte) (e : Ev) : Ev :=
  if u16 pl 0 = 0 ∧ u32 pl 2 = 0 then e.badRequest c Kind.queryTicket 0
  else
    match e.g.queried (u16 pl 0) (u32 pl 2) with
    | none => e.reply c Kind.queryTicket .unknownTicket []
    | some n =>
      match e.g.ticket n with
      | some t => e.reply c Kind.queryTicket .taken (ticketRecord e.g n t)
      | none => e.reply c Kind.queryTicket .unknownTicket []

/-- What the part does with a QUERY_TICKET. -/
def queryTicketBody : Body := evBody queryTicket

/-- QUERY_TICKET (R80). -/
def execQueryTicket (p : Port) (flags : Byte) (payload : List Byte) (s : State) : Host.Outcome State Fault Refusal :=
  s.frame p Kind.queryTicket flags payload queryTicketBody

end Sys2Proof.Machine
end

