-- ==== Sys2Proof/Machine/Reports.lean ====
section
/-! DEFINITION. Reports of the key cabinet, the runner handset base and the lifts (chapters 4, 5, 7, 9). -/

namespace Sys2Proof.Machine

/-! ### KEY_IN and KEY_OUT (R88 to R91) -/

/-- The code of a key event (R194): KEY_IN 0, KEY_OUT 1. -/
def keyEventCode (hung : Bool) : Nat := if hung then 0 else 1

/-- ALERT KEY_EVENT_UNEXPECTED (R203). -/
def keyUnexpected (hook : Nat) (hung : Bool) (tag : Nat) (state : Option HookState) (e : Ev) : Ev :=
  e.alert AlertKind.keyEventUnexpected
    (w16 hook ++ w8 (keyEventCode hung) ++ w32 tag ++ w8 (orFF (state.map hookStateCode)))

/-- R88, R91: the tied ticket's key is hung on its hook: HELD, or RELEASED at once with HOOK_OPEN when the ticket is
READY or OUTBOUND. A hook that was OUT leaves the key status NORMAL (R89). -/
def keyReturned (hook n tag : Nat) (wasOut : Bool) (e : Ev) : Ev :=
  let ready : Bool := match e.g.ticket n with
    | some t => t.state == .ready || t.state == .outbound
    | none => false
  let e := e.modG fun g =>
    (g.modHook hook fun h => { h with state := if ready then .released else .held, tag := some tag }).modTicket n fun t =>
      if wasOut then { t with keyStatus := .normal } else t
  if ready then e.emit (hookOpenFrame hook n tag) else e

/-- R88, R89: a wrong key is hung on a tied hook. -/
def keyMishung (hook n expected tag : Nat) (e : Ev) : Ev :=
  (e.modG fun g =>
      (g.modHook hook fun h => { h with state := .mishung, tag := some tag }).modTicket n fun t =>
        { t with keyStatus := .mishung }).alert AlertKind.keyMismatch (w16 hook ++ w16 n ++ w32 expected ++ w32 tag)

/-- R88: a key hung on a tied, empty hook. -/
def keyHungTied (hook tag : Nat) (h : Hook) (e : Ev) : Ev :=
  let n := orZero h.ticket
  let expected := e.g.tagOf n
  if tag = expected then keyReturned hook n tag (h.state == .out) e else keyMishung hook n expected tag e

/-- R88: KEY_IN by the state of its hook. -/
def keyInHook (hook tag : Nat) (h : Hook) (e : Ev) : Ev :=
  match h.state with
  | .free => keyStray hook tag (e.modG fun g => g.modHook hook fun _ => ⟨.stray, none, some tag⟩)
  | .reserved => keyHungTied hook tag h e
  | .out => keyHungTied hook tag h e
  | _ => keyUnexpected hook true tag (some h.state) e

/-- R88: KEY_IN. -/
def keyIn (_ : Caller) (pl : List Byte) (e : Ev) : Ev :=
  match e.g.hooks.find (u16 pl 0) with
  | none => keyUnexpected (u16 pl 0) true (u32 pl 2) none e
  | some h =>
    if u32 pl 2 = 0 then keyUnexpected (u16 pl 0) true 0 none e else keyInHook (u16 pl 0) (u32 pl 2) h e

/-- What the part does with a KEY_IN. -/
def keyInBody : Body := evBody keyIn

/-- KEY_IN (R88). -/
def execKeyIn (p : Port) (flags : Byte) (payload : List Byte) (s : State) : Host.Outcome State Fault Refusal :=
  s.frame p Kind.keyIn flags payload keyInBody

/-- R90: KEY_OUT by the state of its hook. -/
def keyOutHook (hook : Nat) (h : Hook) (e : Ev) : Ev :=
  let n := orZero h.ticket
  match h.state with
  | .released => e.modG fun g => g.modHook hook fun h => { h with state := .out, tag := none }
  | .held =>
    (e.modG fun g =>
        (g.modHook hook fun h => { h with state := .out, tag := none }).modTicket n fun t =>
          { t with keyStatus := .takenUnreleased }).alert AlertKind.keyTaken (w16 hook ++ w16 n)
  | .mishung =>
    e.modG fun g =>
      (g.modHook hook fun h => { h with state := .reserved, tag := none }).modTicket n fun t =>
        { t with keyStatus := .normal }
  | .stray => e.modG fun g => g.modHook hook fun _ => ⟨.free, none, none⟩
  | _ => keyUnexpected hook false 0 (some h.state) e

/-- R90: KEY_OUT. -/
def keyOut (_ : Caller) (pl : List Byte) (e : Ev) : Ev :=
  match e.g.hooks.find (u16 pl 0) with
  | none => keyUnexpected (u16 pl 0) false 0 none e
  | some h => keyOutHook (u16 pl 0) h e

/-- What the part does with a KEY_OUT. -/
def keyOutBody : Body := evBody keyOut

/-- KEY_OUT (R90). -/
def execKeyOut (p : Port) (flags : Byte) (payload : List Byte) (s : State) : Host.Outcome State Fault Refusal :=
  s.frame p Kind.keyOut flags payload keyOutBody

/-! ### RUNNER_ON and RUNNER_OFF (R162, R163) -/

/-- A reply about a runner, as it stands in the roster (R198). -/
def Ev.runnerReply (e : Ev) (c : Caller) (kind : Byte) (r : Result) (runner : Nat) (k : Runner) : Ev :=
  e.reply c kind r (w8 runner ++ w8 (runnerStateCode k.state) ++ w16 (orZero k.ticket))

/-- R162: the record of an OFF runner once it has signed on: FREE, or ASSIGNED to the head of the wait list (R165). -/
def Garage.signedOn (g : Garage) : Runner :=
  match g.waitList with
  | n :: _ => ⟨.assigned, some n, some g.pickupPeriod⟩
  | [] => ⟨.free, none, none⟩

/-- R162: RUNNER_ON by the state of its runner; the reply is queued before a RUNNER_TASK. -/
def runnerOnFor (c : Caller) (r : Nat) (e : Ev) : Ev :=
  let k := e.g.runner r
  match k.state with
  | .off => freeRunner r (e.runnerReply c Kind.runnerOn .taken r e.g.signedOn)
  | .offPending =>
    (e.modG fun g => g.modRunner r fun k => { k with state := .assigned }).runnerReply c Kind.runnerOn .taken r
      { k with state := .assigned }
  | .free => e.runnerReply c Kind.runnerOn .inProgress r k
  | .assigned => e.runnerReply c Kind.runnerOn .inProgress r k

/-- A runner number lies in 1 to 32 (R160). -/
def runnerInRange (r : Nat) : Bool := decide (1 ≤ r) && decide (r ≤ 32)

/-- R162: RUNNER_ON. -/
def runnerOn (c : Caller) (pl : List Byte) (e : Ev) : Ev :=
  if runnerInRange (u8 pl 0) then runnerOnFor c (u8 pl 0) e else e.badRequest c Kind.runnerOn 0

/-- What the part does with a RUNNER_ON. -/
def runnerOnBody : Body := evBody runnerOn

/-- RUNNER_ON (R162). -/
def execRunnerOn (p : Port) (flags : Byte) (payload : List Byte) (s : State) : Host.Outcome State Fault Refusal :=
  s.frame p Kind.runnerOn flags payload runnerOnBody

/-- R163: a second RUNNER_OFF takes a READY ticket from a runner and gives it out again. -/
def secondRunnerOff (c : Caller) (r n : Nat) (e : Ev) : Ev :=
  giveRunner n ((e.modG fun g =>
      (g.modRunner r fun _ => Runner.reset).modTicket n fun t => { t with runner := none }).runnerReply c Kind.runnerOff
    .taken r Runner.reset)

/-- R163: RUNNER_OFF by the state of its runner and of its ticket. -/
def runnerOffFor (c : Caller) (r : Nat) (e : Ev) : Ev :=
  let k := e.g.runner r
  match k.state with
  | .free =>
    (e.modG fun g =>
        { g.modRunner r (fun _ => Runner.reset) with freeList := g.freeList.filter (· != r) }).runnerReply c
      Kind.runnerOff .taken r Runner.reset
  | .assigned =>
    (e.modG fun g => g.modRunner r fun k => { k with state := .offPending }).runnerReply c Kind.runnerOff .taken r
      { k with state := .offPending }
  | .offPending =>
    match k.ticket with
    | some n =>
      if (e.g.ticket n).map Ticket.state = some .ready then secondRunnerOff c r n e
      else e.runnerReply c Kind.runnerOff .inProgress r k
    | none => e.runnerReply c Kind.runnerOff .inProgress r k
  | .off => e.runnerReply c Kind.runnerOff .notApplicable r k

/-- R163: RUNNER_OFF. -/
def runnerOff (c : Caller) (pl : List Byte) (e : Ev) : Ev :=
  if runnerInRange (u8 pl 0) then runnerOffFor c (u8 pl 0) e else e.badRequest c Kind.runnerOff 0

/-- What the part does with a RUNNER_OFF. -/
def runnerOffBody : Body := evBody runnerOff

/-- RUNNER_OFF (R163). -/
def execRunnerOff (p : Port) (flags : Byte) (payload : List Byte) (s : State) : Host.Outcome State Fault Refusal :=
  s.frame p Kind.runnerOff flags payload runnerOffBody

/-! ### PICKUP (R168, R169) -/

/-- The detail of a reply to PICKUP (R198). -/
def pickupDetail (r n state : Nat) : List Byte := w8 r ++ w16 n ++ w8 state

/-- ALERT PICKUP_MISMATCH with its reason: 0 no such ticket, 1 not assigned, 2 not at lane head (R194, R203). -/
def pickupMismatch (r n reason : Nat) (e : Ev) : Ev := e.alert AlertKind.pickupMismatch (w8 r ++ w16 n ++ w8 reason)

/-- R168 ❺: the ticket stands in an exit lane and not at its head. -/
def Garage.behindInLane (g : Garage) (n : Nat) (t : Ticket) : Bool :=
  match t.location with
  | .lane l => (g.lift l).lane.head? != some n
  | _ => false

/-- R169: the pickup is taken. -/
def Garage.pickedUp (g : Garage) (r n : Nat) (t : Ticket) : Garage :=
  let g := g.modTicket n fun t => { t with state := .outbound, location := .withRunner }
  let g :=
    match t.location with
    | .lane l => g.leaveLane l n
    | _ => g
  g.modRunner r fun k => { k with timer := none }

/-- R168 ❸ to ❺, R169: PICKUP of a live ticket. -/
def pickupTicket (c : Caller) (r n : Nat) (t : Ticket) (e : Ev) : Ev :=
  let answer (e : Ev) (res : Result) (st : TicketState) :=
    e.reply c Kind.pickup res (pickupDetail r n (ticketStateCode st))
  let k := e.g.runner r
  if t.state = .outbound ∧ t.runner = some r then answer e .handoverPending t.state
  else if ¬ ((k.state = .assigned ∨ k.state = .offPending) ∧ k.ticket = some n) then
    pickupMismatch r n 1 (answer e .notApplicable t.state)
  else if e.g.behindInLane n t then pickupMismatch r n 2 (answer e .notApplicable t.state)
  else answer (e.modG fun g => g.pickedUp r n t) .taken .outbound

/-- R168: PICKUP. -/
def pickup (c : Caller) (pl : List Byte) (e : Ev) : Ev :=
  if !runnerInRange (u8 pl 0) then e.badRequest c Kind.pickup 0
  else if u16 pl 1 = 0 then e.badRequest c Kind.pickup 1
  else
    match e.g.ticket (u16 pl 1) with
    | none =>
      pickupMismatch (u8 pl 0) (u16 pl 1) 0
        (e.reply c Kind.pickup .unknownTicket (pickupDetail (u8 pl 0) (u16 pl 1) absentCode))
    | some t => pickupTicket c (u8 pl 0) (u16 pl 1) t e

/-- What the part does with a PICKUP. -/
def pickupBody : Body := workBody pickup

/-- PICKUP (R168). -/
def execPickup (p : Port) (flags : Byte) (payload : List Byte) (s : State) : Host.Outcome State Fault Refusal :=
  s.frame p Kind.pickup flags payload pickupBody

/-! ### LIFT_STATUS (R121) -/

/-- A body of a lift's station, given its lift. -/
def liftBody (f : Lift → List Byte → Ev → Ev) : Body :=
  workBody fun c pl e =>
    match roleLift c.role with
    | some l => f l pl e
    | none => e

/-- R121: a lift unit after a readiness report. -/
def LiftUnit.reported (u : LiftUnit) (ready : Bool) : LiftUnit :=
  let u := { u with readiness := if ready then .ready else .notReady }
  match u.state with
  | .offline => { u with state := if ready then .ready else .notReady }
  | .notReady => { u with state := if ready then .ready else .notReady }
  | .ready => { u with state := if ready then .ready else .notReady }
  | _ => u

/-- R121: LIFT_STATUS. -/
def liftStatus (l : Lift) (pl : List Byte) (e : Ev) : Ev := e.modG fun g => g.modLift l fun u => u.reported (u8 pl 0 == 1)

/-- What the part does with a LIFT_STATUS. -/
def liftStatusBody : Body := liftBody liftStatus

/-- LIFT_STATUS (R121). -/
def execLiftStatus (p : Port) (flags : Byte) (payload : List Byte) (s : State) : Host.Outcome State Fault Refusal :=
  s.frame p Kind.liftStatus flags payload liftStatusBody

/-! ### CAR_PRESENT (R72 to R75) -/

/-- ALERT HALL_CAR_NOT_EXPECTED (R72). -/
def hallNotExpected (l : Lift) (tag : Nat) (e : Ev) : Ev :=
  e.alert AlertKind.hallCarNotExpected (w8 (liftCode l) ++ w32 tag)

/-- R73: the hall is filled and the park move is requested. -/
def Garage.present (g : Garage) (l : Lift) (tag n : Nat) : Garage :=
  g.modLift l fun u => { u with hall := some (tag, n), parkRequest := some (n, g.seconds) }

/-- R74 ❶ to ❹: the ticket is given the new bay on this lift. -/
def Garage.reallocate (g : Garage) (l : Lift) (n : Nat) (t : Ticket) (b : Nat) : Garage :=
  let g := g.reserve b n
  let g := match t.bay with | some old => g.release old n | none => g
  let range := g.rangeFor (some l)
  g.modTicket n fun t => { t with bay := some b, location := .hall l, outOfRange := !inRange range t.hook }

/-- R73, R74, R75: an ALLOCATED ticket's car not yet presented. -/
def presentCar (l : Lift) (tag n : Nat) (t : Ticket) (e : Ev) : Ev :=
  if (t.bay.bind e.g.liftOfBay) = some l then e.modG fun g => g.present l tag n
  else
    match e.g.choose (.onLift l) t.cls t.estimate with
    | some (b, _) => e.modG fun g => (g.reallocate l n t b).present l tag n
    | none => e.alert AlertKind.wrongHall (w8 (liftCode l) ++ w32 tag ++ w16 n)

/-- R72: CAR_PRESENT. -/
def carPresent (l : Lift) (pl : List Byte) (e : Ev) : Ev :=
  let tag := u32 pl 0
  if (e.g.lift l).hall.isSome then hallNotExpected l tag e
  else
    match e.g.tickets.findKey fun t => t.tag == tag with
    | none => hallNotExpected l tag e
    | some n =>
      match e.g.ticket n with
      | none => hallNotExpected l tag e
      | some t =>
        if t.state ≠ .allocated ∨ (e.g.hallOf n).isSome = true then hallNotExpected l tag e else presentCar l tag n t e

/-- What the part does with a CAR_PRESENT. -/
def carPresentBody : Body := liftBody carPresent

/-- CAR_PRESENT (R72). -/
def execCarPresent (p : Port) (flags : Byte) (payload : List Byte) (s : State) : Host.Outcome State Fault Refusal :=
  s.frame p Kind.carPresent flags payload carPresentBody

/-! ### MOVE_DONE, MOVE_FAULT, MOVE_REFUSED (R136 to R141) -/

/-- R136 ❸ ❹: a report that matches no move record. -/
def discardByMatch (l : Lift) (kind : Byte) (number : Nat) (late : Bool) (e : Ev) : Ev :=
  discardReport l kind number (if late then AlertKind.lateMoveReport else AlertKind.moveMismatch) e

/-- R136, R137, R141: MOVE_DONE. -/
def moveDone (l : Lift) (pl : List Byte) (e : Ev) : Ev :=
  match (e.g.lift l).matchReport (u8 pl 0) with
  | .inFlight m => moveCompleted l m e
  | .unresolved m => placeAtDestination l m e
  | .late => discardByMatch l Kind.moveDone (u8 pl 0) true e
  | .mismatch => discardByMatch l Kind.moveDone (u8 pl 0) false e

/-- What the part does with a MOVE_DONE. -/
def moveDoneBody : Body := liftBody moveDone

/-- MOVE_DONE (R136). -/
def execMoveDone (p : Port) (flags : Byte) (payload : List Byte) (s : State) : Host.Outcome State Fault Refusal :=
  s.frame p Kind.moveDone flags payload moveDoneBody

/-- R141: a late MOVE_FAULT. -/
def lateFault (l : Lift) (m : Move) (pos : CarPosition) (e : Ev) : Ev :=
  match pos with
  | .atSource => placeAtSource l m e
  | .atDestination => placeAtDestination l m e
  | .unknown => e

/-- R136, R139, R141: MOVE_FAULT. -/
def moveFault (l : Lift) (pl : List Byte) (e : Ev) : Ev :=
  let pos := (carPositionOf (u8 pl 1)).getD .unknown
  match (e.g.lift l).matchReport (u8 pl 0) with
  | .inFlight m => moveFaulted l m pos e
  | .unresolved m => lateFault l m pos e
  | .late => discardByMatch l Kind.moveFault (u8 pl 0) true e
  | .mismatch => discardByMatch l Kind.moveFault (u8 pl 0) false e

/-- What the part does with a MOVE_FAULT. -/
def moveFaultBody : Body := liftBody moveFault

/-- MOVE_FAULT (R136). -/
def execMoveFault (p : Port) (flags : Byte) (payload : List Byte) (s : State) : Host.Outcome State Fault Refusal :=
  s.frame p Kind.moveFault flags payload moveFaultBody

/-- R138: MOVE_REFUSED for the move in flight, by its reason. -/
def moveWasRefused (l : Lift) (m : Move) (location : Bool) (e : Ev) : Ev :=
  if location then refusedLocation l m e else e.modG fun g => g.refusedNotReady l m

/-- R136, R138, R141: MOVE_REFUSED. -/
def moveRefused (l : Lift) (pl : List Byte) (e : Ev) : Ev :=
  match (e.g.lift l).matchReport (u8 pl 0) with
  | .inFlight m => moveWasRefused l m (u8 pl 1 == 1) e
  | .unresolved m => placeAtSource l m e
  | .late => discardByMatch l Kind.moveRefused (u8 pl 0) true e
  | .mismatch => discardByMatch l Kind.moveRefused (u8 pl 0) false e

/-- What the part does with a MOVE_REFUSED. -/
def moveRefusedBody : Body := liftBody moveRefused

/-- MOVE_REFUSED (R136). -/
def execMoveRefused (p : Port) (flags : Byte) (payload : List Byte) (s : State) : Host.Outcome State Fault Refusal :=
  s.frame p Kind.moveRefused flags payload moveRefusedBody

end Sys2Proof.Machine
end

