-- ==== Sys2Proof/Machine/OfficeLine.lean ====
section
/-! DEFINITION. Management of the lines: SET_LINE, LOAD_STATIONS, LOAD_PASS, STATUS, STATUS_CLEAR, RESTART (chapter 1, R44). -/

namespace Sys2Proof.Machine

/-! ### SET_LINE (R22) -/

/-- The settings that a SET_LINE will use, clamped as R2 gives. -/
def lineValues (pl : List Byte) (par : Parity) : LineSettings :=
  ⟨low8 pl 1 3, min (u8 pl 2) 240, par, clamp 4 64 (u8 pl 4)⟩

/-- The detail of a SET_LINE taken: the values that will be used (R198). -/
def lineDetail (r : LineRequest) : List Byte :=
  w8 (portCode r.port) ++ w8 r.settings.prescale ++ w8 r.settings.divisor ++ w8 (parityCode r.settings.parity)
    ++ w8 r.settings.window ++ wFlag r.enable

/-- R22: a SET_LINE taken: its settings wait for its reply, or take effect at once when the reply cannot be queued. -/
def State.setLineTaken (s : State) (c : Caller) (r : LineRequest) : State :=
  let queued := s.line.takes c.port Kind.reply
  let s := s.run fun e => e.replyMarked c Kind.setLine .taken (lineDetail r) (.lineReply r)
  if queued then s else s.lineRequestDue r

/-- What the part does with a SET_LINE (R22; log 21 for the item of a refusal). -/
def setLineBody : Body := fun c pl s =>
  match portOf (u8 pl 0), parityOf (u8 pl 3) with
  | none, _ => s.run fun e => e.badRequest c Kind.setLine 0
  | some _, none => s.run fun e => e.badRequest c Kind.setLine 3
  | some p, some par =>
    if flag8 pl 5 then s.setLineTaken c ⟨p, lineValues pl par, true⟩
    else
      match p with
      | .s => s.run fun e => e.reply c Kind.setLine .notApplicable (w8 5)
      | .g =>
        if s.garage.mode = .service then s.run fun e => e.reply c Kind.setLine .refused (w8 5)
        else s.setLineTaken c ⟨.g, lineValues pl par, false⟩

/-- SET_LINE (R22). -/
def execSetLine (p : Port) (flags : Byte) (payload : List Byte) (s : State) : Host.Outcome State Fault Refusal :=
  s.frame p Kind.setLine flags payload setLineBody

/-! ### Entries of the load frames -/

/-- Entries applied in frame order to a copy: each at its offset, the first failure ending the request with its result
and its position counted from 1. -/
def applyEntries {α : Type} (f : Nat → α → Except Result α) (base size : Nat) : Nat → Nat → α → Except (Result × Nat) α
  | 0, _, a => .ok a
  | k + 1, i, a =>
    match f (base + size * i) a with
    | .ok a' => applyEntries f base size k (i + 1) a'
    | .error r => .error (r, i + 1)

/-! ### LOAD_STATIONS (R4) -/

/-- The roles of a port's table (R3). -/
def allowsRole : Port → Role → Bool
  | .s, .podium => true
  | .s, .desk => true
  | .s, .cabinet => true
  | .s, .runnerBase => true
  | .s, .office => true
  | .g, .liftA => true
  | .g, .liftB => true
  | _, _ => false

/-- R4 ❻: the roles that SERVICE protects. -/
def Role.guarded : Role → Bool
  | .liftA => true
  | .liftB => true
  | .cabinet => true
  | _ => false

/-- R4: an entry that gives a station a role: in place, or at the end of the poll order. -/
def giveRole (n : Nat) (r : Role) (sts : List Station) : List Station :=
  if sts.any fun st => st.number == n then sts.map fun st => if st.number = n then { st with role := r } else st
  else sts ++ [⟨n, r, .active, 0, 0⟩]

/-- R4: one entry of a LOAD_STATIONS, checked and applied to the copy. -/
def stationEntry (pl : List Byte) (p : Port) (other : List Station) (service : Bool) (off : Nat) (sts : List Station) :
    Except Result (List Station) :=
  let n := u8 pl off
  let old := sts.find? fun st => st.number == n
  let guarded := service && (old.map fun st => st.role.guarded).getD false
  if n < 1 ∨ 126 < n then .error .badRequest
  else
    match roleOf (u8 pl (off + 1)) with
    | none => .error .badRequest
    | some none =>
      if old.isNone then .error .badRequest
      else if other.any fun st => st.number == n then .error .badRequest
      else if guarded then .error .refused
      else .ok (sts.filter fun st => st.number != n)
    | some (some r) =>
      if !allowsRole p r then .error .badRequest
      else if other.any fun st => st.number == n then .error .badRequest
      else if guarded && old.map Station.role != some r then .error .refused
      else .ok (giveRole n r sts)

/-- How many stations of a table have a role. -/
def roleCount (sts : List Station) (r : Role) : Nat := (sts.filter fun st => st.role == r).length

/-- R4: the check of the resulting table as a whole. -/
def tableStands (p : Port) (sts : List Station) : Bool :=
  decide (sts.length ≤ 16) && decide (roleCount sts .podium ≤ 4) && decide (roleCount sts .desk ≤ 1)
    && decide (roleCount sts .cabinet ≤ 1) && decide (roleCount sts .runnerBase ≤ 1)
    && decide (roleCount sts .office ≤ 1) && decide (roleCount sts .liftA ≤ 1) && decide (roleCount sts .liftB ≤ 1)
    && (p == .g || decide (0 < roleCount sts .office))

/-- The index of a station in a table. -/
def stationIndex (sts : List Station) (n : Nat) : Option Nat := sts.findIdx? fun st => st.number == n

/-- R4: where the poll position points after the table is replaced: at the station it pointed at, or at the first that
followed it and is still there, or at the first entry (log 20). -/
def movedPosition (old new : List Station) (pos : Nat) : Nat :=
  ((old.drop pos).findSome? fun st => stationIndex new st.number).getD 0

/-- R4: what the replacement of a port's table does to a visit. The removal of the station is recorded in the exchange in
progress, which then runs to its end; a visit between two exchanges ends. DESIGN CHOICE (log 20): a station that one request
removes and appends again is in the table before and after it, and counts as not removed. -/
def Visit.reload (awaiting : Bool) (sts : List Station) (v : Visit) : Option Visit :=
  if sts.any fun st => st.number == v.station then some v
  else if awaiting then some { v with removed := true }
  else none

/-- R4: the copy replaces a port's table. DESIGN CHOICE (log 20): when the poll position so moves to the first entry, the
poll cycle does not end, and `cyclePolled` stays as it was. -/
def PortState.reload (ps : PortState) (sts : List Station) : PortState :=
  { ps with
    stations := sts
    pollPos := movedPosition ps.stations sts ps.pollPos
    visit := ps.visit.bind fun v => v.reload ps.awaiting sts }

/-- R120 ❹: a lift whose station has left Port G's table, or no longer has its role there (log 19). -/
def loseUnserved (old new : List Station) (l : Lift) (e : Ev) : Ev :=
  match old.find? fun st => st.role == liftRole l with
  | some st =>
    if new.any fun st' => st'.number == st.number && st'.role == liftRole l then e else e.modG fun g => g.loseLift l
  | none => e

/-- The other port. -/
def otherPort : Port → Port
  | .s => .g
  | .g => .s

/-- R4: the result of a LOAD_STATIONS for a port: the new table, or a refusal with a position. -/
def State.loadedStations (s : State) (p : Port) (pl : List Byte) : Except (Result × Nat) (List Station) :=
  match applyEntries (stationEntry pl p (s.port (otherPort p)).stations (s.garage.mode == .service)) 2 2 (u8 pl 1) 0
      (s.port p).stations with
  | .error x => .error x
  | .ok sts => if tableStands p sts then .ok sts else .error (.notApplicable, 0)

/-- What the part does with a LOAD_STATIONS (R4, R197). -/
def loadStationsBody : Body := fun c pl s =>
  let refuse (r : Result) (pos : Nat) := s.run fun e => e.reply c Kind.loadStations r (w8 pos)
  if u8 pl 1 < 1 ∨ 8 < u8 pl 1 then refuse .badRequest 0
  else
    match portOf (u8 pl 0) with
    | none => refuse .badRequest 1
    | some p =>
      match s.loadedStations p pl with
      | .error (r, pos) => refuse r pos
      | .ok sts =>
        let old := (s.port p).stations
        (s.modPort p fun ps => ps.reload sts).run fun e =>
          let e := e.reply c Kind.loadStations .taken (w8 sts.length)
          match p with
          | .s => e
          | .g => settle (loseUnserved old sts .b (loseUnserved old sts .a e))

/-- LOAD_STATIONS (R4). -/
def execLoadStations (p : Port) (flags : Byte) (payload : List Byte) (s : State) : Host.Outcome State Fault Refusal :=
  s.frame p Kind.loadStations flags payload loadStationsBody

/-! ### LOAD_PASS (R20) -/

/-- R20 ❸ to ❺: one entry of a LOAD_PASS, checked and added to the entries loaded. -/
def passEntry (pl : List Byte) (off : Nat) (loaded : List PassEntry) : Except Result (List PassEntry) :=
  let source := u8 pl off
  let dest := u8 pl (off + 1)
  if 126 < source ∨ dest < 1 ∨ 126 < dest then .error .badRequest
  else if u8 pl (off + 3) < u8 pl (off + 2) then .error .badRequest
  else
    match actionOf (u8 pl (off + 4)) with
    | none => .error .badRequest
    | some a =>
      .ok (loaded ++ [⟨if source = 0 then none else some source, dest, u8 pl (off + 2), u8 pl (off + 3), a⟩])

/-- R20: the table after a LOAD_PASS, or the position at fault. -/
def loadedPass (table : List PassEntry) (pl : List Byte) : Except (Result × Nat) (List PassEntry) :=
  let start := u8 pl 0
  let n := u8 pl 2
  if 8 < n ∨ table.length < start ∨ 32 < start + n then .error (.badRequest, 0)
  else
    match applyEntries (passEntry pl) 3 5 n 0 [] with
    | .error x => .error x
    | .ok entries =>
      .ok (table.take start ++ entries ++ if flag8 pl 1 then [] else table.drop (start + n))

/-- What the part does with a LOAD_PASS (R20). -/
def loadPassBody : Body := fun c pl s =>
  match loadedPass s.line.passTable pl with
  | .error (r, pos) => s.run fun e => e.reply c Kind.loadPass r (w8 pos)
  | .ok table =>
    State.run { s with line := { s.line with passTable := table } } fun e =>
      e.reply c Kind.loadPass .taken (w8 table.length)

/-- LOAD_PASS (R20). -/
def execLoadPass (p : Port) (flags : Byte) (payload : List Byte) (s : State) : Host.Outcome State Fault Refusal :=
  s.frame p Kind.loadPass flags payload loadPassBody

/-! ### STATUS and STATUS_CLEAR (R23, R199) -/

/-- The ticket states in code order (R199). -/
def ticketStates : List TicketState :=
  [.allocated, .parking, .parked, .overflow, .queued, .retrieving, .held, .ready, .outbound, .check]

/-- A port's part of the status record (R199). -/
def portStatus (ps : PortState) : List Byte := w8 (portModeCode ps.mode) ++ w16 ps.faultTally ++ w16 ps.dropTally

/-- The status record, 40 characters (R199). -/
def statusRecord (s : State) : List Byte :=
  w8 (modeCode s.garage.mode) ++ w8 (liftStateCode s.garage.liftA.state) ++ w8 (liftStateCode s.garage.liftB.state)
    ++ ticketStates.flatMap (fun st => w16 (s.garage.countState st))
    ++ w8 s.garage.queue.length ++ w16 s.garage.readyCount ++ w8 s.garage.overflowCount
    ++ portStatus s.line.s ++ portStatus s.line.g ++ wFlag s.line.pollHold ++ w16 s.line.noticeDrops

/-- What the part does with a STATUS (R23). -/
def statusBody : Body := fun c _ s =>
  let record := statusRecord s
  s.run fun e => e.reply c Kind.status .taken record

/-- STATUS (R23). -/
def execStatus (p : Port) (flags : Byte) (payload : List Byte) (s : State) : Host.Outcome State Fault Refusal :=
  s.frame p Kind.status flags payload statusBody

/-- Both ports' tallies and the notice drop tally set to 0 (R23). -/
def Line.clearTallies (ln : Line) : Line :=
  { ln with
    s := { ln.s with faultTally := 0, dropTally := 0 }
    g := { ln.g with faultTally := 0, dropTally := 0 }
    noticeDrops := 0 }

/-- What the part does with a STATUS_CLEAR (R23). -/
def statusClearBody : Body := fun c _ s =>
  State.run { s with line := s.line.clearTallies } fun e => e.reply c Kind.statusClear .taken []

/-- STATUS_CLEAR (R23). -/
def execStatusClear (p : Port) (flags : Byte) (payload : List Byte) (s : State) : Host.Outcome State Fault Refusal :=
  s.frame p Kind.statusClear flags payload statusClearBody

/-! ### RESTART (R44) -/

/-- What the part does with a RESTART: the warm start waits for its reply, or begins now when the reply cannot be
queued. -/
def restartBody : Body := fun c _ s =>
  if s.line.takes c.port Kind.reply then s.run fun e => e.replyMarked c Kind.restart .taken [] .restartReply
  else s.warmStart

/-- RESTART (R44). -/
def execRestart (p : Port) (flags : Byte) (payload : List Byte) (s : State) : Host.Outcome State Fault Refusal :=
  s.frame p Kind.restart flags payload restartBody

end Sys2Proof.Machine
end

