-- ==== Sys2Proof/Machine/OfficeGarage.lean ====
section
/-! DEFINITION. Management of the garage: LOAD_ZONES, LOAD_STACKS, LOAD_BAYS, SET_LANES, LOAD_CABINET, ENTER_SERVICE,
LEAVE_SERVICE, BAY_SERVICE, QUERY_BAY, HOOK_SERVICE (chapters 2 and 5). -/

namespace Sys2Proof.Machine

/-! ### The load requests (R35 to R37) -/

/-- R35 ❷ ❸: one entry of a LOAD_ZONES. -/
def zoneEntry (pl : List Byte) (off : Nat) (zones : Table Zone) : Except Result (Table Zone) :=
  let z := u8 pl off
  if 7 < z then .error .badRequest
  else if flag8 pl (off + 1) then .ok (zones.remove z)
  else
    match liftOf (u8 pl (off + 2)) with
    | none => .error .badRequest
    | some l => .ok (zones.put z ⟨l, low8 pl (off + 3) 2, low8 pl (off + 4) 4⟩)

/-- R36 ❷ to ❹: one entry of a LOAD_STACKS. -/
def stackEntry (pl : List Byte) (off : Nat) (recs : Table Stack) : Except Result (Table Stack) :=
  let n := u8 pl off
  if 127 < n then .error .badRequest
  else if flag8 pl (off + 1) then .ok (recs.remove n)
  else if 7 < u8 pl (off + 2) then .error .badRequest
  else if u8 pl (off + 3) < 1 ∨ 3 < u8 pl (off + 3) then .error .badRequest
  else .ok (recs.put n ⟨u8 pl (off + 2), u8 pl (off + 3)⟩)

/-- A two-bit field of the attribute byte of a LOAD_BAYS entry (R193). -/
def attrField (pl : List Byte) (off shift : Nat) : Nat := u8 pl off / 2 ^ shift % 4

/-- R37 ❷ to ❹: one entry of a LOAD_BAYS. -/
def bayEntry (pl : List Byte) (off : Nat) (recs : Table Bay) : Except Result (Table Bay) :=
  let n := u8 pl off
  let at3 := off + 3
  if bit8 pl at3 0 then .ok (recs.remove n)
  else if 127 < u8 pl (off + 1) then .error .badRequest
  else if u8 pl (off + 2) < 1 ∨ 3 < u8 pl (off + 2) then .error .badRequest
  else if 1 < attrField pl at3 1 ∨ 1 < attrField pl at3 3 ∨ 1 < attrField pl at3 5 then .error .badRequest
  else
    .ok (recs.put n
      ⟨u8 pl (off + 1), u8 pl (off + 2), attrField pl at3 1 == 1, attrField pl at3 3 == 1, attrField pl at3 5 == 1,
        .inService, .free⟩)

/-- R35 ❶: the entries of a load request applied to a copy, or the position at fault. -/
def loadEntries {α : Type} (f : Nat → α → Except Result α) (size : Nat) (pl : List Byte) (a : α) :
    Except (Result × Nat) α :=
  if u8 pl 0 < 1 ∨ 8 < u8 pl 0 then .error (.badRequest, 0) else applyEntries f 1 size (u8 pl 0) 0 a

/-- The reply to a load request: the entries applied, or the position at fault (R198). -/
def loadReply {α : Type} (c : Caller) (kind : Byte) (pl : List Byte) (r : Except (Result × Nat) α)
    (apply : α → Garage → Garage) (e : Ev) : Ev :=
  match r with
  | .error (code, pos) => e.reply c kind code (w8 pos)
  | .ok a => (e.modG (apply a)).reply c kind .taken (w8 (u8 pl 0))

/-- R35: LOAD_ZONES. -/
def loadZones (c : Caller) (pl : List Byte) (e : Ev) : Ev :=
  loadReply c Kind.loadZones pl (loadEntries (zoneEntry pl) 5 pl e.g.zoneRecs) (fun z g => { g with zoneRecs := z }) e

/-- What the part does with a LOAD_ZONES. -/
def loadZonesBody : Body := evBody loadZones

/-- LOAD_ZONES (R35). -/
def execLoadZones (p : Port) (flags : Byte) (payload : List Byte) (s : State) : Host.Outcome State Fault Refusal :=
  s.frame p Kind.loadZones flags payload loadZonesBody

/-- R36: LOAD_STACKS. -/
def loadStacks (c : Caller) (pl : List Byte) (e : Ev) : Ev :=
  loadReply c Kind.loadStacks pl (loadEntries (stackEntry pl) 4 pl e.g.stackRecs) (fun z g => { g with stackRecs := z }) e

/-- What the part does with a LOAD_STACKS. -/
def loadStacksBody : Body := evBody loadStacks

/-- LOAD_STACKS (R36). -/
def execLoadStacks (p : Port) (flags : Byte) (payload : List Byte) (s : State) : Host.Outcome State Fault Refusal :=
  s.frame p Kind.loadStacks flags payload loadStacksBody

/-- R37: LOAD_BAYS. -/
def loadBays (c : Caller) (pl : List Byte) (e : Ev) : Ev :=
  loadReply c Kind.loadBays pl (loadEntries (bayEntry pl) 4 pl e.g.bayRecs) (fun z g => { g with bayRecs := z }) e

/-- What the part does with a LOAD_BAYS. -/
def loadBaysBody : Body := evBody loadBays

/-- LOAD_BAYS (R37). -/
def execLoadBays (p : Port) (flags : Byte) (payload : List Byte) (s : State) : Host.Outcome State Fault Refusal :=
  s.frame p Kind.loadBays flags payload loadBaysBody

/-! ### SET_LANES (R33) -/

/-- R33: SET_LANES, each capacity clamped into 1 to 4. -/
def setLanes (c : Caller) (pl : List Byte) (e : Ev) : Ev :=
  let a := clamp 1 4 (u8 pl 0)
  let b := clamp 1 4 (u8 pl 1)
  (e.modG fun g =>
      { g with
        liftA := { g.liftA with laneCapacity := a }
        liftB := { g.liftB with laneCapacity := b } }).reply c Kind.setLanes .taken (w8 a ++ w8 b)

/-- What the part does with a SET_LANES. -/
def setLanesBody : Body := evBody setLanes

/-- SET_LANES (R33). -/
def execSetLanes (p : Port) (flags : Byte) (payload : List Byte) (s : State) : Host.Outcome State Fault Refusal :=
  s.frame p Kind.setLanes flags payload setLanesBody

/-! ### LOAD_CABINET (R85) -/

/-- R85 ❷: a range that may be loaded. -/
def rangeStands (first last : Nat) : Bool := decide (1 ≤ first) && decide (last ≤ 320) && decide (first ≤ last)

/-- R85: the hook records for a cabinet size: those kept, and the added ones FREE. -/
def resizeHooks (hooks : Table Hook) (size : Nat) : Table Hook :=
  (List.range size).map fun i => (i + 1, (hooks.find (i + 1)).getD ⟨.free, none, none⟩)

/-- The first item at fault of a LOAD_CABINET: 0 the size, 1 to 3 a range (R85, R198). -/
def cabinetFault (pl : List Byte) : Option Nat :=
  if u16 pl 0 < 1 ∨ 320 < u16 pl 0 then some 0
  else if !rangeStands (u16 pl 2) (u16 pl 4) then some 1
  else if !rangeStands (u16 pl 6) (u16 pl 8) then some 2
  else if !rangeStands (u16 pl 10) (u16 pl 12) then some 3
  else none

/-- R85: LOAD_CABINET. -/
def loadCabinet (c : Caller) (pl : List Byte) (e : Ev) : Ev :=
  match cabinetFault pl with
  | some item => e.badRequest c Kind.loadCabinet item
  | none =>
    (e.modG fun g =>
        { g with
          cabinetSize := u16 pl 0
          hooks := resizeHooks g.hooks (u16 pl 0)
          rangeA := some (u16 pl 2, u16 pl 4)
          rangeB := some (u16 pl 6, u16 pl 8)
          rangeO := some (u16 pl 10, u16 pl 12) }).reply c Kind.loadCabinet .taken
      (w16 (u16 pl 0) ++ w16 (u16 pl 2) ++ w16 (u16 pl 4) ++ w16 (u16 pl 6) ++ w16 (u16 pl 8) ++ w16 (u16 pl 10)
        ++ w16 (u16 pl 12))

/-- What the part does with a LOAD_CABINET. -/
def loadCabinetBody : Body := evBody loadCabinet

/-- LOAD_CABINET (R85). -/
def execLoadCabinet (p : Port) (flags : Byte) (payload : List Byte) (s : State) : Host.Outcome State Fault Refusal :=
  s.frame p Kind.loadCabinet flags payload loadCabinetBody

/-! ### ENTER_SERVICE and LEAVE_SERVICE (R38 to R40) -/

/-- R38 check 1, for one stack number. -/
def Garage.stackComplete (g : Garage) (n : Nat) : Bool :=
  match g.stackRecs.find n with
  | some st =>
    ((List.range st.depth).all fun i => (g.baysAt n (i + 1)).length == 1)
      && g.bayRecs.all fun kv => kv.2.stack != n || decide (kv.2.position ≤ st.depth)
  | none => g.bayRecs.all fun kv => kv.2.stack != n

/-- R38 check 1: the first stack at fault. -/
def Garage.check1 (g : Garage) : Option Nat := (List.range 128).find? fun n => !g.stackComplete n

/-- R38 check 2: the first loaded stack that names an unloaded zone. -/
def Garage.check2 (g : Garage) : Option Nat :=
  (g.stackRecs.find? fun kv => (g.zoneRecs.find kv.2.zone).isNone).map Prod.fst

/-- R38 check 3: the first loaded zone whose lift has no station in Port G's table. -/
def check3 (g : Garage) (stations : List Station) : Option Nat :=
  (g.zoneRecs.find? fun kv => !stations.any fun st => st.role == liftRole kv.2.lift).map Prod.fst

/-- R38 check 4: no loaded bay has role PARK. -/
def Garage.check4 (g : Garage) : Option Nat := if g.bayRecs.any fun kv => !kv.2.swap then none else some 0

/-- A range is set and lies within the cabinet size. -/
def rangeFits (size : Nat) : Option (Nat × Nat) → Bool
  | some (_, last) => decide (last ≤ size)
  | none => false

/-- Two ranges share a hook. -/
def rangesMeet : Option (Nat × Nat) → Option (Nat × Nat) → Bool
  | some (f, l), some (f', l') => decide (f ≤ l') && decide (f' ≤ l)
  | _, _ => false

/-- R38 check 5: the ranges in increasing number; an overlap is reported at the higher of the two. -/
def Garage.check5 (g : Garage) : Option Nat :=
  if !rangeFits g.cabinetSize g.rangeA then some 0
  else if !rangeFits g.cabinetSize g.rangeB || rangesMeet g.rangeA g.rangeB then some 1
  else if !rangeFits g.cabinetSize g.rangeO || rangesMeet g.rangeA g.rangeO || rangesMeet g.rangeB g.rangeO then some 2
  else none

/-- R38: the first check that fails, with its record. -/
def serviceFault (g : Garage) (stations : List Station) : Option (Nat × Nat) :=
  match g.check1 with
  | some n => some (1, n)
  | none =>
    match g.check2 with
    | some n => some (2, n)
    | none =>
      match check3 g stations with
      | some n => some (3, n)
      | none =>
        match g.check4 with
        | some n => some (4, n)
        | none => g.check5.map fun n => (5, n)

/-- R39: an IN_SERVICE bay that lies deeper than an OUT bay of its stack. -/
def Garage.behindOut (g : Garage) (b : Bay) : Bool :=
  b.service == .inService &&
    g.bayRecs.any fun kv => kv.2.stack == b.stack && decide (kv.2.position < b.position) && kv.2.service == .out

/-- R39: the bays behind closed bays set OUT, and the mode SERVICE. -/
def Garage.enterService (g : Garage) : Garage :=
  { g with
    bayRecs := g.bayRecs.mapAll fun b => if g.behindOut b then { b with service := .out } else b
    mode := .service }

/-- R38, R39: ENTER_SERVICE, given Port G's station table. -/
def enterService (stations : List Station) (c : Caller) (e : Ev) : Ev :=
  match serviceFault e.g stations with
  | some (check, n) => e.reply c Kind.enterService .refused (w8 check ++ w8 n)
  | none =>
    (e.modG Garage.enterService).reply c Kind.enterService .taken (w16 (e.g.bayRecs.count e.g.behindOut))

/-- What the part does with an ENTER_SERVICE. -/
def enterServiceBody : Body := fun c _ s => s.run fun e => enterService s.line.g.stations c e

/-- ENTER_SERVICE (R38). -/
def execEnterService (p : Port) (flags : Byte) (payload : List Byte) (s : State) : Host.Outcome State Fault Refusal :=
  s.frame p Kind.enterService flags payload enterServiceBody

/-- R40: LEAVE_SERVICE. -/
def leaveService (c : Caller) (_ : List Byte) (e : Ev) : Ev :=
  if e.g.tickets.isEmpty then (e.modG fun g => { g with mode := .commissioning }).reply c Kind.leaveService .taken []
  else e.reply c Kind.leaveService .notApplicable []

/-- What the part does with a LEAVE_SERVICE. -/
def leaveServiceBody : Body := evBody leaveService

/-- LEAVE_SERVICE (R40). -/
def execLeaveService (p : Port) (flags : Byte) (payload : List Byte) (s : State) : Host.Outcome State Fault Refusal :=
  s.frame p Kind.leaveService flags payload leaveServiceBody

/-! ### BAY_SERVICE (R41, R42) -/

/-- R41: the service state of a bay closed with its stack. -/
def Bay.closed (b : Bay) : ServiceState :=
  match b.service with
  | .inService => if b.occ = .free then .out else .outPending
  | .returnPending => .out
  | st => st

/-- R41: a bay is the named one or deeper in its stack. -/
def closesWith (named : Nat) (b : Bay) (kv : Nat × Bay) : Bool :=
  kv.1 == named || (kv.2.stack == b.stack && decide (b.position < kv.2.position))

/-- R41: BAY_SERVICE in direction out: the bays after it. -/
def Garage.closeBays (g : Garage) (n : Nat) (b : Bay) : Garage :=
  { g with
    bayRecs := g.bayRecs.map fun kv => if closesWith n b kv then (kv.1, { kv.2 with service := kv.2.closed }) else kv }

/-- R41: the number of bays that direction out changes. -/
def Garage.closeCount (g : Garage) (n : Nat) (b : Bay) : Nat :=
  (g.bayRecs.filter fun kv => closesWith n b kv && kv.2.closed != kv.2.service).length

/-- R42: a bay in front is OUT or OUT_PENDING. -/
def Garage.closedInFront (g : Garage) (b : Bay) : Bool :=
  (g.front b).any fun kv => kv.2.service == .out || kv.2.service == .outPending

/-- R42: the service state of the named bay after direction in. -/
def Garage.reopened (g : Garage) (b : Bay) : ServiceState :=
  match b.service with
  | .outPending => .inService
  | .out => if g.frontFree b then .inService else .returnPending
  | st => st

/-- R198: the number of bays changed, in one character. DESIGN CHOICE (log 34): in COMMISSIONING all 256 bays may name one
stack (R37), and what stands for a number above 255 is a free value. -/
def changedCount (n changed seconds : Nat) : Byte :=
  if changed ≤ 255 then BitVec.ofNat 8 changed else Config.baysChanged n seconds

/-- The reply to a BAY_SERVICE taken (R41, R42, R198). -/
def bayServiceReply (c : Caller) (n : Nat) (st : ServiceState) (changed : Nat) (e : Ev) : Ev :=
  e.reply c Kind.bayService .taken (w16 n ++ w8 (serviceStateCode st) ++ [changedCount n changed e.g.seconds])

/-- R42: direction in. -/
def bayIn (c : Caller) (n : Nat) (b : Bay) (e : Ev) : Ev :=
  if e.g.closedInFront b then
    e.reply c Kind.bayService .notApplicable [Config.bayServiceItem n e.g.seconds]
  else
    let st := e.g.reopened b
    bayServiceReply c n st (if st = b.service then 0 else 1) (e.modG fun g =>
      let g := g.modBay n fun b => { b with service := st }
      if st = .inService ∧ b.service ≠ .inService then g.reportBay b else g)

/-- R41, R42: BAY_SERVICE (log 21, 22 for the items of the refusals). -/
def bayService (c : Caller) (pl : List Byte) (e : Ev) : Ev :=
  let n := u16 pl 0
  if 255 < n then e.badRequest c Kind.bayService 0
  else
    match directionOf (u8 pl 2) with
    | none => e.badRequest c Kind.bayService 2
    | some isIn =>
      match e.g.bay n with
      | none => e.reply c Kind.bayService .notApplicable (w8 0)
      | some b =>
        if isIn then bayIn c n b e
        else bayServiceReply c n b.closed (e.g.closeCount n b) (e.modG fun g => g.closeBays n b)

/-- What the part does with a BAY_SERVICE. -/
def bayServiceBody : Body := workBody bayService

/-- BAY_SERVICE (R41). -/
def execBayService (p : Port) (flags : Byte) (payload : List Byte) (s : State) : Host.Outcome State Fault Refusal :=
  s.frame p Kind.bayService flags payload bayServiceBody

/-! ### QUERY_BAY (R43) -/

/-- The detail of a QUERY_BAY, 16 characters (R198). -/
def bayRecord (g : Garage) (n : Nat) : List Byte :=
  let b := g.bay n
  let st := b.bind fun b => g.stackRecs.find b.stack
  let z := st.bind fun st => g.zoneRecs.find st.zone
  w16 n ++ wFlag b.isSome ++ w8 (orFF (b.map Bay.stack)) ++ w8 (orZero (b.map Bay.position))
    ++ w8 (orFF (b.map fun b => flagCode b.large)) ++ w8 (orFF (b.map fun b => flagCode b.charger))
    ++ w8 (orFF (b.map fun b => flagCode b.swap)) ++ w8 (orFF (b.map fun b => serviceStateCode b.service))
    ++ w8 (orFF (b.map fun b => occupancyCode b.occ)) ++ w16 (orZero (b.bind fun b => b.occ.ticket?))
    ++ w8 (orFF (st.map Stack.zone)) ++ w8 (orFF (st.map Stack.depth)) ++ w8 (orFF (z.map fun z => liftCode z.lift))
    ++ w8 (orFF (z.map Zone.level))

/-- R43: QUERY_BAY. -/
def queryBay (c : Caller) (pl : List Byte) (e : Ev) : Ev :=
  if 255 < u16 pl 0 then e.badRequest c Kind.queryBay 0
  else e.reply c Kind.queryBay .taken (bayRecord e.g (u16 pl 0))

/-- What the part does with a QUERY_BAY. -/
def queryBayBody : Body := evBody queryBay

/-- QUERY_BAY (R43). -/
def execQueryBay (p : Port) (flags : Byte) (payload : List Byte) (s : State) : Host.Outcome State Fault Refusal :=
  s.frame p Kind.queryBay flags payload queryBayBody

/-! ### HOOK_SERVICE (R96) -/

/-- The detail of a HOOK_SERVICE, 9 characters (R198). -/
def hookDetail (n : Nat) (h : Hook) : List Byte :=
  w16 n ++ w8 (hookStateCode h.state) ++ w16 (orZero h.ticket) ++ w32 (orZero h.tag)

/-- R96: a hook in service or out of it, when its state lets it. -/
def turnHook (c : Caller) (n : Nat) (h : Hook) (src dst : HookState) (e : Ev) : Ev :=
  if h.state = src then
    (e.modG fun g => g.modHook n fun h => { h with state := dst }).reply c Kind.hookService .taken
      (hookDetail n { h with state := dst })
  else e.reply c Kind.hookService .notApplicable (hookDetail n h)

/-- R96: HOOK_SERVICE. -/
def hookService (c : Caller) (pl : List Byte) (e : Ev) : Ev :=
  match e.g.hooks.find (u16 pl 0) with
  | none => e.badRequest c Kind.hookService 0
  | some h =>
    match directionOf (u8 pl 2) with
    | none => e.badRequest c Kind.hookService 2
    | some true => turnHook c (u16 pl 0) h .disabled .free e
    | some false => turnHook c (u16 pl 0) h .free .disabled e

/-- What the part does with a HOOK_SERVICE. -/
def hookServiceBody : Body := evBody hookService

/-- HOOK_SERVICE (R96). -/
def execHookService (p : Port) (flags : Byte) (payload : List Byte) (s : State) : Host.Outcome State Fault Refusal :=
  s.frame p Kind.hookService flags payload hookServiceBody

end Sys2Proof.Machine
end

