-- ==== Sys2Proof/Machine/OfficeSettings.lean ====
section
/-! DEFINITION. Settings and lift management: SET_WEIGHTS, SET_LIMITS, SET_FLOOR, SET_TIMES, SET_CLOCK, SET_MEASURE,
LIFT_SERVICE, LIFT_RESOLVE, LIFT_REPORT (chapters 3, 6, 7, 10). -/

namespace Sys2Proof.Machine

/-! ### SET_WEIGHTS (R60) -/

/-- The six weights that a SET_WEIGHTS uses: each above 15 is used as 15. -/
def weightsUsed (pl : List Byte) : Weights :=
  ⟨min (u8 pl 0) 15, min (u8 pl 1) 15, min (u8 pl 2) 15, min (u8 pl 3) 15, min (u8 pl 4) 15, min (u8 pl 5) 15⟩

/-- R60: SET_WEIGHTS. -/
def setWeights (c : Caller) (pl : List Byte) (e : Ev) : Ev :=
  let w := weightsUsed pl
  (e.modG fun g => { g with weights := w }).reply c Kind.setWeights .taken
    (w8 w.wB ++ w8 w.wD ++ w8 w.wL ++ w8 w.wE ++ w8 w.wC ++ w8 w.wS)

/-- What the part does with a SET_WEIGHTS. -/
def setWeightsBody : Body := evBody setWeights

/-- SET_WEIGHTS (R60). -/
def execSetWeights (p : Port) (flags : Byte) (payload : List Byte) (s : State) : Host.Outcome State Fault Refusal :=
  s.frame p Kind.setWeights flags payload setWeightsBody

/-! ### SET_LIMITS (R61) -/

/-- A stay threshold outside its range (R61 ❶). -/
def badThreshold (t : Nat) : Bool := decide (t < 1) || decide (2880 < t)

/-- The first field at fault of a SET_LIMITS (R61 ❶, log 21). -/
def limitsFault (pl : List Byte) : Option Nat :=
  if badThreshold (u16 pl 2) then some 2
  else if badThreshold (u16 pl 4) then some 4
  else if u16 pl 4 ≤ u16 pl 2 then some 2
  else none

/-- The four limits that a SET_LIMITS uses (R61 ❷ ❸). -/
def limitsUsed (pl : List Byte) : Limits := ⟨clamp 30 1440 (u16 pl 0), u16 pl 2, u16 pl 4, min (u8 pl 6) 64⟩

/-- R61: SET_LIMITS. -/
def setLimits (c : Caller) (pl : List Byte) (e : Ev) : Ev :=
  match limitsFault pl with
  | some item => e.badRequest c Kind.setLimits item
  | none =>
    let k := limitsUsed pl
    (e.modG fun g => { g with limits := k }).reply c Kind.setLimits .taken
      (w16 k.defaultStay ++ w16 k.t1 ++ w16 k.t2 ++ w8 k.overflowCapacity)

/-- What the part does with a SET_LIMITS. -/
def setLimitsBody : Body := evBody setLimits

/-- SET_LIMITS (R61). -/
def execSetLimits (p : Port) (flags : Byte) (payload : List Byte) (s : State) : Host.Outcome State Fault Refusal :=
  s.frame p Kind.setLimits flags payload setLimitsBody

/-! ### SET_FLOOR (R108) -/

/-- R108: SET_FLOOR. -/
def setFloor (c : Caller) (pl : List Byte) (e : Ev) : Ev :=
  let f := min (u8 pl 0) 7
  let k := clamp 1 16 (u8 pl 1)
  let q := min (u8 pl 2) 7
  (e.modG fun g => { g with floor := f, podiumLimit := k, parkLevel := q }).reply c Kind.setFloor .taken
    (w8 f ++ w8 k ++ w8 q)

/-- What the part does with a SET_FLOOR. -/
def setFloorBody : Body := workBody setFloor

/-- SET_FLOOR (R108). -/
def execSetFloor (p : Port) (flags : Byte) (payload : List Byte) (s : State) : Host.Outcome State Fault Refusal :=
  s.frame p Kind.setFloor flags payload setFloorBody

/-! ### SET_TIMES (R180) -/

/-- R180: SET_TIMES, each period clamped into the range of its kind. -/
def setTimes (c : Caller) (pl : List Byte) (e : Ev) : Ev :=
  let m := clamp 30 900 (u16 pl 0)
  let k := clamp 30 1800 (u16 pl 2)
  let h := clamp 60 7200 (u16 pl 4)
  (e.modG fun g => { g with movePeriod := m, pickupPeriod := k, holdPeriod := h }).reply c Kind.setTimes .taken
    (w16 m ++ w16 k ++ w16 h)

/-- What the part does with a SET_TIMES. -/
def setTimesBody : Body := evBody setTimes

/-- SET_TIMES (R180). -/
def execSetTimes (p : Port) (flags : Byte) (payload : List Byte) (s : State) : Host.Outcome State Fault Refusal :=
  s.frame p Kind.setTimes flags payload setTimesBody

/-! ### SET_CLOCK (R178) -/

/-- R178: the forecourt clock set, or left as it is. -/
def Garage.setClock (g : Garage) (set : Bool) (minute : Nat) : Garage :=
  if set then { g with minute := minute, secsIntoMinute := 0 } else g

/-- R178: SET_CLOCK. -/
def setClock (c : Caller) (pl : List Byte) (e : Ev) : Ev :=
  let e := e.modG fun g => g.setClock (flag8 pl 0) (u32 pl 1)
  e.reply c Kind.setClock .taken (w32 e.g.minute ++ w8 e.g.secsIntoMinute ++ w32 e.g.seconds)

/-- What the part does with a SET_CLOCK. -/
def setClockBody : Body := evBody setClock

/-- SET_CLOCK (R178). -/
def execSetClock (p : Port) (flags : Byte) (payload : List Byte) (s : State) : Host.Outcome State Fault Refusal :=
  s.frame p Kind.setClock flags payload setClockBody

/-! ### SET_MEASURE (R184) -/

/-- R184: SET_MEASURE; the setting is an enumerated code. -/
def setMeasure (c : Caller) (pl : List Byte) (e : Ev) : Ev :=
  if 1 < u8 pl 0 then e.badRequest c Kind.setMeasure 0
  else (e.modG fun g => { g with measuring := u8 pl 0 == 1 }).reply c Kind.setMeasure .taken (w8 (u8 pl 0))

/-- What the part does with a SET_MEASURE. -/
def setMeasureBody : Body := evBody setMeasure

/-- SET_MEASURE (R184). -/
def execSetMeasure (p : Port) (flags : Byte) (payload : List Byte) (s : State) : Host.Outcome State Fault Refusal :=
  s.frame p Kind.setMeasure flags payload setMeasureBody

/-! ### LIFT_SERVICE (R122) -/

/-- R122: the lift's station is heard: in Port G's table, not SILENT, its port not DISABLED. -/
def Line.hears (ln : Line) (l : Lift) : Bool :=
  ln.g.mode != .disabled && ln.g.stations.any fun st => st.role == liftRole l && st.poll == .active

/-- R122: direction off. -/
def Garage.serviceOff (g : Garage) (l : Lift) : Garage :=
  match (g.lift l).state with
  | .moving => g.modLift l fun u => { u with serviceOn := false, offPending := true }
  | .out => g.modLift l fun u => { u with serviceOn := false }
  | _ => (g.stopIdleLift l .out).modLift l fun u => { u with serviceOn := false }

/-- R122: direction on; `heard` says whether the lift's station is heard. -/
def LiftUnit.serviceIn (u : LiftUnit) (heard : Bool) : LiftUnit :=
  match u.state with
  | .faulted => { u with serviceOn := true, state := if heard then .notReady else .offline }
  | .out => { u with serviceOn := true, state := if heard then .notReady else .offline }
  | .moving => { u with serviceOn := true, offPending := false }
  | _ => { u with serviceOn := true }

/-- R122: direction on is not applicable to a FAULTED or OUT lift with an unresolved move. -/
def LiftUnit.mustResolve (u : LiftUnit) : Bool := (u.state == .faulted || u.state == .out) && u.unresolved.isSome

/-- A reply to LIFT_SERVICE with the lift's state after the request (R198). -/
def liftServiceReply (c : Caller) (l : Lift) (r : Result) (e : Ev) : Ev :=
  e.reply c Kind.liftService r (w8 (liftCode l) ++ w8 (liftStateCode (e.g.lift l).state))

/-- R122: LIFT_SERVICE, given which lifts' stations are heard. -/
def liftService (heard : Lift → Bool) (c : Caller) (pl : List Byte) (e : Ev) : Ev :=
  match liftOf (u8 pl 0), directionOf (u8 pl 1) with
  | none, _ => e.badRequest c Kind.liftService 0
  | some _, none => e.badRequest c Kind.liftService 1
  | some l, some false => liftServiceReply c l .taken (e.modG fun g => g.serviceOff l)
  | some l, some true =>
    if (e.g.lift l).mustResolve then liftServiceReply c l .notApplicable e
    else liftServiceReply c l .taken (e.modG fun g => g.modLift l fun u => u.serviceIn (heard l))

/-- What the part does with a LIFT_SERVICE. -/
def liftServiceBody : Body := fun c pl s => s.run fun e => settle (liftService s.line.hears c pl e)

/-- LIFT_SERVICE (R122). -/
def execLiftService (p : Port) (flags : Byte) (payload : List Byte) (s : State) : Host.Outcome State Fault Refusal :=
  s.frame p Kind.liftService flags payload liftServiceBody

/-! ### LIFT_RESOLVE (R142) -/

/-- R142: the move is resolved at the position named, after the reply. -/
def resolveAt (c : Caller) (l : Lift) (m : Move) (destination : Bool) (e : Ev) : Ev :=
  let e := e.reply c Kind.liftResolve .taken (w8 m.number ++ w16 m.ticket)
  if destination then placeAtDestination l m e else placeAtSource l m e

/-- R142: LIFT_RESOLVE. -/
def liftResolve (c : Caller) (pl : List Byte) (e : Ev) : Ev :=
  match liftOf (u8 pl 0) with
  | none => e.badRequest c Kind.liftResolve 0
  | some l =>
    if 1 < u8 pl 1 then e.badRequest c Kind.liftResolve 1
    else
      match (e.g.lift l).unresolved with
      | none => e.reply c Kind.liftResolve .notApplicable []
      | some m => resolveAt c l m (u8 pl 1 == 1) e

/-- What the part does with a LIFT_RESOLVE. -/
def liftResolveBody : Body := workBody liftResolve

/-- LIFT_RESOLVE (R142). -/
def execLiftResolve (p : Port) (flags : Byte) (payload : List Byte) (s : State) : Host.Outcome State Fault Refusal :=
  s.frame p Kind.liftResolve flags payload liftResolveBody

/-! ### LIFT_REPORT (R190) -/

/-- The detail of a LIFT_REPORT, 21 characters (R198). -/
def liftRecord (g : Garage) (l : Lift) : List Byte :=
  let u := g.lift l
  w8 (liftCode l) ++ w8 (liftStateCode u.state) ++ wFlag g.measuring ++ w32 u.movesDone ++ w16 u.faults
    ++ w32 u.busySeconds ++ w32 g.minute ++ w32 g.seconds

/-- R190: LIFT_REPORT; the counters are cleared after the reply has been composed. -/
def liftReport (c : Caller) (pl : List Byte) (e : Ev) : Ev :=
  match liftOf (u8 pl 0) with
  | none => e.badRequest c Kind.liftReport 0
  | some l =>
    (e.reply c Kind.liftReport .taken (liftRecord e.g l)).modG fun g =>
      if flag8 pl 1 then g.modLift l fun u => { u with movesDone := 0, faults := 0, busySeconds := 0 } else g

/-- What the part does with a LIFT_REPORT. -/
def liftReportBody : Body := evBody liftReport

/-- LIFT_REPORT (R190). -/
def execLiftReport (p : Port) (flags : Byte) (payload : List Byte) (s : State) : Host.Outcome State Fault Refusal :=
  s.frame p Kind.liftReport flags payload liftReportBody

end Sys2Proof.Machine
end

