-- ==== Sys2Proof/Machine/OfficeConvoys.lean ====
section
/-! DEFINITION. Convoy management: CONVOY_LOAD, CONVOY_START, CONVOY_STOP, CONVOY_QUERY (chapter 8), and UNKNOWN_KIND
(R21). -/

namespace Sys2Proof.Machine

/-! ### CONVOY_LOAD (R147) -/

/-- What a CONVOY_LOAD has come to: how many were accepted, and the first ticket skipped with its reason (R194: 0 no such
ticket, 1 not PARKED, 2 channel full). -/
structure LoadResult where
  accepted : Nat
  skipped : Option (Nat × Nat)
  deriving DecidableEq, Repr

/-- The first skip stands. -/
def LoadResult.skip (r : LoadResult) (n reason : Nat) : LoadResult :=
  { r with skipped := if r.skipped.isSome then r.skipped else some (n, reason) }

/-- R147 ❹, R146: an accepted ticket. -/
def Garage.acceptMember (g : Garage) (c : Chan) (n : Nat) : Garage :=
  let (g, seq) := g.takeSeq
  (g.modTicket n fun t =>
      ({ t with
        state := .queued
        seq := some seq
        priority := some t.defaultPriority
        convoy := some c
        hold := false
        resumePending := false
        blocked := false }).measured fun m => (m.recordParked g.seconds).markWait g.seconds).modChan c
    fun ch => { ch with list := ch.list ++ [n] }

/-- R147 ❶ to ❹: one ticket number of a CONVOY_LOAD. -/
def loadMember (c : Chan) (n : Nat) (gr : Garage × LoadResult) : Garage × LoadResult :=
  let (g, r) := gr
  match (if n = 0 then none else g.ticket n) with
  | none => (g, r.skip n 0)
  | some t =>
    if t.state ≠ .parked then (g, r.skip n 1)
    else if 48 ≤ g.members c then (g, r.skip n 2)
    else (g.acceptMember c n, { r with accepted := r.accepted + 1 })

/-- The ticket numbers of a CONVOY_LOAD, in frame order. -/
def loadNumbers (pl : List Byte) : List Nat := (List.range (u8 pl 1)).map fun i => u16 pl (2 + 2 * i)

/-- R147: the examination of a CONVOY_LOAD and its reply. -/
def convoyLoadFor (c : Caller) (ch : Chan) (pl : List Byte) (e : Ev) : Ev :=
  let (g, r) := (loadNumbers pl).foldl (fun gr n => loadMember ch n gr) (e.g, ⟨0, none⟩)
  let g :=
    if 0 < r.accepted ∧ (g.chan ch).state = .idle then
      g.modChan ch fun k => { k with state := .loaded, delivered := 0 }
    else g
  (e.modG fun _ => g).reply c Kind.convoyLoad .taken
    (w8 r.accepted ++ w8 (g.members ch) ++ w16 (orZero (r.skipped.map Prod.fst))
      ++ w8 (orFF (r.skipped.map Prod.snd)))

/-- R147: CONVOY_LOAD. -/
def convoyLoad (c : Caller) (pl : List Byte) (e : Ev) : Ev :=
  match chanOf (u8 pl 0) with
  | none => e.badRequest c Kind.convoyLoad 0
  | some ch =>
    if u8 pl 1 < 1 ∨ 12 < u8 pl 1 then e.badRequest c Kind.convoyLoad 1
    else if (e.g.chan ch).state = .running ∨ (e.g.chan ch).state = .heldBack then
      e.reply c Kind.convoyLoad .notApplicable []
    else convoyLoadFor c ch pl e

/-- What the part does with a CONVOY_LOAD. -/
def convoyLoadBody : Body := workBody convoyLoad

/-- CONVOY_LOAD (R147). -/
def execConvoyLoad (p : Port) (flags : Byte) (payload : List Byte) (s : State) : Host.Outcome State Fault Refusal :=
  s.frame p Kind.convoyLoad flags payload convoyLoadBody

/-! ### CONVOY_START (R148) -/

/-- R148: the state a LOADED channel enters, by the state and the mix flag of the other. -/
def startState (mix : Bool) (other : Channel) : ChanState :=
  if other.state = .running ∧ ¬ (mix = true ∧ other.mix = true) then .heldBack else .running

/-- R148: CONVOY_START. -/
def convoyStart (c : Caller) (pl : List Byte) (e : Ev) : Ev :=
  match chanOf (u8 pl 0) with
  | none => e.badRequest c Kind.convoyStart 0
  | some ch =>
    if (e.g.chan ch).state ≠ .loaded then e.reply c Kind.convoyStart .notApplicable []
    else
      let b := low8 pl 1 3
      let level := min (u8 pl 2) 7
      let mix := flag8 pl 3
      let st := startState mix (e.g.chan (otherChan ch))
      (e.modG fun g => g.modChan ch fun k =>
          { k with state := st, blockLength := b + 1, level := level, mix := mix }).reply c Kind.convoyStart .taken
        (w8 (chanStateCode st) ++ w8 b ++ w8 level ++ wFlag mix)

/-- What the part does with a CONVOY_START. -/
def convoyStartBody : Body := workBody convoyStart

/-- CONVOY_START (R148). -/
def execConvoyStart (p : Port) (flags : Byte) (payload : List Byte) (s : State) : Host.Outcome State Fault Refusal :=
  s.frame p Kind.convoyStart flags payload convoyStartBody

/-! ### CONVOY_STOP (R156) -/

/-- The RETRIEVING members of a channel in increasing order of request sequence number. -/
def Garage.retrievingMembers (g : Garage) (c : Chan) : List Nat :=
  g.seqOrder.filter fun n =>
    match g.ticket n with
    | some t => t.state == .retrieving && t.convoy == some c
    | none => false

/-- R156 ❷: a RETRIEVING member becomes a single retrieval, with a place when one is left; without one it is given up
(R115, R116). -/
def Garage.convert (g : Garage) (n : Nat) : Garage :=
  let room := decide (g.placesHeld < Config.places)
  let g := g.modTicket n fun t => { t with convoy := none, hold := false, resumePending := false, place := room }
  if room then g else g.giveUp n

/-- R156 ❸: a tenure of the channel passes to the plan that holds the lift under it, or is released (log 18). -/
def passTenure (c : Chan) (u : LiftUnit) : LiftUnit :=
  if u.tenure = some (.channel c) then
    { u with
      tenure :=
        if u.plan.isSome ∧ (u.inFlight.map Move.kind) ≠ some .final then some .plan else none }
  else u

/-- R156 ❶ to ❺: the channel is stopped. -/
def Garage.stopConvoy (g : Garage) (c : Chan) : Garage :=
  let g := (g.chan c).list.foldl Garage.becomeParked g
  let g := (g.retrievingMembers c).foldl Garage.convert g
  let g := { g with liftA := passTenure c g.liftA, liftB := passTenure c g.liftB }
  ((g.clearBlock c).modChan c Channel.toIdle).letRun (otherChan c)

/-- R156: CONVOY_STOP. -/
def convoyStop (c : Caller) (pl : List Byte) (e : Ev) : Ev :=
  match chanOf (u8 pl 0) with
  | none => e.badRequest c Kind.convoyStop 0
  | some ch =>
    if (e.g.chan ch).state = .idle then e.reply c Kind.convoyStop .notApplicable []
    else
      (e.modG fun g => g.stopConvoy ch).reply c Kind.convoyStop .taken
        (w8 (e.g.chan ch).list.length ++ w8 (e.g.retrievingMembers ch).length)

/-- What the part does with a CONVOY_STOP. -/
def convoyStopBody : Body := workBody convoyStop

/-- CONVOY_STOP (R156). -/
def execConvoyStop (p : Port) (flags : Byte) (payload : List Byte) (s : State) : Host.Outcome State Fault Refusal :=
  s.frame p Kind.convoyStop flags payload convoyStopBody

/-! ### CONVOY_QUERY (R158) -/

/-- The detail of a CONVOY_QUERY, 14 characters and up to 16 ticket numbers (R198). -/
def channelRecord (g : Garage) (c : Chan) (start : Nat) : List Byte :=
  let ch := g.chan c
  let held := g.tenureOf c
  let blocked := (ch.list.filter fun n => ((g.ticket n).map Ticket.blocked).getD false).length
  let carried := (ch.list.drop (start - 1)).take 16
  w8 (chanStateCode ch.state) ++ w8 (ch.blockLength - 1) ++ w8 ch.level ++ wFlag ch.mix ++ w8 (g.members c)
    ++ w8 ch.list.length ++ w8 blocked ++ w16 ch.delivered ++ w8 (orFF (held.map liftCode))
    ++ w8 (orFF (held.bind fun _ => ch.blockLevel)) ++ w8 (orFF (held.map fun _ => ch.blockCount))
    ++ w8 (orFF (ch.request.map fun r => liftCode r.1)) ++ w8 carried.length ++ carried.flatMap w16

/-- R158: CONVOY_QUERY. -/
def convoyQuery (c : Caller) (pl : List Byte) (e : Ev) : Ev :=
  match chanOf (u8 pl 0) with
  | none => e.badRequest c Kind.convoyQuery 0
  | some ch => e.reply c Kind.convoyQuery .taken (channelRecord e.g ch (clamp 1 48 (u8 pl 1)))

/-- What the part does with a CONVOY_QUERY. -/
def convoyQueryBody : Body := evBody convoyQuery

/-- CONVOY_QUERY (R158). -/
def execConvoyQuery (p : Port) (flags : Byte) (payload : List Byte) (s : State) : Host.Outcome State Fault Refusal :=
  s.frame p Kind.convoyQuery flags payload convoyQueryBody

end Sys2Proof.Machine
end

