-- ==== Sys2Proof/Machine/UnknownKind.lean ====
section
/-! DEFINITION. UNKNOWN_KIND: a frame to the part of a kind that its sender's role does not permit, or that the part does
not know (R21). -/

namespace Sys2Proof.Machine

/-- The body of a kind; a kind without one is answered REFUSED, as a kind the part does not know (R21). -/
def bodyOf (kind : Byte) : Body :=
  match kind.toNat with
  | 0x10 => arrivalBody
  | 0x11 => retrieveBody
  | 0x12 => resumeBody
  | 0x13 => cancelBody
  | 0x14 => handoverBody
  | 0x15 => reParkBody
  | 0x16 => queryTicketBody
  | 0x20 => keyInBody
  | 0x21 => keyOutBody
  | 0x28 => runnerOnBody
  | 0x29 => runnerOffBody
  | 0x2A => pickupBody
  | 0x30 => liftStatusBody
  | 0x31 => carPresentBody
  | 0x32 => moveDoneBody
  | 0x33 => moveFaultBody
  | 0x34 => moveRefusedBody
  | 0x40 => setLineBody
  | 0x41 => loadStationsBody
  | 0x42 => loadPassBody
  | 0x43 => statusBody
  | 0x44 => statusClearBody
  | 0x45 => restartBody
  | 0x50 => loadZonesBody
  | 0x51 => loadStacksBody
  | 0x52 => loadBaysBody
  | 0x53 => setLanesBody
  | 0x54 => loadCabinetBody
  | 0x55 => enterServiceBody
  | 0x56 => leaveServiceBody
  | 0x57 => bayServiceBody
  | 0x58 => queryBayBody
  | 0x59 => hookServiceBody
  | 0x60 => setWeightsBody
  | 0x61 => setLimitsBody
  | 0x62 => setFloorBody
  | 0x63 => setTimesBody
  | 0x64 => setClockBody
  | 0x65 => setMeasureBody
  | 0x68 => liftServiceBody
  | 0x69 => liftResolveBody
  | 0x6A => liftReportBody
  | 0x70 => convoyLoadBody
  | 0x71 => convoyStartBody
  | 0x72 => convoyStopBody
  | 0x73 => convoyQueryBody
  | _ => evBody fun c _ e => e.reply c kind .refused []

/-- UNKNOWN_KIND (R21): the role check answers REFUSED with the kind received. A frame whose kind its sender's role does
permit after all is a frame of that kind. -/
def execUnknownKind (p : Port) (kind flags : Byte) (payload : List Byte) (s : State) :
    Host.Outcome State Fault Refusal :=
  s.frame p kind flags payload (bodyOf kind)

end Sys2Proof.Machine
end

