-- ==== Sys2Proof/Machine/Dispatch.lean ====
section
/-! DEFINITION. The dispatch: one arm per command, each one direct call of its meaning. -/

namespace Sys2Proof.Machine

def exec (i : Instr) (s : State) : Host.Outcome State Fault Refusal :=
  match i with
  | .powerUp c => Sys2Proof.Machine.execPowerUp c s
  | .warmStart => Sys2Proof.Machine.execWarmStart s
  | .tick => Sys2Proof.Machine.execTick s
  | .moveTimerExpiry l => Sys2Proof.Machine.execMoveTimerExpiry l s
  | .pickupTimerExpiry r => Sys2Proof.Machine.execPickupTimerExpiry r s
  | .holdTimerExpiry n => Sys2Proof.Machine.execHoldTimerExpiry n s
  | .poll p => Sys2Proof.Machine.execPoll p s
  | .miss p => Sys2Proof.Machine.execMiss p s
  | .empty p => Sys2Proof.Machine.execEmpty p s
  | .frameDiscarded p => Sys2Proof.Machine.execFrameDiscarded p s
  | .idleTimeEnd p => Sys2Proof.Machine.execIdleTimeEnd p s
  | .sourceMismatch p => Sys2Proof.Machine.execSourceMismatch p s
  | .lineBreak p => Sys2Proof.Machine.execLineBreak p s
  | .lineReturn p => Sys2Proof.Machine.execLineReturn p s
  | .frameSent p => Sys2Proof.Machine.execFrameSent p s
  | .moveOrderSent l => Sys2Proof.Machine.execMoveOrderSent l s
  | .lineSettingsTakeEffect p => Sys2Proof.Machine.execLineSettingsTakeEffect p s
  | .transit p f => Sys2Proof.Machine.execTransit p f s
  | .unknownKind p k fl pl => Sys2Proof.Machine.execUnknownKind p k fl pl s
  | .arrival p fl pl => Sys2Proof.Machine.execArrival p fl pl s
  | .retrieve p fl pl => Sys2Proof.Machine.execRetrieve p fl pl s
  | .resume p fl pl => Sys2Proof.Machine.execResume p fl pl s
  | .cancel p fl pl => Sys2Proof.Machine.execCancel p fl pl s
  | .handover p fl pl => Sys2Proof.Machine.execHandover p fl pl s
  | .rePark p fl pl => Sys2Proof.Machine.execRePark p fl pl s
  | .queryTicket p fl pl => Sys2Proof.Machine.execQueryTicket p fl pl s
  | .keyIn p fl pl => Sys2Proof.Machine.execKeyIn p fl pl s
  | .keyOut p fl pl => Sys2Proof.Machine.execKeyOut p fl pl s
  | .runnerOn p fl pl => Sys2Proof.Machine.execRunnerOn p fl pl s
  | .runnerOff p fl pl => Sys2Proof.Machine.execRunnerOff p fl pl s
  | .pickup p fl pl => Sys2Proof.Machine.execPickup p fl pl s
  | .liftStatus p fl pl => Sys2Proof.Machine.execLiftStatus p fl pl s
  | .carPresent p fl pl => Sys2Proof.Machine.execCarPresent p fl pl s
  | .moveDone p fl pl => Sys2Proof.Machine.execMoveDone p fl pl s
  | .moveFault p fl pl => Sys2Proof.Machine.execMoveFault p fl pl s
  | .moveRefused p fl pl => Sys2Proof.Machine.execMoveRefused p fl pl s
  | .setLine p fl pl => Sys2Proof.Machine.execSetLine p fl pl s
  | .loadStations p fl pl => Sys2Proof.Machine.execLoadStations p fl pl s
  | .loadPass p fl pl => Sys2Proof.Machine.execLoadPass p fl pl s
  | .status p fl pl => Sys2Proof.Machine.execStatus p fl pl s
  | .statusClear p fl pl => Sys2Proof.Machine.execStatusClear p fl pl s
  | .restart p fl pl => Sys2Proof.Machine.execRestart p fl pl s
  | .loadZones p fl pl => Sys2Proof.Machine.execLoadZones p fl pl s
  | .loadStacks p fl pl => Sys2Proof.Machine.execLoadStacks p fl pl s
  | .loadBays p fl pl => Sys2Proof.Machine.execLoadBays p fl pl s
  | .setLanes p fl pl => Sys2Proof.Machine.execSetLanes p fl pl s
  | .loadCabinet p fl pl => Sys2Proof.Machine.execLoadCabinet p fl pl s
  | .enterService p fl pl => Sys2Proof.Machine.execEnterService p fl pl s
  | .leaveService p fl pl => Sys2Proof.Machine.execLeaveService p fl pl s
  | .bayService p fl pl => Sys2Proof.Machine.execBayService p fl pl s
  | .queryBay p fl pl => Sys2Proof.Machine.execQueryBay p fl pl s
  | .hookService p fl pl => Sys2Proof.Machine.execHookService p fl pl s
  | .setWeights p fl pl => Sys2Proof.Machine.execSetWeights p fl pl s
  | .setLimits p fl pl => Sys2Proof.Machine.execSetLimits p fl pl s
  | .setFloor p fl pl => Sys2Proof.Machine.execSetFloor p fl pl s
  | .setTimes p fl pl => Sys2Proof.Machine.execSetTimes p fl pl s
  | .setClock p fl pl => Sys2Proof.Machine.execSetClock p fl pl s
  | .setMeasure p fl pl => Sys2Proof.Machine.execSetMeasure p fl pl s
  | .liftService p fl pl => Sys2Proof.Machine.execLiftService p fl pl s
  | .liftResolve p fl pl => Sys2Proof.Machine.execLiftResolve p fl pl s
  | .liftReport p fl pl => Sys2Proof.Machine.execLiftReport p fl pl s
  | .convoyLoad p fl pl => Sys2Proof.Machine.execConvoyLoad p fl pl s
  | .convoyStart p fl pl => Sys2Proof.Machine.execConvoyStart p fl pl s
  | .convoyStop p fl pl => Sys2Proof.Machine.execConvoyStop p fl pl s
  | .convoyQuery p fl pl => Sys2Proof.Machine.execConvoyQuery p fl pl s
  | .powerLoss h => Sys2Proof.Machine.execPowerLoss h s

end Sys2Proof.Machine
end

