-- ==== Sys2Proof/WellFormed.lean ====
section
/-! DEFINITION. Which commands are well formed: operands that the part's events can carry. -/

namespace Sys2Proof

/-- A payload that a frame can carry (R9). -/
def payloadFits (payload : List Byte) : Bool := decide (payload.length ≤ 48)

/-- A command whose operands an event of the part can carry: a payload of at most 48 characters (R9), a frame in transit
that is addressed past the part and is no EMPTY frame (R6, R19), a kind other than EMPTY (R6), a runner 1 to 32 (R160),
a ticket 1 to 65535 (R63). -/
def Instr.wellFormed : Instr → Bool
  | .powerUp _ => true
  | .warmStart => true
  | .tick => true
  | .moveTimerExpiry _ => true
  | .pickupTimerExpiry r => decide (1 ≤ r) && decide (r ≤ 32)
  | .holdTimerExpiry n => decide (1 ≤ n) && decide (n ≤ 65535)
  | .poll _ => true
  | .miss _ => true
  | .empty _ => true
  | .frameDiscarded _ => true
  | .idleTimeEnd _ => true
  | .sourceMismatch _ => true
  | .lineBreak _ => true
  | .lineReturn _ => true
  | .frameSent _ => true
  | .moveOrderSent _ => true
  | .lineSettingsTakeEffect _ => true
  | .transit _ f => payloadFits f.payload && f.dest != 127 && f.kind != 0x02
  | .unknownKind _ k _ pl => payloadFits pl && k != 0x02
  | .arrival _ _ pl => payloadFits pl
  | .retrieve _ _ pl => payloadFits pl
  | .resume _ _ pl => payloadFits pl
  | .cancel _ _ pl => payloadFits pl
  | .handover _ _ pl => payloadFits pl
  | .rePark _ _ pl => payloadFits pl
  | .queryTicket _ _ pl => payloadFits pl
  | .keyIn _ _ pl => payloadFits pl
  | .keyOut _ _ pl => payloadFits pl
  | .runnerOn _ _ pl => payloadFits pl
  | .runnerOff _ _ pl => payloadFits pl
  | .pickup _ _ pl => payloadFits pl
  | .liftStatus _ _ pl => payloadFits pl
  | .carPresent _ _ pl => payloadFits pl
  | .moveDone _ _ pl => payloadFits pl
  | .moveFault _ _ pl => payloadFits pl
  | .moveRefused _ _ pl => payloadFits pl
  | .setLine _ _ pl => payloadFits pl
  | .loadStations _ _ pl => payloadFits pl
  | .loadPass _ _ pl => payloadFits pl
  | .status _ _ pl => payloadFits pl
  | .statusClear _ _ pl => payloadFits pl
  | .restart _ _ pl => payloadFits pl
  | .loadZones _ _ pl => payloadFits pl
  | .loadStacks _ _ pl => payloadFits pl
  | .loadBays _ _ pl => payloadFits pl
  | .setLanes _ _ pl => payloadFits pl
  | .loadCabinet _ _ pl => payloadFits pl
  | .enterService _ _ pl => payloadFits pl
  | .leaveService _ _ pl => payloadFits pl
  | .bayService _ _ pl => payloadFits pl
  | .queryBay _ _ pl => payloadFits pl
  | .hookService _ _ pl => payloadFits pl
  | .setWeights _ _ pl => payloadFits pl
  | .setLimits _ _ pl => payloadFits pl
  | .setFloor _ _ pl => payloadFits pl
  | .setTimes _ _ pl => payloadFits pl
  | .setClock _ _ pl => payloadFits pl
  | .setMeasure _ _ pl => payloadFits pl
  | .liftService _ _ pl => payloadFits pl
  | .liftResolve _ _ pl => payloadFits pl
  | .liftReport _ _ pl => payloadFits pl
  | .convoyLoad _ _ pl => payloadFits pl
  | .convoyStart _ _ pl => payloadFits pl
  | .convoyStop _ _ pl => payloadFits pl
  | .convoyQuery _ _ pl => payloadFits pl
  | .powerLoss _ => true

end Sys2Proof
end

