-- ==== Sys2Proof/Machine/Wire.lean ====
section
/-! DEFINITION. The characters on a port's line: what the port sends, POLL included, and what it makes of an answer, both at
the parity of its current setting (R1, R5, R7, R9, R191). -/

namespace Sys2Proof.Machine

/-- The frame that a port has put on its line: the POLL of the exchange in progress, or the frame being sent. -/
def PortState.onLine (ps : PortState) : Option Frame :=
  if ps.awaiting then ps.visit.map Visit.poll else ps.sending.map QFrame.frame

/-- The characters of that frame, with their parity bits. -/
def PortState.lineChars (ps : PortState) : List RxChar :=
  match ps.onLine with
  | some f => (frameChars f).map (sentChar ps.settings.parity)
  | none => []

/-- The bits of that frame, in the order in which they are sent (R1, R191). -/
def PortState.lineBits (ps : PortState) : List Bool :=
  match ps.onLine with
  | some f => (frameChars f).flatMap (charBits ps.settings.parity)
  | none => []

/-- The command that the characters of an answer make on a port, received at the parity of its current setting. The answer
of a station removed from the table during the exchange is discarded (R4), and what comes while no answer is awaited is
ignored. -/
def PortState.answerCommand (ps : PortState) (p : Port) (chars : List RxChar) : Option Instr :=
  match ps.polled with
  | some st => some (decodeAnswer ps.settings.parity p st.number st.role chars)
  | none => if ps.awaiting then some (.frameDiscarded p) else none

/-- The command that an answer makes, from the bits sampled on the line, character by character. -/
def PortState.sampledCommand (ps : PortState) (p : Port) (chars : List (List Bool)) : Option Instr :=
  (chars.mapM (sampledChar ps.settings.parity)).bind (ps.answerCommand p)

end Sys2Proof.Machine
end

