-- ==== Sys2Proof/Safety.lean ====
section
/-! DEFINITION. What a safe run keeps, and the words in which statements about the block are made. -/

namespace Sys2Proof.Machine

/-! ### An exchange in progress -/

/-- The part has power, and the exchange in progress on a port is with that station of its table (R5, R7). -/
def Asking (s : State) (p : Port) (st : Station) : Prop := s.powered = true ∧ (s.port p).polled = some st

/-- A port's stations after one of them has answered (R8): its miss count 0, ACTIVE, and its skip count 0 when it was
SILENT. -/
def PortState.answeredBy (ps : PortState) (st : Station) : List Station :=
  ps.stations.map fun x =>
    if x.number = st.number then
      { x with misses := 0, poll := .active, skips := if st.poll = .silent then 0 else x.skips }
    else x

/-- A port's stations after one of them has missed (R8): a miss count one higher when it was ACTIVE, and SILENT with skip
count 0 when the count reaches 3. -/
def PortState.missedBy (ps : PortState) (st : Station) : List Station :=
  ps.stations.map fun x =>
    if x.number = st.number ∧ st.poll = .active then
      if st.misses + 1 < 3 then { x with misses := x.misses + 1 } else { x with misses := 3, poll := .silent, skips := 0 }
    else x

/-- A port's stations after one of them has been passed over (R8). -/
def PortState.passedOver (ps : PortState) (st : Station) : List Station :=
  ps.stations.map fun x => if x.number = st.number then { x with skips := x.skips + 1 } else x

/-- The lift unit of a station that has answered with an accepted answer (R120 ❶ ❸). -/
def Garage.heardLift (g : Garage) (l : Lift) (st : Station) : Garage :=
  g.modLift l fun u =>
    if u.state = .offline then { u with state := .notReady, readiness := .none }
    else if st.poll = .silent then { u with readiness := .none }
    else u

/-! ### What a command leaves alone on the lines -/

/-- What every command but those that set a port up leaves as it was: settings, state, tallies, and the frames in
transit but for those sent from the head. -/
structure SamePort (a b : PortState) : Prop where
  settings : b.settings = a.settings
  mode : b.mode = a.mode
  faultTally : b.faultTally = a.faultTally
  dropTally : b.dropTally = a.dropTally
  transit : b.transitQueue <:+ a.transitQueue

/-- Both ports, the pass table and the waiting Port G settings as they were. -/
structure SameLines (a b : Line) : Prop where
  s : SamePort a.s b.s
  g : SamePort a.g b.g
  passTable : b.passTable = a.passTable
  lineDueG : b.lineDueG = a.lineDueG

/-- The supply, the commands that wait and the lines as they were. -/
structure Undisturbed (s t : State) : Prop where
  powered : t.powered = s.powered
  storeHeld : t.storeHeld = s.storeHeld
  pending : t.pending = s.pending
  lines : SameLines s.line t.line

/-- An exchange has ended with an accepted answer of a station of Port S: the station is heard, nothing else of the lines
has changed. -/
structure HeardS (s t : State) (st : Station) : Prop where
  rest : Undisturbed s t
  ended : t.line.s.awaiting = false
  stations : t.line.s.stations = s.line.s.answeredBy st
  others : t.line.g.stations = s.line.g.stations

/-- An exchange has ended with an accepted answer of a station of Port G: the station is heard, nothing else of the lines
has changed. -/
structure HeardG (s t : State) (st : Station) : Prop where
  rest : Undisturbed s t
  ended : t.line.g.awaiting = false
  stations : t.line.g.stations = s.line.g.answeredBy st
  others : t.line.s.stations = s.line.s.stations

/-! ### Frames on their way -/

/-- A port's own queue takes a frame that is not an ALERT (R14): it holds fewer than 48 frames, or an ALERT that gives
way. -/
def PortState.hasRoom (ps : PortState) : Prop :=
  ps.ownQueue.length < 48 ∨ ∃ q ∈ ps.ownQueue, q.frame.kind = Kind.alert

/-- A port is sending a frame of its own, or holds it in its own queue, with what the end of its transmission brings
about. -/
def PortState.holds (ps : PortState) (q : QFrame) : Prop := ps.sending = some q ∨ q ∈ ps.ownQueue

/-- A port is sending a frame in transit, or holds it in its transit queue. -/
def PortState.forwards (ps : PortState) (f : Frame) : Prop := ps.sending = some ⟨f, .plain⟩ ∨ f ∈ ps.transitQueue

/-- A port is sending a frame, or holds it in its own queue. -/
def PortState.carries (ps : PortState) (f : Frame) : Prop :=
  (∃ q, ps.sending = some q ∧ q.frame = f) ∨ ∃ q ∈ ps.ownQueue, q.frame = f

/-- A REPLY to a station (R21, R198). -/
def replyFrame (st : Station) (kind : Byte) (r : Result) (detail : List Byte) : Frame :=
  originated st.number Kind.reply (kind :: BitVec.ofNat 8 r.code :: detail)

/-- A request of a station of Port S has been answered with a frame: the station is heard, and the frame is on its way
when the own queue has room. -/
structure AnsweredWith (s t : State) (st : Station) (f : Frame) : Prop where
  heard : HeardS s t st
  answer : s.line.s.hasRoom → t.line.s.carries f

/-- A request of a station of Port S has been answered with a REPLY. -/
abbrev Answered (s t : State) (st : Station) (kind : Byte) (r : Result) (detail : List Byte) : Prop :=
  AnsweredWith s t st (replyFrame st kind r detail)

/-- The office station is on Port S under that number, and Port S's own queue has room for a few more frames. -/
def OfficeHears (s : State) (n : Nat) : Prop :=
  s.line.stationOfRole .office = some n ∧ s.line.s.hasStation n = true ∧ s.line.s.ownQueue.length < 44

/-- An ALERT for the office station, with the second count of the event (R198). -/
def alertFrame (n : Nat) (now kind : Nat) (args : List Byte) : Frame :=
  originated n Kind.alert (w8 kind ++ w32 now ++ args)

/-- The office station is told by an ALERT, when it is on Port S and the queue has room. -/
def Alerted (s t : State) (kind : Nat) (args : List Byte) : Prop :=
  ∀ n, OfficeHears s n → t.line.s.carries (alertFrame n s.garage.seconds kind args)

/-- A station table as R3 lets it be, for a port. -/
structure TableSound (p : Port) (sts : List Station) : Prop where
  stands : tableStands p sts = true
  numbers : ∀ st ∈ sts, 1 ≤ st.number ∧ st.number ≤ 126
  roles : ∀ st ∈ sts, allowsRole p st.role = true
  counts : ∀ st ∈ sts, st.misses ≤ 3 ∧ st.skips ≤ 3

/-- Both station tables as R3 lets them be: no station number twice, within a table or across the two. -/
structure Line.TablesSound (ln : Line) : Prop where
  s : TableSound .s ln.s.stations
  g : TableSound .g ln.g.stations
  distinct : ((ln.s.stations ++ ln.g.stations).map Station.number).Nodup

/-- The station that has a role, and the port that serves it (R13): a port whose table R3 gives that role, which is Port S for
the office station, the key cabinet and the runner base, when the tables are as R3 lets them be. -/
structure Line.Serves (ln : Line) (r : Role) (p : Port) (n : Nat) : Prop where
  station : ln.stationOfRole r = some n
  port : ln.reaches n = some p
  allowed : ln.TablesSound → allowsRole p r = true

/-- A frame of that kind and payload is on its way to the station with a role, on the port that serves it, or the loss of a
frame has been counted on the notice drop tally, which stays at 65535 once there (R13, R14, R23). -/
def Sends (s t : State) (r : Role) (kind : Byte) (payload : List Byte) : Prop :=
  (∃ p n, s.line.Serves r p n ∧ (t.port p).carries (originated n kind payload))
    ∨ s.line.noticeDrops < t.line.noticeDrops ∨ 65535 ≤ s.line.noticeDrops

/-- The office station is told by an ALERT, or the loss of a frame has been counted. -/
def Told (s t : State) (kind : Nat) (args : List Byte) : Prop :=
  Sends s t .office Kind.alert (w8 kind ++ w32 s.garage.seconds ++ args)

/-! ### Who asks -/

/-- A station of a role on Port S has answered the poll in progress (R7, R21). -/
def AskedBy (s : State) (st : Station) (r : Role) : Prop := Asking s .s st ∧ st.role = r

/-- A lift's station on Port G has answered the poll in progress, and no Port G settings wait for the end of its exchange
(R7, R22). -/
def ReportedBy (s : State) (st : Station) (l : Lift) : Prop :=
  Asking s .g st ∧ st.role = liftRole l ∧ s.line.lineDueG = []

/-- A frame of that kind with that payload passes the gates of mode and length (R34, R197). -/
structure Passes (s : State) (kind : Byte) (pl : List Byte) : Prop where
  mode : takenIn s.garage.mode kind = true
  shape : wellShaped kind pl = true
  fits : pl.length ≤ 48

/-- No Port G settings wait for the end of an exchange on this port (R22). -/
def NothingDue (s : State) (p : Port) : Prop := p = .g → s.line.lineDueG = []

/-! ### What an event sets off -/

/-- The blocks behind the ports once the work that an event sets off is done (R121, R124, R130), when the event itself
has left them as `g`. -/
def Garage.afterwards (g : Garage) : Garage := (settle ⟨g, []⟩).g

/-! ### Lifts at rest -/

/-- No lift can take up work: neither is READY, and both convoy channels are IDLE. -/
def Garage.Resting (g : Garage) : Prop :=
  g.liftA.state ≠ .ready ∧ g.liftB.state ≠ .ready ∧ g.chan0.state = .idle ∧ g.chan1.state = .idle

/-! ### What a command comes to -/

/-- The station polled on a port has been heard with an accepted answer, nothing else of the lines has changed. -/
def Heard (p : Port) (s t : State) (st : Station) : Prop :=
  match p with
  | .s => HeardS s t st
  | .g => HeardG s t st

/-- The blocks behind the ports once a station has been heard with an accepted answer (R120 ❶ ❸): only the lift unit of a
lift's station can change. -/
def Garage.heardAs (g : Garage) (st : Station) : Garage :=
  match roleLift st.role with
  | some l => g.heardLift l st
  | none => g

/-- The command completes: the blocks behind the ports stand as `g`, the asking station of Port S is heard and answered
with a REPLY, and the lines are otherwise as they were. -/
def Replies (o : Host.Outcome State Fault Refusal) (s : State) (st : Station) (g : Garage) (kind : Byte) (r : Result)
    (detail : List Byte) : Prop :=
  ∃ t, o = .next t ∧ t.garage = g ∧ Answered s t st kind r detail

/-- The office station is told by each of these alerts, given by kind and arguments. -/
def Tells (s t : State) (alerts : List (Nat × List Byte)) : Prop := ∀ a ∈ alerts, Alerted s t a.1 a.2

/-- The command completes: the blocks behind the ports stand as `g`, the reporting station of Port S is heard, the office
station is told, and the lines are otherwise as they were. -/
def NotesS (o : Host.Outcome State Fault Refusal) (s : State) (st : Station) (g : Garage)
    (alerts : List (Nat × List Byte)) : Prop :=
  ∃ t, o = .next t ∧ t.garage = g ∧ HeardS s t st ∧ Tells s t alerts

/-- The command completes: the work that the event sets off is done on the blocks left as `g`, the reporting station of
Port G is heard, the office station is told, and the lines are otherwise as they were. -/
def NotesG (o : Host.Outcome State Fault Refusal) (s : State) (st : Station) (g : Garage)
    (alerts : List (Nat × List Byte)) : Prop :=
  ∃ t, o = .next t ∧ t.garage = g.afterwards ∧ HeardG s t st ∧ ∀ a ∈ alerts, Told s t a.1 a.2

/-! ### Invariants of the lines -/

/-- The queues, the turn, the tallies and the visit of a port within their bounds (R6, R13, R16, R17, R23), and a port
that is half duplex: it awaits an answer only while RUNNING, in a visit, and sending nothing (R5). The visit to a removed
station lasts no longer than its exchange (R4). -/
structure PortState.Sound (ps : PortState) (capacity : Nat) : Prop where
  own : ps.ownQueue.length ≤ capacity
  transit : ps.transitQueue.length ≤ 16
  passOver : ps.passOver ≤ 2
  turn : ps.turnLeft ≤ 2
  fault : ps.faultTally ≤ 65535
  drop : ps.dropTally ≤ 65535
  exchanges : ∀ v, ps.visit = some v → v.exchanges ≤ 4 ∧ (ps.awaiting = false → v.exchanges < 4)
  removal : ∀ v, ps.visit = some v → v.removed = true → ps.awaiting = true
  awaits : ps.awaiting = true → ps.mode = .running ∧ ps.sending = none ∧ ps.visit ≠ none
  sends : ps.sending ≠ none → ps.mode = .running

/-- Both ports within their bounds, with the pass table and the notice drop tally (R20, R23). -/
structure Line.Sound (ln : Line) : Prop where
  s : ln.s.Sound 48
  g : ln.g.Sound 8
  passTable : ln.passTable.length ≤ 32
  notices : ln.noticeDrops ≤ 65535

/-- Line settings in the ranges of R2. -/
structure LineSettings.InRange (x : LineSettings) : Prop where
  prescale : x.prescale ≤ 7
  divisor : x.divisor ≤ 240
  windowLow : 4 ≤ x.window
  windowHigh : x.window ≤ 64

/-- The settings that a mark carries, when it carries some, are in range. -/
def Mark.InRange : Mark → Prop
  | .lineReply r => r.settings.InRange
  | _ => True

/-- The settings of a port, and those its frames carry, are in range. -/
structure PortState.SettingsInRange (ps : PortState) : Prop where
  now : ps.settings.InRange
  queued : ∀ q ∈ ps.ownQueue, q.mark.InRange
  sent : ∀ q, ps.sending = some q → q.mark.InRange

/-- The settings of both ports, and every setting still pending, are in range (R2, R22). -/
structure Line.SettingsInRange (ln : Line) : Prop where
  s : ln.s.SettingsInRange
  g : ln.g.SettingsInRange
  due : ∀ r ∈ ln.lineDueG, r.settings.InRange

/-! ### Invariants of the blocks behind the ports -/

/-- The six weights at most 15 (R47). -/
structure Weights.InRange (w : Weights) : Prop where
  b : w.wB ≤ 15
  d : w.wD ≤ 15
  l : w.wL ≤ 15
  e : w.wE ≤ 15
  c : w.wC ≤ 15
  s : w.wS ≤ 15

/-- The limits in the ranges of R47, T1 below T2. -/
structure Limits.InRange (k : Limits) : Prop where
  stay : 30 ≤ k.defaultStay ∧ k.defaultStay ≤ 1440
  t1 : 1 ≤ k.t1
  order : k.t1 < k.t2
  t2 : k.t2 ≤ 2880
  overflow : k.overflowCapacity ≤ 64

/-- Every setting in its range (R33, R47, R83, R108, R180), and the counts of time in theirs (R176, R177). -/
structure Garage.SettingsInRange (g : Garage) : Prop where
  weights : g.weights.InRange
  limits : g.limits.InRange
  floor : g.floor ≤ 7
  podium : 1 ≤ g.podiumLimit ∧ g.podiumLimit ≤ 16
  park : g.parkLevel ≤ 7
  move : 30 ≤ g.movePeriod ∧ g.movePeriod ≤ 900
  pickup : 30 ≤ g.pickupPeriod ∧ g.pickupPeriod ≤ 1800
  hold : 60 ≤ g.holdPeriod ∧ g.holdPeriod ≤ 7200
  laneA : 1 ≤ g.liftA.laneCapacity ∧ g.liftA.laneCapacity ≤ 4
  laneB : 1 ≤ g.liftB.laneCapacity ∧ g.liftB.laneCapacity ≤ 4
  cabinet : g.cabinetSize ≤ 320
  seconds : g.seconds ≤ 4294967295
  minute : g.minute ≤ 4294967295
  inMinute : g.secsIntoMinute ≤ 59

/-- A lift unit as R118, R119 and R122 let it be: MOVING exactly while a move is in flight, a move timer only for a move in
flight, no move in flight beside an unresolved one, an unresolved move only while FAULTED, or OUT with the service flag off,
service-off pending only while MOVING with the service flag off, no tenure while FAULTED, OUT or OFFLINE, and the next move
number within 1 to 255. -/
structure LiftUnit.Sound (u : LiftUnit) : Prop where
  moving : u.state = .moving ↔ u.inFlight.isSome = true
  timer : u.moveTimer.isSome = true → u.inFlight.isSome = true
  oneMove : u.inFlight.isSome = true → u.unresolved = none
  doubt : u.unresolved.isSome = true → u.state = .faulted ∨ (u.state = .out ∧ u.serviceOn = false)
  pending : u.offPending = true → u.state = .moving ∧ u.serviceOn = false
  stopped : u.state = .faulted ∨ u.state = .out ∨ u.state = .offline → u.tenure = none
  number : 1 ≤ u.nextNumber ∧ u.nextNumber ≤ 255

/-- Both lift units as R118, R119 and R122 let them be. -/
structure Garage.LiftsSound (g : Garage) : Prop where
  a : g.liftA.Sound
  b : g.liftB.Sound

end Sys2Proof.Machine
end

