-- ==== Sys2Proof/Certificates/Slice0/Obligations.lean ====
section
/-! DEFINITION. The statements about the block, for the provers. -/

section

open Sys2Proof Sys2Proof.Machine

/-! ### The block and its queue of commands -/

/-- A step runs the command at the front of the queue on the state with the rest of it; with nothing waiting the block
idles (the model's choice, log 1). -/
def Obligations.StepRunsFront : Prop :=
  ∀ s : State,
    (∀ c rest, s.pending = c :: rest → step s = exec c { s with pending := rest }) ∧
      (s.pending = [] → step s = .next s)

/-- No command stops the block, and none touches the queue of commands. -/
def Obligations.EveryCommandCompletes : Prop :=
  ∀ (c : Instr) (s : State), ∃ t, exec c s = .next t ∧ t.pending = s.pending

/-- The values that the rules give at cold start (the tables of chapters 1, 3, 5 to 8 and 10, R45, R108,
R160). -/
def Obligations.ResetValues : Prop :=
  let l := State.reset.line
  let g := State.reset.garage
  (l.s.mode = .running ∧ l.g.mode = .disabled ∧
    l.s.settings = ⟨1, 64, .even, 16⟩ ∧ l.g.settings = ⟨1, 64, .even, 16⟩ ∧
    l.s.stations = [⟨1, .office, .active, 0, 0⟩] ∧ l.g.stations = [] ∧
    l.s.ownQueue = [] ∧ l.g.ownQueue = [] ∧ l.s.transitQueue = [] ∧ l.g.transitQueue = [] ∧
    l.s.passOver = 0 ∧ l.g.passOver = 0 ∧ l.s.faultTally = 0 ∧ l.g.faultTally = 0 ∧ l.s.dropTally = 0 ∧
    l.g.dropTally = 0 ∧ l.noticeDrops = 0 ∧ l.passTable = [] ∧ l.s.pollPos = 0 ∧ l.s.breakDue = false) ∧
  (g.mode = .commissioning ∧ g.zoneRecs = [] ∧ g.stackRecs = [] ∧ g.bayRecs = [] ∧
    g.weights = ⟨8, 4, 2, 6, 3, 2⟩ ∧ g.limits = ⟨240, 120, 480, 0⟩ ∧ g.tickets = [] ∧ g.readyCounter = 1 ∧
    g.cabinetSize = 0 ∧ g.hooks = [] ∧ g.rangeA = none ∧ g.rangeB = none ∧ g.rangeO = none ∧
    g.queue = [] ∧ g.requestCounter = 1 ∧ g.floor = 5 ∧ g.podiumLimit = 8 ∧ g.parkLevel = 6 ∧
    g.movePeriod = 120 ∧ g.pickupPeriod = 300 ∧ g.holdPeriod = 900 ∧ g.measuring = false ∧
    g.seconds = 0 ∧ g.minute = 0 ∧ g.secsIntoMinute = 0 ∧ g.freeList = [] ∧ g.waitList = []) ∧
  (∀ u ∈ [g.liftA, g.liftB], u.state = .offline ∧ u.serviceOn = true ∧ u.offPending = false ∧ u.readiness = .none ∧
    u.tenure = none ∧ u.inFlight = none ∧ u.unresolved = none ∧ u.lastResolved = none ∧ u.nextNumber = 1 ∧
    u.parkRequest = none ∧ u.plan = none ∧ u.waiting = [] ∧ u.hall = none ∧ u.laneCapacity = 1 ∧ u.lane = [] ∧
    u.reserved = 0 ∧ u.movesDone = 0 ∧ u.faults = 0 ∧ u.busySeconds = 0 ∧ u.moveTimer = none) ∧
  (∀ c ∈ [g.chan0, g.chan1], c.state = .idle ∧ c.list = [] ∧ c.blockLength = 1 ∧ c.level = 0 ∧ c.mix = false ∧
    c.delivered = 0 ∧ c.request = none) ∧
  (∀ n, 1 ≤ n → n ≤ 32 → g.runners.find n = some ⟨.off, none, none⟩)

/-! ### Invariants -/

/-- Every step keeps both ports within their bounds and half duplex (R5, R6, R13, R16, R17, R20, R23). -/
def Obligations.LinesStaySound : Prop :=
  ∀ s t : State, s.line.Sound → step s = .next t → t.line.Sound

/-- Every step keeps both station tables as R3 lets them be. -/
def Obligations.TablesStaySound : Prop :=
  ∀ s t : State, s.line.TablesSound → step s = .next t → t.line.TablesSound

/-- Every step keeps the line settings, in use and pending, in the ranges of R2. -/
def Obligations.LineSettingsStayInRange : Prop :=
  ∀ s t : State, s.line.SettingsInRange → step s = .next t → t.line.SettingsInRange

/-- Every step keeps the settings of the garage and the counts of time in their ranges. -/
def Obligations.SettingsStayInRange : Prop :=
  ∀ s t : State, s.garage.SettingsInRange → step s = .next t → t.garage.SettingsInRange

/-- Every step keeps both lift units as R118, R119 and R122 let them be: MOVING exactly while a move is in flight,
never a move in flight beside an unresolved one, an unresolved move only on a FAULTED lift or one taken OUT, no
tenure on a stopped lift. -/
def Obligations.LiftsStaySound : Prop :=
  ∀ s t : State, s.garage.LiftsSound → step s = .next t → t.garage.LiftsSound

/-- The reset state meets every invariant stated here. -/
def Obligations.ResetIsSound : Prop :=
  State.reset.line.Sound ∧ State.reset.line.TablesSound ∧ State.reset.line.SettingsInRange ∧
    State.reset.garage.SettingsInRange ∧ State.reset.garage.LiftsSound

/-! ### Characters, frames and answers -/

/-- The answer by which a station makes a command, received, makes that command: frames of every kind that its role
permits, frames of a kind it does not permit, frames for another station, EMPTY frames; at every parity. -/
def Obligations.AnswerRoundTrip : Prop :=
  ∀ (par : Parity) (p : Port) (st : Nat) (role : Role), 1 ≤ st → st ≤ 126 →
    (∀ (kind flags : Byte) (payload : List Byte) (c : Instr), payload.length ≤ 48 → permits role kind = true →
      frameCommand p kind flags payload = some c →
      (encodeAnswer par st c).map (decodeAnswer par p st role) = some c) ∧
    (∀ (kind flags : Byte) (payload : List Byte), payload.length ≤ 48 → permits role kind = false → kind ≠ Kind.empty →
      (encodeAnswer par st (.unknownKind p kind flags payload)).map (decodeAnswer par p st role)
        = some (.unknownKind p kind flags payload)) ∧
    (∀ f : Frame, f.src.toNat = st → f.dest ≠ 127 → f.kind ≠ Kind.empty → f.payload.length ≤ 48 →
      (encodeAnswer par st (.transit p f)).map (decodeAnswer par p st role) = some (.transit p f)) ∧
    (encodeAnswer par st (.empty p)).map (decodeAnswer par p st role) = some (.empty p)

/-- A character's bits as a port sends and samples them, a start bit, the data bits from the least significant,
the parity bit and a stop bit, 10 or 11 bit times; what a port has on its line, POLL or frame, bit by bit at the
parity of its setting; and the answer it samples at that parity. What the receive checks make of an answer:
nothing at all is a miss; a wrong parity, stop or check discards the frame at its end; a wrong lead, a length
above 48 and a frame that stops short end with the idle time; a frame from another station is a mismatch (R1, R5,
R7 to R11, R191). -/
def Obligations.ReceiveChecks : Prop :=
  (∀ (par : Parity) (b : Byte),
    let bit (i : Nat) := b.getLsbD i
    let data := [bit 0, bit 1, bit 2, bit 3, bit 4, bit 5, bit 6, bit 7]
    charBits .none b = false :: data ++ [true] ∧
    (∃ x, charBits .even b = false :: data ++ [x, true] ∧ ((data ++ [x]).filter id).length % 2 = 0) ∧
    (∃ x, charBits .odd b = false :: data ++ [x, true] ∧ ((data ++ [x]).filter id).length % 2 = 1) ∧
    (charBits par b).length = (if par = .none then 10 else 11) ∧
    sampledChar par (charBits par b) = some (sentChar par b)) ∧
  (∀ (ps : PortState) (p : Port) (st : Station) (f : Frame),
    (∀ v, ps.awaiting = true → ps.visit = some v →
      ps.lineBits = (frameChars v.poll).flatMap (charBits ps.settings.parity)) ∧
    (∀ m, ps.awaiting = false → ps.sending = some ⟨f, m⟩ →
      ps.lineBits = (frameChars f).flatMap (charBits ps.settings.parity)) ∧
    (ps.polled = some st →
      ps.sampledCommand p ((frameChars f).map (charBits ps.settings.parity))
        = some (decodeAnswer ps.settings.parity p st.number st.role
          ((frameChars f).map (sentChar ps.settings.parity)))) ∧
    (ps.awaiting = false → ∀ chars, ps.answerCommand p chars = none)) ∧
  ∀ (par : Parity) (p : Port) (st : Nat) (role : Role),
    decodeAnswer par p st role [] = .miss p ∧
    (∀ (f : Frame) (chars : List RxChar), f.payload.length ≤ 48 → chars.map RxChar.data = frameChars f →
      (∃ c ∈ chars, parityFault par c = true ∨ stopFault c = true) →
      decodeAnswer par p st role chars = .frameDiscarded p) ∧
    (∀ (f : Frame) (chars : List RxChar) (hi lo : Byte), f.payload.length ≤ 48 →
      chars.map RxChar.data = frameBody f ++ [hi, lo] → [hi, lo] ≠ checkChars (frameBody f) →
      decodeAnswer par p st role chars = .frameDiscarded p) ∧
    (∀ (c : RxChar) (rest : List RxChar), c.data ≠ 0xC5 → decodeAnswer par p st role (c :: rest) = .idleTimeEnd p) ∧
    (∀ chars : List RxChar, 6 ≤ chars.length → 48 < ((chars.map RxChar.data).getD 5 0).toNat →
      decodeAnswer par p st role chars = .idleTimeEnd p) ∧
    (∀ (f : Frame) (k : Nat), f.payload.length ≤ 48 → 0 < k → k < f.payload.length + 8 →
      decodeAnswer par p st role (((frameChars f).take k).map (sentChar par)) = .idleTimeEnd p) ∧
    (∀ f : Frame, f.payload.length ≤ 48 → f.src.toNat ≠ st →
      decodeAnswer par p st role ((frameChars f).map (sentChar par)) = .sourceMismatch p)

/-! ### The lines -/

/-- POLL on a port that may send and is not in poll hold: a visit goes on with its next exchange; otherwise the
station at the poll position is visited, or passed over when it is SILENT with a skip count below 3; a cycle in
which no station was polled is followed by a send turn. POLL carries the station's number as destination, 127 as
source, kind 0x01 and no payload, and its characters are those of R191 (R5, R8, R17, R191, R195).

No POLL goes out in poll hold, from a port that is not RUNNING, while the port sends, or while it awaits an
answer. Poll hold ends the send turn of each port and its visit, at once or with the exchange in progress, and
does so before a frame leaves a queue, so that a hold which that frame ends has its effect as well (R5, R6, R12,
R18; the order of the ports within the step is the model's choice, log 32). -/
def Obligations.PollVisits : Prop :=
  (
    ∀ (s : State) (p : Port), s.powered = true → s.line.pollHold = false → (s.port p).mode = .running →
      (s.port p).sending = none → (s.port p).awaiting = false →
      let poll (n : Nat) : Frame := ⟨BitVec.ofNat 8 n, 127, 0x01, 0, []⟩
      (∀ n, frameChars (poll n) = [0xC5, BitVec.ofNat 8 n, 127, 1, 0, 0] ++ checkChars [0xC5, BitVec.ofNat 8 n, 127, 1, 0, 0]) ∧
      (∀ v, (s.port p).visit = some v →
        exec (.poll p) s = .next (s.modPort p fun ps =>
          { ps with
            visit := some { v with exchanges := v.exchanges + 1, poll := poll v.station }, awaiting := true
            turnLeft := 0, breakDue := false })) ∧
      ((s.port p).visit = none →
        (∀ st, (s.port p).stations[(s.port p).pollPos]? = some st → (st.poll = .active ∨ 3 ≤ st.skips) →
          exec (.poll p) s = .next (s.modPort p fun ps =>
            { ps with
              visit := some ⟨st.number, 1, false, poll st.number, false⟩, awaiting := true, turnLeft := 0, breakDue := false
              cyclePolled := true
              stations := ps.stations.map fun x =>
                if x.number = st.number then { x with skips := if x.poll = .silent then 0 else x.skips } else x })) ∧
        (∀ st, (s.port p).stations[(s.port p).pollPos]? = some st → st.poll = .silent → st.skips < 3 →
          if (s.port p).pollPos + 1 < (s.port p).stations.length then
            exec (.poll p) s = exec (.poll p) (s.modPort p fun ps =>
              { ps with stations := ps.passedOver st, pollPos := ps.pollPos + 1 })
          else if (s.port p).cyclePolled = true then
            exec (.poll p) s = exec (.poll p) (s.modPort p fun ps =>
              { ps with stations := ps.passedOver st, pollPos := 0, cyclePolled := false })
          else
            exec (.poll p) s = .next ((s.modPort p fun ps =>
              { ps with stations := ps.passedOver st, pollPos := 0 }).beginTurn p)) ∧
        ((s.port p).stations[(s.port p).pollPos]? = none →
          exec (.poll p) s = .next ((s.modPort p fun ps => { ps with pollPos := 0, cyclePolled := false }).beginTurn p)))) ∧
  (
    ∀ (s : State) (p : Port), s.powered = true →
      (32 < s.line.s.ownQueue.length ∨ (s.port p).mode ≠ .running ∨ (s.port p).sending ≠ none ∨
        (s.port p).awaiting = true) →
      let held (t : State) := ∀ q, (t.port q).turnLeft = 0 ∧ (t.port q).awaiting = (s.port q).awaiting ∧
        ((s.port q).awaiting = false → (t.port q).visit = none) ∧
        (∀ v, (s.port q).awaiting = true → (s.port q).visit = some v → (t.port q).visit = some { v with cut := true })
      (∃ t, exec (.poll p) s = .next t ∧ (t.port p).awaiting = (s.port p).awaiting ∧
        (t.port p).stations = (s.port p).stations ∧ t.garage = s.garage ∧ t.pending = s.pending ∧
        (s.line.s.ownQueue.length ≤ 32 → t = s) ∧ (32 < s.line.s.ownQueue.length → held t)) ∧
      (32 < s.line.s.ownQueue.length → ∀ q, held (s.sendNext q) ∧ held (s.beginTurn q)))

/-- MISS and SOURCE_MISMATCH charge the polled station a miss, and the third miss of an ACTIVE station makes it
SILENT, with ALERT STATION_SILENT and the loss of its lift; a mismatch also adds one to the fault tally. The
exchange and the visit end, and the poll position moves on from the station (R4, R6, R7, R8, R120 ❷; what the loss of
a lift brings is stated by LiftLost, the send turn that follows by TransitRouted). -/
def Obligations.MissCharged : Prop :=
  ∀ (s : State) (p : Port) (st : Station), Asking s p st → NothingDue s p →
    let third := st.poll = .active ∧ 3 ≤ st.misses + 1
    let movedOn (t : State) : Prop :=
      let at' := (s.port p).stations[(s.port p).pollPos]?.map Station.number = some st.number
      let last := (s.port p).stations.length ≤ (s.port p).pollPos + 1
      (t.port p).pollPos = (if at' then (if last then 0 else (s.port p).pollPos + 1) else (s.port p).pollPos) ∧
      (t.port p).cyclePolled = (if at' ∧ last then false else (s.port p).cyclePolled)
    let after (u t : State) :=
      Undisturbed u t ∧ (t.port p).awaiting = false ∧ (t.port p).visit = none ∧ movedOn t ∧
      (t.port p).stations = (s.port p).missedBy st ∧
      (t.port (otherPort p)).stations = (s.port (otherPort p)).stations ∧
      (¬ third → t.garage = s.garage) ∧
      (third → t.garage = (match roleLift st.role with
        | some l => (s.garage.loseLift l).afterwards
        | none => s.garage)) ∧
      (third → Told s t AlertKind.stationSilent (w8 (portCode p) ++ w8 st.number))
    (∃ t, exec (.miss p) s = .next t ∧ after s t) ∧
    (∃ t, exec (.sourceMismatch p) s = .next t ∧
      after (s.modPort p fun ps => { ps with faultTally := tallyUp ps.faultTally }) t)

/-- An EMPTY answer, a discarded frame and a frame that ends with the idle time count as answers: the miss count is 0,
a SILENT station is ACTIVE with ALERT STATION_BACK, the exchange and the visit end, and the poll position moves on
from the station; a discarded frame also adds one to the fault tally. Only an accepted answer brings back a lift that
was OFFLINE with its station ACTIVE (R4, R6, R8, R10, R11, R120; the send turn that follows is stated by
TransitRouted). -/
def Obligations.AnswersHeard : Prop :=
  ∀ (s : State) (p : Port) (st : Station), Asking s p st → NothingDue s p →
    let movedOn (t : State) : Prop :=
      let at' := (s.port p).stations[(s.port p).pollPos]?.map Station.number = some st.number
      let last := (s.port p).stations.length ≤ (s.port p).pollPos + 1
      (t.port p).pollPos = (if at' then (if last then 0 else (s.port p).pollPos + 1) else (s.port p).pollPos) ∧
      (t.port p).cyclePolled = (if at' ∧ last then false else (s.port p).cyclePolled)
    let after (u t : State) (g : Garage) :=
      Undisturbed u t ∧ (t.port p).awaiting = false ∧ (t.port p).visit = none ∧ movedOn t ∧
      (t.port p).stations = (s.port p).answeredBy st ∧
      (t.port (otherPort p)).stations = (s.port (otherPort p)).stations ∧ t.garage = g ∧
      (st.poll = .silent → Alerted s t AlertKind.stationBack (w8 (portCode p) ++ w8 st.number))
    let discarded := s.modPort p fun ps => { ps with faultTally := tallyUp ps.faultTally }
    let g := if st.poll = .silent then s.garage.heardAs st else s.garage
    (∃ t, exec (.empty p) s = .next t ∧ after s t (s.garage.heardAs st)) ∧
    (∃ t, exec (.frameDiscarded p) s = .next t ∧ after discarded t g) ∧
    (∃ t, exec (.idleTimeEnd p) s = .next t ∧ after discarded t g)

/-- An answer that no exchange awaits does nothing (the model's choice, log 5), the answer of a station that was
removed during its exchange, whether it has been loaded again or not, is discarded without any tally and so is its
miss (R4), and a data frame of more than 48 characters ends as R11 gives (the model's choice, log 6). A part without
power does nothing but start (the model's choice, log 2). -/
def Obligations.AnswersOutOfPlace : Prop :=
  ∀ (s : State) (p : Port) (kind flags : Byte) (pl : List Byte) (f : Frame) (c : Instr),
    c ∈ [.miss p, .empty p, .frameDiscarded p, .idleTimeEnd p, .sourceMismatch p, .transit p f,
        .unknownKind p kind flags pl] ∨ frameCommand p kind flags pl = some c →
    (s.powered = true → (s.port p).awaiting = false → s.line.pollHold = false → exec c s = .next s) ∧
    (s.powered = true → (s.port p).awaiting = true →
      (∀ v, (s.port p).visit = some v → v.removed = true ∨ ∀ x ∈ (s.port p).stations, x.number ≠ v.station) →
      NothingDue s p →
      ∃ t, exec c s = .next t ∧ Undisturbed s t ∧ t.garage = s.garage ∧ (t.port p).awaiting = false ∧
        (t.port p).visit = none ∧ (t.port p).stations = (s.port p).stations ∧
        (∀ v, (s.port p).visit = some v → v.removed = true → (t.port p).pollPos = (s.port p).pollPos ∧
          (t.port p).cyclePolled = (s.port p).cyclePolled) ∧
        (t.port (otherPort p)).stations = (s.port (otherPort p)).stations) ∧
    (∀ st, Asking s p st →
      (48 < pl.length → frameCommand p kind flags pl = some c → exec c s = exec (.idleTimeEnd p) s) ∧
      (48 < pl.length → exec (.unknownKind p kind flags pl) s = exec (.idleTimeEnd p) s) ∧
      (48 < f.payload.length → exec (.transit p f) s = exec (.idleTimeEnd p) s)) ∧
    (s.powered = false → ∀ d : Instr, (∀ b, d ≠ .powerUp b) → (∀ b, d ≠ .powerLoss b) → exec d s = .next s)

/-- A break on a RUNNING port: LINE_FAULT with ALERT LINE_BREAK, the exchange abandoned with neither miss nor answer,
the tallies and the queues kept but for the ALERT, which joins Port S's own queue as R14 gives; a MOVE_ORDER lost with
it starts its move timer. The poll position moves on from the station whose visit the break ends, and stays when there
is no visit, or when the station was removed during its exchange. A break on any other port does nothing. LINE_RETURN
brings the port back to RUNNING with a send turn (R12, R135; a break taken also while the port sends, and none on a
DISABLED port, are the model's choice, log 7; a reply lost with the break takes its settings or its restart with it,
log 8). -/
def Obligations.BreakAndReturn : Prop :=
  ∀ (s : State) (p : Port), s.powered = true → NothingDue s p →
    let own := s.line.s.ownQueue
    let isAlert (q : QFrame) : Bool := q.frame.kind == Kind.alert
    let joined : List QFrame := match s.line.stationOfRole .office with
      | some n =>
        let alert : QFrame := ⟨alertFrame n s.garage.seconds 3 (w8 (portCode p)), .plain⟩
        if own.length < 48 then own ++ [alert] else if own.any isAlert then own.eraseP isAlert ++ [alert] else own
      | none => own
    ((s.port p).mode = .running → ∃ t, exec (.lineBreak p) s = .next t ∧
      (t.port p).mode = .lineFault ∧ (t.port p).awaiting = false ∧ (t.port p).visit = none ∧
      (t.port p).sending = none ∧ (t.port p).stations = (s.port p).stations ∧
      (let at' := ∃ v, (s.port p).visit = some v ∧ v.removed = false ∧
          (s.port p).stations[(s.port p).pollPos]?.map Station.number = some v.station
        let last := (s.port p).stations.length ≤ (s.port p).pollPos + 1
        (¬ at' → (t.port p).pollPos = (s.port p).pollPos) ∧ (at' → ¬ last → (t.port p).pollPos = (s.port p).pollPos + 1) ∧
        (at' → last → (t.port p).pollPos = 0 ∧ (t.port p).cyclePolled = false) ∧
        (¬ (at' ∧ last) → (t.port p).cyclePolled = (s.port p).cyclePolled)) ∧
      (t.port p).faultTally = (s.port p).faultTally ∧ (t.port p).dropTally = (s.port p).dropTally ∧
      (t.port p).transitQueue = (s.port p).transitQueue ∧ (t.port p).settings = (s.port p).settings ∧
      SamePort (s.port (otherPort p)) (t.port (otherPort p)) ∧
      (t.port (otherPort p)).stations = (s.port (otherPort p)).stations ∧
      t.garage = (match (s.port p).sending with
        | some ⟨_, .moveOrder l n⟩ => s.garage.modLift l fun u =>
          if u.inFlight.map Move.number = some n then { u with moveTimer := some s.garage.movePeriod } else u
        | _ => s.garage) ∧
      (s.line.TablesSound →
        (p = .s → t.line.s.ownQueue = joined ∧ t.line.g.ownQueue <:+ s.line.g.ownQueue ∧
          (joined.length ≤ 32 → t.line.g.ownQueue = s.line.g.ownQueue)) ∧
        (p = .g → t.line.g.ownQueue = s.line.g.ownQueue ∧ t.line.s.ownQueue <:+ joined ∧
          (joined.length ≤ 32 → t.line.s.ownQueue = joined))) ∧
      Alerted s t AlertKind.lineBreak (w8 (portCode p))) ∧
    ((s.port p).mode ≠ .running → s.line.pollHold = false → exec (.lineBreak p) s = .next s) ∧
    ((s.port p).mode = .lineFault → s.line.pollHold = false →
      exec (.lineReturn p) s = .next ((s.modPort p fun ps => { ps with mode := .running }).beginTurn p)) ∧
    ((s.port p).mode ≠ .lineFault → s.line.pollHold = false → exec (.lineReturn p) s = .next s)

/-- The transmit arbiter: when a frame has been sent, the turn's next frame is taken from the queue that holds
some, from the own queue while both do and the pass-over count is below 2, and from the transit queue at 2 (R17).

MOVE_ORDER_SENT: the lift's move timer starts with the move period when the move that the order carried is in
flight (R135, R181; that a timer starts only for the number its order carried is DEDUCED, log 25); it changes
nothing when no such order is being sent (the model's choice, log 4).

A send turn is up to two frames: a port that may send begins the first, chosen by the arbiter, with one left; a
port that may not keeps its two. In poll hold a port that may send goes on frame after frame, whatever its turn, under
the same arbiter, once the hold has ended the visits and turns of both ports: at the end of each of its frames, and
at every command (R6, R17, R18; that Port S goes first, so that the hold may end before Port G begins, is log 32). -/
def Obligations.TransmissionEnds : Prop :=
  (
    ∀ (s : State) (p : Port) (q : QFrame), s.powered = true → NothingDue s p → s.line.pollHold = false →
      (s.port p).mode = .running → (s.port p).awaiting = false → (s.port p).sending = some q → q.mark = .plain →
      let a := s.port p
      let becomes (b : PortState) := exec (.frameSent p) s = .next (s.modPort p fun _ => b)
      (a.turnLeft = 0 → becomes { a with sending := none }) ∧
      (0 < a.turnLeft →
        (a.ownQueue = [] → a.transitQueue = [] → becomes { a with sending := none, turnLeft := 0 }) ∧
        (∀ x own, a.ownQueue = x :: own → a.transitQueue = [] →
          becomes { a with sending := some x, ownQueue := own, turnLeft := a.turnLeft - 1, breakDue := false }) ∧
        (∀ f rest, a.ownQueue = [] → a.transitQueue = f :: rest →
          becomes { a with
            sending := some ⟨f, .plain⟩, transitQueue := rest, passOver := 0, turnLeft := a.turnLeft - 1
            breakDue := false }) ∧
        (∀ x own f rest, a.ownQueue = x :: own → a.transitQueue = f :: rest →
          if a.passOver < 2 then
            becomes { a with
              sending := some x, ownQueue := own, passOver := a.passOver + 1, turnLeft := a.turnLeft - 1
              breakDue := false }
          else
            becomes { a with
              sending := some ⟨f, .plain⟩, transitQueue := rest, passOver := 0, turnLeft := a.turnLeft - 1
              breakDue := false }))) ∧
  (
    ∀ (s : State) (l : Lift), s.powered = true → s.line.lineDueG = [] →
      (∀ f n, s.line.g.sending = some ⟨f, .moveOrder l n⟩ → ∃ t, exec (.moveOrderSent l) s = .next t ∧
        Undisturbed s t ∧ t.line.g.stations = s.line.g.stations ∧ t.line.s.stations = s.line.s.stations ∧
        t.garage = s.garage.modLift l fun u =>
          if u.inFlight.map Move.number = some n then { u with moveTimer := some s.garage.movePeriod } else u) ∧
      ((∀ f n, s.line.g.sending ≠ some ⟨f, .moveOrder l n⟩) → s.line.pollHold = false →
        exec (.moveOrderSent l) s = .next s)) ∧
  (
    ∀ (s : State) (p : Port),
      let may (a : PortState) : Prop := a.mode = .running ∧ a.sending = none ∧ a.awaiting = false
      let takes (a : PortState) (left : Nat) : PortState := match a.ownQueue, a.transitQueue with
        | [], [] => { a with turnLeft := 0 }
        | [], f :: rest => { a with
            sending := some ⟨f, .plain⟩, transitQueue := rest, passOver := 0, turnLeft := left, breakDue := false }
        | x :: own, [] => { a with sending := some x, ownQueue := own, turnLeft := left, breakDue := false }
        | x :: own, f :: rest => if a.passOver < 2 then { a with
              sending := some x, ownQueue := own, passOver := a.passOver + 1, turnLeft := left, breakDue := false }
            else { a with
              sending := some ⟨f, .plain⟩, transitQueue := rest, passOver := 0, turnLeft := left, breakDue := false }
      let cut (a : PortState) : PortState := match a.visit with
        | none => { a with turnLeft := 0 }
        | some v => if a.awaiting = true then { a with turnLeft := 0, visit := some { v with cut := true } }
          else if v.removed = false ∧ a.stations[a.pollPos]?.map Station.number = some v.station then
            (if a.pollPos + 1 < a.stations.length then { a with turnLeft := 0, visit := none, pollPos := a.pollPos + 1 }
            else { a with turnLeft := 0, visit := none, pollPos := 0, cyclePolled := false })
          else { a with turnLeft := 0, visit := none }
      (s.line.s.ownQueue.length ≤ 32 →
        (may (s.port p) → s.beginTurn p = s.modPort p fun a => takes a 1) ∧
        (¬ may (s.port p) → s.beginTurn p = s.modPort p fun a => { a with turnLeft := 2 })) ∧
      (s.powered = true → 32 < s.line.s.ownQueue.length →
        (∀ q, NothingDue s p → (s.port p).mode = .running → (s.port p).awaiting = false → (s.port p).sending = some q →
          q.mark = .plain → ∃ t, exec (.frameSent p) s = .next t ∧
            t.port p = takes (cut { s.port p with sending := none }) 0) ∧
        ∃ t, exec (.poll p) s = .next t ∧ t.garage = s.garage ∧
          (may s.line.s → t.line.s = takes (cut s.line.s) 0) ∧ (¬ may s.line.s → t.line.s = cut s.line.s) ∧
          (may s.line.g → 32 < t.line.s.ownQueue.length → t.line.g = takes (cut s.line.g) 0) ∧
          (¬ may s.line.g ∨ t.line.s.ownQueue.length ≤ 32 → t.line.g = cut s.line.g)))

/-- LINE_SETTINGS_TAKE_EFFECT as the reply to a SET_LINE has been sent: Port S takes its settings; Port G takes them
at once when it is idle, starts when it was DISABLED and is enabled, is DISABLED with its queues emptied into the
tallies when it is turned off (each frame in transit on its drop tally, each frame of its own on the notice drop
tally), and waits for the end of its exchange or frame otherwise. Starting, its pass-over count is 0 (R22, R120 ❹;
what the loss of a lift brings is stated by LiftLost; that the command stands for the end of the reply is log 4).

The Port G settings that wait for the end of its exchange or frame take effect at that end, in the order of their
replies, at the end of a frame, at a break, and, when nothing is in progress, at LINE_SETTINGS_TAKE_EFFECT (R22; at the
end of an exchange by TransitRouted; what each of them changes by LineManagement). -/
def Obligations.LineSettingsTakeEffect : Prop :=
  (
    ∀ (s : State) (f : Frame) (r : LineRequest), s.powered = true → s.line.s.sending = some ⟨f, .lineReply r⟩ →
      ∃ t, exec (.lineSettingsTakeEffect r.port) s = .next t ∧ t.pending = s.pending ∧
        t.line.s.stations = s.line.s.stations ∧ t.line.passTable = s.line.passTable ∧
        (r.port = .s → t.line.s.settings = r.settings ∧ SamePort s.line.g t.line.g ∧ t.garage = s.garage ∧
          t.line.lineDueG = s.line.lineDueG) ∧
        (r.port = .g → t.line.s.settings = s.line.s.settings) ∧
        (r.port = .g → (s.line.g.awaiting = true ∨ s.line.g.sending ≠ none) →
          t.line.lineDueG = s.line.lineDueG ++ [r] ∧ t.line.g.settings = s.line.g.settings ∧ t.line.g.mode = s.line.g.mode ∧
            t.garage = s.garage) ∧
        (r.port = .g → s.line.g.awaiting = false → s.line.g.sending = none →
          t.line.g.settings = r.settings ∧ t.line.lineDueG = s.line.lineDueG ∧
          (r.enable = true → t.garage = s.garage) ∧
          (r.enable = true → s.line.g.mode ≠ .disabled →
            t.line.g.mode = s.line.g.mode ∧ t.line.g.stations = s.line.g.stations) ∧
          (r.enable = true → s.line.g.mode = .disabled →
            t.line.g.mode = .running ∧ (s.line.g.visit = none → t.line.g.pollPos = 0) ∧
            (s.line.pollHold = false → t.line.g.passOver = 0) ∧
            t.line.g.stations = s.line.g.stations.map fun x => { x with poll := .active, misses := 0, skips := 0 }) ∧
          (r.enable = false → s.line.g.mode = .disabled → t.line.g.mode = .disabled ∧ t.garage = s.garage) ∧
          (r.enable = false → s.line.g.mode ≠ .disabled →
            t.line.g.mode = .disabled ∧ t.line.g.ownQueue = [] ∧ t.line.g.transitQueue = [] ∧
            t.line.g.dropTally = tallyAdd s.line.g.dropTally s.line.g.transitQueue.length ∧
            tallyAdd s.line.noticeDrops s.line.g.ownQueue.length ≤ t.line.noticeDrops ∧
            (s.garage.chan0.state = .idle → s.garage.chan1.state = .idle →
              t.line.noticeDrops = tallyAdd s.line.noticeDrops s.line.g.ownQueue.length) ∧
            t.garage = ((s.garage.loseLift .a).loseLift .b).afterwards))) ∧
  (
    ∀ s : State, s.powered = true →
      let waits (u : State) (due : List LineRequest) : State := { u with line := { u.line with lineDueG := due } }
      let applied (u : State) : State := u.line.lineDueG.foldl State.applyLine (waits u [])
      let silent : State := s.modPort .g fun a => { a with sending := none }
      (∀ q, s.line.g.sending = some q → q.mark = .plain →
        exec (.frameSent .g) s = .next (((applied silent).sendNext .g).underHold)) ∧
      (∀ l f n, s.line.g.sending = some ⟨f, .moveOrder l n⟩ →
        exec (.moveOrderSent l) s = .next (((applied { silent with
          garage := s.garage.modLift l fun u =>
            if u.inFlight.map Move.number = some n then { u with moveTimer := some s.garage.movePeriod } else u }).sendNext
              .g).underHold)) ∧
      (s.line.g.mode = .running → ∃ u, ∀ due, exec (.lineBreak .g) (waits s due) = .next ((applied (waits u due)).underHold)) ∧
      (s.line.g.awaiting = false → s.line.g.sending = none → (∀ f r, s.line.s.sending = some ⟨f, .lineReply r⟩ → r.port = .s) →
        exec (.lineSettingsTakeEffect .g) s = .next ((applied s).underHold)))

/-- TRANSIT: a frame for another station is dropped on the tally of its own port when no enabled port serves its
destination, lost without a tally when no entry of the pass table covers it or the first that does says DROP,
turned away with ALERT PASS_GATED by a gate whose lift is not OUT, and otherwise joins the transit queue of the
destination's port unchanged, or the drop tally of that port when 16 frames wait there (R16, R19).

The end of an exchange. The visit goes on when an accepted data frame carries MORE, fewer than four exchanges were
made, poll hold has neither cut the visit nor begun, the port is RUNNING and the station has stayed in its table;
otherwise it ends, and the poll position moves on from its station, to the first entry and a new cycle after the last,
but for a station removed during the exchange. The Port G settings that waited are applied in order, and the port
takes its send turn (the turn is stated by TransmissionEnds, the settings by LineManagement). An answer of MISS,
EMPTY, FRAME_DISCARDED, IDLE_TIME_END, SOURCE_MISMATCH or of a removed station carries no MORE; the answer's own
effects leave the exchange as it is (R4 to R6, R10, R11, R17, R18, R22). -/
def Obligations.TransitRouted : Prop :=
  (
    ∀ (s : State) (p : Port) (st : Station) (f : Frame), Asking s p st → NothingDue s p → f.payload.length ≤ 48 →
      let entry := s.line.passTable.find? fun en =>
        (en.source = none || en.source = some st.number) && en.dest == f.dest.toNat &&
          decide (en.low ≤ f.kind.toNat) && decide (f.kind.toNat ≤ en.high)
      let opened (en : PassEntry) :=
        en.action = .pass ∨ (en.action = .gateA ∧ s.garage.liftA.state = .out) ∨
          (en.action = .gateB ∧ s.garage.liftB.state = .out)
      ∃ t, exec (.transit p f) s = .next t ∧ t.garage = s.garage.heardAs st ∧
        (t.port p).stations = (s.port p).answeredBy st ∧ (t.port p).awaiting = false ∧
        (s.line.reaches f.dest.toNat = none →
          Heard p (s.modPort p fun ps => { ps with dropTally := tallyUp ps.dropTally }) t st) ∧
        (∀ q, s.line.reaches f.dest.toNat = some q →
          (entry = none → Heard p s t st) ∧
          (∀ en, entry = some en → en.action = .drop → Heard p s t st) ∧
          (∀ en, entry = some en → en.action ≠ .drop → ¬ opened en →
            Heard p s t st ∧ Told s t AlertKind.passGated (w8 st.number ++ [f.dest] ++ [f.kind])) ∧
          (∀ en, entry = some en → opened en →
            if (s.port q).transitQueue.length < 16 then
              Heard p (s.modPort q fun ps => { ps with transitQueue := ps.transitQueue ++ [f] }) t st ∧
                (t.port q).forwards f
            else Heard p (s.modPort q fun ps => { ps with dropTally := tallyUp ps.dropTally }) t st))) ∧
  (
    ∀ (s : State) (p : Port), s.powered = true → (s.port p).awaiting = true →
      let waits (u : State) (due : List LineRequest) : State := { u with line := { u.line with lineDueG := due } }
      let comes (c : Instr) (more : Bool) : Prop := ∃ u : State,
        (u.port p).awaiting = true ∧ (u.port p).visit = (s.port p).visit ∧ (u.port p).mode = (s.port p).mode ∧
        (u.port p).pollPos = (s.port p).pollPos ∧ (u.port p).cyclePolled = (s.port p).cyclePolled ∧
        (u.port p).sending = (s.port p).sending ∧
        (u.port p).stations.map Station.number = (s.port p).stations.map Station.number ∧
        ∀ due, exec c (waits s due) = .next (((waits u due).finishExchange p more).underHold)
      let settled (w : State) : State := match p with
        | .s => w
        | .g => w.line.lineDueG.foldl State.applyLine (waits w [])
      (∀ c ∈ [Instr.miss p, .empty p, .frameDiscarded p, .idleTimeEnd p, .sourceMismatch p], comes c false) ∧
      (∀ f : Frame, f.payload.length ≤ 48 → (s.port p).polled ≠ none → comes (.transit p f) (f.flags.getLsbD 0)) ∧
      (∀ (kind flags : Byte) (pl : List Byte) (c : Instr), pl.length ≤ 48 → (s.port p).polled ≠ none →
        c = .unknownKind p kind flags pl ∨ frameCommand p kind flags pl = some c → kind ≠ Kind.loadStations →
        (kind = Kind.setLine ∨ kind = Kind.restart → p = .s ∧ s.line.s.hasRoom) → comes c (flags.getLsbD 0)) ∧
      (∀ (kind flags : Byte) (pl : List Byte) (f : Frame) (c : Instr), (s.port p).polled = none →
        c ∈ [.transit p f, .unknownKind p kind flags pl] ∨ frameCommand p kind flags pl = some c → comes c false) ∧
      (∀ (u : State) (more : Bool) (v : Visit), (u.port p).awaiting = true → (u.port p).visit = some v →
        let a := u.port p
        let goes : Prop := more = true ∧ v.exchanges < 4 ∧ v.cut = false ∧ v.removed = false ∧ u.line.s.ownQueue.length ≤ 32 ∧
          a.mode = .running ∧ ∃ x ∈ a.stations, x.number = v.station
        let at' : Prop := v.removed = false ∧ a.stations[a.pollPos]?.map Station.number = some v.station
        let ends (b : PortState) : Prop := u.finishExchange p more = (settled (u.modPort p fun _ => b)).beginTurn p
        (goes → ends { a with awaiting := false }) ∧
        (¬ goes → at' → a.pollPos + 1 < a.stations.length →
          ends { a with awaiting := false, visit := none, pollPos := a.pollPos + 1 }) ∧
        (¬ goes → at' → a.stations.length ≤ a.pollPos + 1 →
          ends { a with awaiting := false, visit := none, pollPos := 0, cyclePolled := false }) ∧
        (¬ goes → ¬ at' →
          ends { a with awaiting := false, visit := none })))

/-- A full own queue of Port S gives up its oldest ALERT for an arriving frame, and loses the frame when it holds
no ALERT; either way the notice drop tally counts one (R14). Port G's own queue takes a REPLY only while it holds
fewer than six frames (R15), and a MOVE_ORDER while it holds fewer than eight; one that arrives at eight is lost
and counted (the model's choice, log 9).

Where a frame that the part originates goes: a REPLY to the own queue of the port of its request; any other to the
own queue of the port whose table has its station, by number or by role, and it is discarded and counted when no
table has it or a DISABLED port does. The frames of an event, those of the work that it sets off among them, join the
queues in their order, at the tail while there is room: shown for MOVE_DONE, with its CAR_READY, HOOK_OPEN,
RUNNER_TASK and MOVE_ORDER, and for RETRIEVE (R13, R14, R15, R23; log 31). -/
def Obligations.OwnQueueFull : Prop :=
  (
    ∀ (ln : Line) (x : QFrame),
      (ln.s.ownQueue.length < 48 →
        ln.enqueue .s x = { ln with s := { ln.s with ownQueue := ln.s.ownQueue ++ [x] } }) ∧
      (∀ a y b, ln.s.ownQueue = a ++ y :: b → 48 ≤ ln.s.ownQueue.length → y.frame.kind = Kind.alert →
        (∀ z ∈ a, z.frame.kind ≠ Kind.alert) →
        ln.enqueue .s x =
          { ln with s := { ln.s with ownQueue := a ++ b ++ [x] }, noticeDrops := tallyUp ln.noticeDrops }) ∧
      (48 ≤ ln.s.ownQueue.length → (∀ z ∈ ln.s.ownQueue, z.frame.kind ≠ Kind.alert) →
        ln.enqueue .s x = { ln with noticeDrops := tallyUp ln.noticeDrops }) ∧
      (x.frame.kind ≠ Kind.moveOrder → ln.g.ownQueue.length < 6 →
        ln.enqueue .g x = { ln with g := { ln.g with ownQueue := ln.g.ownQueue ++ [x] } }) ∧
      (x.frame.kind ≠ Kind.moveOrder → 6 ≤ ln.g.ownQueue.length →
        ln.enqueue .g x = { ln with noticeDrops := tallyUp ln.noticeDrops }) ∧
      (x.frame.kind = Kind.moveOrder → ln.g.ownQueue.length < 8 →
        ln.enqueue .g x = { ln with g := { ln.g with ownQueue := ln.g.ownQueue ++ [x] } }) ∧
      (x.frame.kind = Kind.moveOrder → 8 ≤ ln.g.ownQueue.length →
        ln.enqueue .g x = { ln with noticeDrops := tallyUp ln.noticeDrops })) ∧
  (
    (∀ (ln : Line) (o : Out),
      let frame (n : Nat) : QFrame := ⟨⟨BitVec.ofNat 8 n, 127, o.kind, 0, o.payload⟩, o.mark⟩
      let lost : Line := { ln with noticeDrops := tallyUp ln.noticeDrops }
      let joins (n : Nat) : Prop :=
        ((∃ x ∈ ln.s.stations, x.number = n) → ln.queueOut o = ln.enqueue .s (frame n)) ∧
        ((∀ x ∈ ln.s.stations, x.number ≠ n) →
          ((∃ x ∈ ln.g.stations, x.number = n) → ln.g.mode ≠ .disabled → ln.queueOut o = ln.enqueue .g (frame n)) ∧
          ((∀ x ∈ ln.g.stations, x.number ≠ n) ∨ ln.g.mode = .disabled → ln.queueOut o = lost))
      (∀ p n, o.dest = .reply p n → ln.queueOut o = ln.enqueue p (frame n)) ∧
      (∀ n, o.dest = .station n → joins n) ∧
      (∀ r, o.dest = .role r →
        (∀ a x b, ln.s.stations ++ ln.g.stations = a ++ x :: b → x.role = r → (∀ y ∈ a, y.role ≠ r) → joins x.number) ∧
        ((∀ y ∈ ln.s.stations ++ ln.g.stations, y.role ≠ r) → ln.queueOut o = lost))) ∧
    (∀ (ln : Line) (outs : List Out),
      let goes (o : Out) : Option (Port × Nat) := match o.dest with
        | .reply p n => some (p, n)
        | .station n => (ln.reaches n).map fun p => (p, n)
        | .role r => (ln.stationOfRole r).bind fun n => (ln.reaches n).map fun p => (p, n)
      let frames (p : Port) : List QFrame := outs.filterMap fun o => (goes o).bind fun x =>
        if x.1 = p then some ⟨⟨BitVec.ofNat 8 x.2, 127, o.kind, 0, o.payload⟩, o.mark⟩ else none
      ln.s.ownQueue.length + (frames .s).length ≤ 48 → ln.g.ownQueue.length + (frames .g).length ≤ 6 →
        (outs.foldl Line.queueOut ln).s.ownQueue = ln.s.ownQueue ++ frames .s ∧
        (outs.foldl Line.queueOut ln).g.ownQueue = ln.g.ownQueue ++ frames .g) ∧
    (∀ (s : State) (f : Ev → Ev), let e := f ⟨s.garage, []⟩
      s.run f = { s with garage := e.g, line := e.out.foldl Line.queueOut s.line }) ∧
    (∀ (s : State) (st : Station) (flags : Byte) (pl : List Byte),
      let back (p : Port) : List Out := if st.poll = .silent then
        [⟨.role .office, Kind.alert, w8 2 ++ w32 s.garage.seconds ++ (w8 (portCode p) ++ w8 st.number), .plain⟩] else []
      let comes (o : Host.Outcome State Fault Refusal) (p : Port) (e : Ev) : Prop :=
        o = .next ((State.finishExchange { s with
          garage := e.g
          line := (back p ++ e.out).foldl Line.queueOut
            (s.modPort p fun a => { a with stations := a.answeredBy st }).line } p (flags.getLsbD 0)).underHold)
      (∀ l m, Asking s .g st → st.role = liftRole l → pl.length = 1 → ((s.garage.heardLift l st).lift l).inFlight = some m →
        m.number = u8 pl 0 →
        comes (exec (.moveDone .g flags pl) s) .g (settle (moveCompleted l m ⟨s.garage.heardLift l st, []⟩))) ∧
      (AskedBy s st .podium ∨ AskedBy s st .desk → s.garage.mode = .service → pl.length = 4 →
        comes (exec (.retrieve .s flags pl) s) .s (settle (retrieve ⟨.s, st.number, st.role⟩ pl ⟨s.garage, []⟩)))))

/-! ### The gates -/

/-- A frame to the part of a kind that its sender's role does not permit is answered REFUSED, with no detail,
whatever its length, and does nothing else; so is one of a kind the part does not know, given as UNKNOWN_KIND
(R21).

A frame of a kind its role permits but the mode does not take is answered REFUSED, with no detail but for
ENTER_SERVICE, whose detail is check 0 and record 0, and does nothing else (R34, R38, R198).

A frame whose payload has not the length of its kind is answered BAD_REQUEST with item 0xFE; a report of the
cabinet or of a lift, which takes no REPLY, brings ALERT REPORT_MALFORMED, and so does a LIFT_STATUS, MOVE_FAULT or
MOVE_REFUSED of the right length whose readiness, position or reason is none of its codes. Nothing else is done with
it (R197). -/
def Obligations.GatesRefuse : Prop :=
  (
    ∀ (s : State) (p : Port) (st : Station) (kind flags : Byte) (pl : List Byte) (c : Instr),
      c = .unknownKind p kind flags pl ∨ frameCommand p kind flags pl = some c →
      Asking s p st → NothingDue s p → permits st.role kind = false → pl.length ≤ 48 →
      ∃ t, exec c s = .next t ∧ t.garage = s.garage.heardAs st ∧ Heard p s t st ∧
        (p = .s → s.line.s.hasRoom → t.line.s.carries (replyFrame st kind .refused [])) ∧
        (p = .g → s.line.TablesSound → s.line.g.ownQueue.length < 6 →
          t.line.g.carries (replyFrame st kind .refused []))) ∧
  (
    ∀ (s : State) (st : Station) (kind flags : Byte) (pl : List Byte) (c : Instr),
      frameCommand .s kind flags pl = some c → Asking s .s st → roleLift st.role = none →
      permits st.role kind = true → pl.length ≤ 48 →
      (s.garage.mode = .service ∧ kind ∈ [Kind.loadZones, Kind.loadStacks, Kind.loadBays, Kind.setLanes, Kind.loadCabinet,
          Kind.enterService] ∨
        s.garage.mode = .commissioning ∧ kind ∈ [Kind.arrival, Kind.retrieve, Kind.resume, Kind.cancel, Kind.handover,
          Kind.rePark, Kind.queryTicket, Kind.leaveService]) →
      Replies (exec c s) s st s.garage kind .refused (if kind = Kind.enterService then [0, 0] else [])) ∧
  (
    ∀ (s : State) (p : Port) (st : Station) (kind flags : Byte) (pl : List Byte) (c : Instr),
      frameCommand p kind flags pl = some c → Asking s p st → NothingDue s p → permits st.role kind = true →
      takenIn s.garage.mode kind = true → pl.length ≤ 48 →
      let malformed : Prop := ∃ t, exec c s = .next t ∧ t.garage = s.garage.heardAs st ∧ Heard p s t st ∧
        Told s t AlertKind.reportMalformed (w8 (portCode p) ++ w8 st.number ++ [kind] ++ w8 pl.length)
      (wellShaped kind pl = false → kind ∉ reportKinds → p = .s → roleLift st.role = none →
        Replies (exec c s) s st s.garage kind .badRequest [0xFE]) ∧
      (wellShaped kind pl = false → kind ∈ reportKinds → malformed) ∧
      (kind = Kind.liftStatus → pl.length = 1 → 1 < u8 pl 0 → malformed) ∧
      (kind = Kind.moveFault → pl.length = 2 → 2 < u8 pl 1 → malformed) ∧
      (kind = Kind.moveRefused → pl.length = 2 → 1 < u8 pl 1 → malformed))

/-! ### Requests of the podiums and the desk -/

/-- An ARRIVAL that is taken: the bay the allocator chooses is reserved, or the car goes to the lot when no bay is
chosen and the overflow count is below the capacity; a hook is reserved; the record is made; and the podium is
answered with ALLOCATION. Without a hook the answer is NO_HOOK and the bay is released (R49, R59, R66, R68 to R71,
R184).

An ARRIVAL that changes nothing: a ticket number or tag of 0 and a class code above 2 are BAD_REQUEST with the
item of the field, a number or tag that is live is DUPLICATE with what stands in the way, and a full ticket table
is NO_HOOK (R62, R66, R67, R198).

The hook for a ticket: the first FREE hook of the cabinet's table that lies in the range of the lift, or of the lot,
and otherwise the first FREE hook of the table, marked out of range; none when no hook is FREE. The table lists the
hooks in increasing number, as LOAD_CABINET makes it, so that the first is the lowest (R87; GarageLoaded). -/
def Obligations.ArrivalAnswered : Prop :=
  (
    ∀ (s : State) (st : Station) (flags : Byte) (pl : List Byte) (cls : CarClass),
      AskedBy s st .podium → s.garage.mode = .service → pl.length = 10 →
      let g := s.garage
      let n := u16 pl 0
      let tag := u32 pl 2
      n ≠ 0 → tag ≠ 0 → classOf (u8 pl 6) = some cls → g.ticket n = none → (∀ x ∈ g.tickets, x.2.tag ≠ tag) →
      g.tickets.length < 320 →
      let prio := min (u8 pl 7) 7
      let stay := if u16 pl 8 = 0 then g.limits.defaultStay else min (u16 pl 8) 2880
      let estimate := min (g.minute + stay) 4294967295
      let made (state : TicketState) (loc : Location) (bay : Option Nat) (hook : Nat) (out : Bool) : Ticket :=
        { tag := tag, cls := cls, defaultPriority := prio, arrivalMinute := g.minute, estimate := estimate
          podium := st.number, state := state, location := loc, bay := bay, unresolved := none, hook := hook
          outOfRange := out, keyStatus := .normal, seq := none, priority := none, convoy := none, hold := false
          resumePending := false, phase := none, cancelMark := false, blocked := false, runner := none, readySeq := none
          measure := if g.measuring then some ⟨none, none, none, none, none, none⟩ else none
          relocations := 0, place := false, holdTimer := none }
      let tie (h : Nat) (t : Ticket) (k : Garage) : Garage :=
        { k with tickets := k.tickets.put n t, hooks := k.hooks.adjust h fun _ => ⟨.reserved, some n, none⟩ }
      let answer (place : List Byte) (h : Nat) (out : Bool) : Frame :=
        originated st.number Kind.allocation ([Kind.arrival, 0] ++ w16 n ++ w32 tag ++ place ++ w16 h ++ wFlag out
          ++ w16 stay ++ w32 estimate ++ w8 prio)
      let exec' := exec (.arrival .s flags pl) s
      (∀ b bay l score, g.choose .everywhere cls estimate = some (b, score) → g.bay b = some bay →
        g.liftOfBay b = some l →
        (∀ h out, g.chooseHook (g.rangeFor (some l)) = some (h, out) →
          ∃ t, exec' = .next t ∧
            t.garage = (tie h (made .allocated (.hall l) (some b) h out) (g.reserve b n)).afterwards ∧
            AnsweredWith s t st
              (answer ([0] ++ w16 b ++ w8 (liftCode l) ++ w8 bay.stack ++ w8 bay.position ++ w16 score) h out)) ∧
        (g.chooseHook (g.rangeFor (some l)) = none →
          Replies exec' s st ((g.reserve b n).release b n).afterwards Kind.arrival .noHook [])) ∧
      (g.choose .everywhere cls estimate = none → g.overflowCount < g.limits.overflowCapacity →
        (∀ h out, g.chooseHook g.rangeO = some (h, out) →
          ∃ t, exec' = .next t ∧ t.garage = (tie h (made .overflow .lot none h out) g).afterwards ∧
            AnsweredWith s t st (answer [5, 0xFF, 0xFF, 0xFF, 0xFF, 0, 0xFF, 0xFF] h out)) ∧
        (g.chooseHook g.rangeO = none → Replies exec' s st g.afterwards Kind.arrival .noHook [])) ∧
      (g.choose .everywhere cls estimate = none → ¬ g.overflowCount < g.limits.overflowCapacity →
        Replies exec' s st g.afterwards Kind.arrival .full (w16 stay))) ∧
  (
    ∀ (s : State) (st : Station) (flags : Byte) (pl : List Byte),
      AskedBy s st .podium → s.garage.mode = .service → pl.length = 10 →
      let g := s.garage
      let n := u16 pl 0
      let tag := u32 pl 2
      let answers := Replies (exec (.arrival .s flags pl) s) s st g.afterwards Kind.arrival
      (n = 0 → answers .badRequest [0]) ∧
      (n ≠ 0 → tag = 0 → answers .badRequest [2]) ∧
      (n ≠ 0 → tag ≠ 0 → 2 < u8 pl 6 → answers .badRequest [6]) ∧
      (n ≠ 0 → tag ≠ 0 → u8 pl 6 ≤ 2 →
        (∀ t, g.ticket n = some t → (∀ x ∈ g.tickets, x.2.tag ≠ tag) →
          answers .duplicate ([1] ++ w16 n ++ [0, 0])) ∧
        (∀ m, g.ticket n = none → (g.tickets.findKey fun t => t.tag == tag) = some m →
          answers .duplicate ([2, 0, 0] ++ w16 m)) ∧
        (∀ t m, g.ticket n = some t → (g.tickets.findKey fun t => t.tag == tag) = some m →
          answers .duplicate ([3] ++ w16 n ++ w16 m)) ∧
        (g.ticket n = none → (∀ x ∈ g.tickets, x.2.tag ≠ tag) → 320 ≤ g.tickets.length → answers .noHook []))) ∧
  (
    ∀ (g : Garage) (range : Option (Nat × Nat)),
      let free (x : Nat × Hook) : Prop := x.2.state = .free
      let inside (x : Nat × Hook) : Prop := ∃ a b, range = some (a, b) ∧ a ≤ x.1 ∧ x.1 ≤ b
      g.rangeFor (some .a) = g.rangeA ∧ g.rangeFor (some .b) = g.rangeB ∧ g.rangeFor none = g.rangeO ∧
      (∀ a x b, g.hooks = a ++ x :: b → free x → inside x → (∀ y ∈ a, ¬ (free y ∧ inside y)) →
        g.chooseHook range = some (x.1, false)) ∧
      (∀ a x b, g.hooks = a ++ x :: b → free x → (∀ y ∈ g.hooks, ¬ (free y ∧ inside y)) → (∀ y ∈ a, ¬ free y) →
        g.chooseHook range = some (x.1, true)) ∧
      ((∀ y ∈ g.hooks, ¬ free y) → g.chooseHook range = none))

/-- A RETRIEVE that is taken, below the last request sequence number: a PARKED ticket joins the tail of the queue
with the next number; an OVERFLOW ticket is answered with state READY and no number, then enters READY at the lot
(R98 to R104, R186, R187; that the reply shows QUEUED and the place at the tail, composed before the arbiters run
in the same event, is the model's choice, log 21; the last request sequence number is stated by NumbersDealtAnew).

A RETRIEVE that is not taken changes nothing: BAD_REQUEST for ticket 0, UNKNOWN_TICKET, QUEUE_FULL when the 64
places are held, and otherwise an answer by the state of the ticket (R98, R100, R101, R198; the detail beside
ticket 0 is the model's choice, log 21). -/
def Obligations.RetrieveAnswered : Prop :=
  (
    ∀ (s : State) (st : Station) (flags : Byte) (pl : List Byte) (k : Ticket),
      AskedBy s st .podium ∨ AskedBy s st .desk → s.garage.mode = .service → pl.length = 4 → u16 pl 0 ≠ 0 →
      s.garage.ticket (u16 pl 0) = some k → s.garage.requestCounter < 4294967295 →
      let g := s.garage
      let n := u16 pl 0
      let now := g.seconds
      let prio := if bit8 pl 3 1 then min (u8 pl 2) 7 else k.defaultPriority
      let counted : Garage := { g with requestCounter := g.requestCounter + 1 }
      (k.state = .parked → g.placesHeld < 64 →
        Replies (exec (.retrieve .s flags pl) s) s st
          (Garage.afterwards { counted with
            tickets := g.tickets.adjust n fun t => { t with
              state := .queued, seq := some g.requestCounter, priority := some prio, hold := bit8 pl 3 0
              resumePending := false, blocked := false, place := true
              podium := if st.role = .podium then st.number else t.podium
              measure := t.measure.map fun m => (m.recordParked now).markWait now }
            queue := g.queue ++ [⟨n, none⟩] })
          Kind.retrieve .taken
          (w16 n ++ [4] ++ w32 g.requestCounter ++ w8 prio ++ wFlag (bit8 pl 3 0) ++ w8 (g.queue.length + 1))) ∧
      (k.state = .overflow →
        Replies (exec (.retrieve .s flags pl) s) s st
          (enterReady n .lot ⟨counted.modTicket n fun t => { t with
            podium := if st.role = .podium then st.number else t.podium
            measure := t.measure.map fun m => m.markWait now }, []⟩).g.afterwards
          Kind.retrieve .taken (w16 n ++ [7] ++ w32 0 ++ w8 prio ++ [0, 0]))) ∧
  (
    ∀ (s : State) (st : Station) (flags : Byte) (pl : List Byte),
      AskedBy s st .podium ∨ AskedBy s st .desk → s.garage.mode = .service → pl.length = 4 →
      let g := s.garage
      let n := u16 pl 0
      let answers (r : Result) (state : Nat) := Replies (exec (.retrieve .s flags pl) s) s st g.afterwards Kind.retrieve r
        (w16 n ++ w8 state ++ [0, 0, 0, 0, 0xFF, 0, 0])
      (n = 0 → answers .badRequest 0xFF) ∧
      (n ≠ 0 → g.ticket n = none → answers .unknownTicket 0xFF) ∧
      (∀ k, n ≠ 0 → g.ticket n = some k →
        (k.state = .parked → 64 ≤ g.placesHeld → answers .queueFull 2) ∧
        (k.state = .allocated → answers .notParked 0) ∧
        (k.state = .parking → answers .notParked 1) ∧
        (k.state = .check → answers .notParked 9) ∧
        (k.state = .queued → answers .inProgress 4) ∧
        (k.state = .retrieving → answers .inProgress 5) ∧
        (k.state = .held → answers .inProgress 6) ∧
        (k.state = .ready → answers .handoverPending 7) ∧
        (k.state = .outbound → answers .handoverPending 8)))

/-- RESUME: a HELD ticket returns to the queue where its number falls, its hold timer stopped; a RETRIEVING single
ticket with the hold flag is marked resume-pending; a QUEUED one loses its hold flag; every other ticket is
NOT_APPLICABLE (R105, R112; that the reply for a HELD ticket shows QUEUED also when its plan starts in the same
event is the model's choice, log 21).

CANCEL: a QUEUED or HELD ticket becomes PARKED at once; so does a RETRIEVING one with its plan ended, unless a
move of its plan is in flight, which sets its cancel mark; an ALLOCATED ticket is closed with its bay, its hall
and its hook given up, and TICKET_CLOSED tells the office of it with the cause CANCELLED; every other ticket is
NOT_APPLICABLE (R76, R113 to R116, R173, R201).

The plan of a cancelled retrieval ends on the lift it is on: one that holds its lift leaves it, with its tenure when
that is its own; one in WAIT_LANE leaves the plans that wait, and nothing else changes, for it holds no reservation;
the reservations not yet filled and the slot of any other are released (R115, R132). -/
def Obligations.ResumeAndCancel : Prop :=
  (
    ∀ (s : State) (st : Station) (flags : Byte) (pl : List Byte),
      AskedBy s st .podium ∨ AskedBy s st .desk → s.garage.mode = .service → pl.length = 2 →
      let g := s.garage
      let n := u16 pl 0
      let answers (k : Garage) (r : Result) (state : Nat) :=
        Replies (exec (.resume .s flags pl) s) s st k.afterwards Kind.resume r (w16 n ++ w8 state)
      (n = 0 → answers g .badRequest 0xFF) ∧
      (n ≠ 0 → g.ticket n = none → answers g .unknownTicket 0xFF) ∧
      (∀ t, n ≠ 0 → g.ticket n = some t →
        (t.state = .held →
          let woken := g.modTicket n fun t => { t with state := .queued, hold := false, holdTimer := none }
          answers { woken with queue := insertBy (fun e => woken.seqOf e.ticket) ⟨n, none⟩ g.queue } .taken 4) ∧
        (t.state = .retrieving → t.convoy = none → t.hold = true → t.resumePending = false → t.cancelMark = false →
          answers (g.modTicket n fun t => { t with resumePending := true }) .taken 5) ∧
        (t.state = .queued → t.convoy = none → t.hold = true →
          answers (g.modTicket n fun t => { t with hold := false }) .taken 4) ∧
        (t.state = .retrieving → t.convoy ≠ none ∨ t.hold = false ∨ t.resumePending = true ∨ t.cancelMark = true →
          answers g .notApplicable 5) ∧
        (t.state = .queued → t.convoy ≠ none ∨ t.hold = false → answers g .notApplicable 4) ∧
        (t.state ∉ [.held, .retrieving, .queued] → answers g .notApplicable (ticketStateCode t.state)))) ∧
  (
    ∀ (s : State) (st : Station) (flags : Byte) (pl : List Byte),
      AskedBy s st .podium ∨ AskedBy s st .desk → s.garage.mode = .service → pl.length = 2 →
      let g := s.garage
      let n := u16 pl 0
      let answers (k : Garage) (r : Result) (state : Nat) :=
        Replies (exec (.cancel .s flags pl) s) s st k.afterwards Kind.cancel r (w16 n ++ w8 state)
      let parked (k : Garage) : Garage := { k with
        queue := k.queue.filter fun e => e.ticket != n
        chan0 := { k.chan0 with list := k.chan0.list.filter (· != n) }
        chan1 := { k.chan1 with list := k.chan1.list.filter (· != n) }
        tickets := k.tickets.adjust n fun t => { t with
          state := .parked, seq := none, priority := none, convoy := none, hold := false, resumePending := false
          phase := none, cancelMark := false, blocked := false, place := false, holdTimer := none
          measure := t.measure.map fun m => { m with waitMark := none } } }
      let inFlight : Prop := g.liftA.inFlight.bind Move.target = some n ∨ g.liftB.inFlight.bind Move.target = some n
      (n = 0 → answers g .badRequest 0xFF) ∧
      (n ≠ 0 → g.ticket n = none → answers g .unknownTicket 0xFF) ∧
      (∀ t, n ≠ 0 → g.ticket n = some t →
        (t.state = .queued ∨ t.state = .held → answers (parked g) .taken 2) ∧
        (t.state = .retrieving → inFlight →
          answers (g.modTicket n fun t => { t with cancelMark := true }) .taken 5) ∧
        (t.state = .retrieving → ¬ inFlight → answers (parked (g.endPlanOf n)) .taken 2) ∧
        (t.state = .allocated →
          let freed := match t.bay with | some b => g.release b n | none => g
          let leave (u : LiftUnit) : LiftUnit :=
            if u.hall.map Prod.snd = some n then { u with
              hall := none, parkRequest := none
              reorder := if u.tenure = some .park then none else u.reorder
              tenure := if u.tenure = some .park then none else u.tenure }
            else u
          let withdrawn : Garage := { freed with liftA := leave freed.liftA, liftB := leave freed.liftB }
          let m := t.measure.map (Measure.recordClose g.seconds)
          ∃ u, exec (.cancel .s flags pl) s = .next u ∧
            u.garage = Garage.afterwards { (closeMapping t ⟨withdrawn, []⟩).g with
              tickets := withdrawn.tickets.remove n } ∧
            Answered s u st Kind.cancel .taken (w16 n ++ [14]) ∧
            Sends s u .office Kind.ticketClosed (w16 n ++ w32 t.tag ++ w8 (classCode t.cls) ++ w32 t.arrivalMinute
              ++ w32 t.estimate ++ w8 t.podium ++ w8 st.number ++ [0] ++ [0xFF] ++ w16 t.hook ++ wFlag t.outOfRange
              ++ w8 (keyStatusCode t.keyStatus) ++ w8 (t.runner.getD 0) ++ w8 t.relocations ++ wFlag t.measure.isSome
              ++ w16 ((m.bind Measure.parkedMinutes).getD 0) ++ w16 ((m.bind Measure.waitSeconds).getD 0)
              ++ w16 ((m.bind Measure.handoverSeconds).getD 0) ++ [1])) ∧
        (t.state ∉ [.queued, .held, .retrieving, .allocated] → answers g .notApplicable (ticketStateCode t.state)))) ∧
  (
    ∀ (g : Garage) (n : Nat),
      let has (l : Lift) : Prop := (∃ p, (g.lift l).plan = some p ∧ p.target = n) ∨ ∃ p ∈ (g.lift l).waiting, p.target = n
      (¬ has .a → ¬ has .b → g.endPlanOf n = g) ∧
      (∀ l p, (g.lift l).plan = some p → p.target = n → (l = .b → ¬ has .a) →
        let released := (p.relocs.filter fun r => !r.done).foldl (fun k r => k.release r.dest r.blocker) g
        let freed := if p.slot then released.modLift l fun u => { u with
          reserved := u.reserved - 1, waiting := u.waiting.map fun w => { w with stamp := some g.seconds } } else released
        g.endPlanOf n = freed.modLift l fun u => { u with
          plan := none, reorder := none, tenure := if u.tenure = some .plan then none else u.tenure }) ∧
      (∀ l a p b, (g.lift l).waiting = a ++ p :: b → p.target = n → (∀ w ∈ a, w.target ≠ n) →
        (∀ q, (g.lift l).plan = some q → q.target ≠ n) → (l = .b → ¬ has .a) →
        p.slot = false → (∀ r ∈ p.relocs, r.done = true) →
        g.endPlanOf n = g.modLift l fun u => { u with waiting := u.waiting.filter fun w => w.target != n }))

/-- HANDOVER of a READY or OUTBOUND ticket: TAKEN with the state it had; a READY ticket leaves its lane and the
wait list; its runner is released; the close mapping is applied; the record is removed and TICKET_CLOSED carries
it to the office as it stood, with its handover seconds. Every other ticket is NOT_APPLICABLE (R170 to R173, R188,
R201).

What becomes of a hook at the close of its ticket: OUT and RESERVED hooks become FREE; HELD and RELEASED hooks
become STRAY with the ticket's tag and a MISHUNG hook STRAY with the tag on it, with ALERT KEY_STRAY (R94). -/
def Obligations.HandoverCloses : Prop :=
  (
    ∀ (s : State) (st : Station) (flags : Byte) (pl : List Byte),
      AskedBy s st .podium → s.garage.mode = .service → pl.length = 2 →
      let g := s.garage
      let n := u16 pl 0
      let answers (k : Garage) (r : Result) (state : Nat) :=
        Replies (exec (.handover .s flags pl) s) s st k.afterwards Kind.handover r (w16 n ++ w8 state)
      (n = 0 → answers g .badRequest 0xFF) ∧
      (n ≠ 0 → g.ticket n = none → answers g .unknownTicket 0xFF) ∧
      (∀ t, n ≠ 0 → g.ticket n = some t →
        (t.state ≠ .ready → t.state ≠ .outbound → answers g .notApplicable (ticketStateCode t.state)) ∧
        (t.state = .ready ∨ t.state = .outbound →
          let left : Garage :=
            if t.state = .ready then
              let k : Garage := match t.location with
                | .lane l => g.modLift l fun u => { u with
                  lane := u.lane.filter (· != n), waiting := u.waiting.map fun p => { p with stamp := some g.seconds } }
                | _ => g
              { k with waitList := k.waitList.filter (· != n) }
            else g
          let released := releaseRunner n ⟨left, []⟩
          let closed := (closeMapping t released).g
          let m := t.measure.map (Measure.recordClose g.seconds)
          ∃ u, exec (.handover .s flags pl) s = .next u ∧
            u.garage = Garage.afterwards { closed with tickets := closed.tickets.remove n } ∧
            Answered s u st Kind.handover .taken (w16 n ++ w8 (ticketStateCode t.state)) ∧
            Sends s u .office Kind.ticketClosed (w16 n ++ w32 t.tag ++ w8 (classCode t.cls) ++ w32 t.arrivalMinute
              ++ w32 t.estimate ++ w8 t.podium ++ w8 st.number ++ w8 (ticketStateCode t.state)
              ++ w8 (if t.state = .ready then locationCode t.location else 0xFF) ++ w16 t.hook ++ wFlag t.outOfRange
              ++ w8 (keyStatusCode t.keyStatus) ++ w8 (t.runner.getD 0) ++ w8 t.relocations ++ wFlag t.measure.isSome
              ++ w16 ((m.bind Measure.parkedMinutes).getD 0) ++ w16 ((m.bind Measure.waitSeconds).getD 0)
              ++ w16 ((m.bind Measure.handoverSeconds).getD 0) ++ [0])))) ∧
  (
    ∀ (t : Ticket) (h : Hook) (e : Ev), e.g.hooks.find t.hook = some h →
      let hook (k : Hook) := e.g.hooks.adjust t.hook fun _ => k
      let stray (tag : Nat) : Ev :=
        ⟨{ e.g with hooks := hook ⟨.stray, none, some tag⟩ },
          e.out ++ [⟨.role .office, Kind.alert, w8 16 ++ w32 e.g.seconds ++ (w16 t.hook ++ w32 tag), .plain⟩]⟩
      (h.state = .out ∨ h.state = .reserved → closeMapping t e = ⟨{ e.g with hooks := hook ⟨.free, none, none⟩ }, e.out⟩) ∧
      (h.state = .held ∨ h.state = .released → closeMapping t e = stray t.tag) ∧
      (∀ tag, h.state = .mishung → h.tag = some tag → closeMapping t e = stray tag))

/-- RE_PARK of an OUTBOUND ticket: a bay, or the lot when no bay is chosen and it has room; the record as R79
gives it, the hook RESERVED again, ALLOCATION in answer, then the runner released. FULL without either;
NOT_APPLICABLE in any other state (R78, R79, R95, R174). -/
def Obligations.ReParkAnswered : Prop :=
  ∀ (s : State) (st : Station) (flags : Byte) (pl : List Byte),
    AskedBy s st .podium → s.garage.mode = .service → pl.length = 4 →
    let g := s.garage
    let n := u16 pl 0
    let answers := Replies (exec (.rePark .s flags pl) s) s st g.afterwards Kind.rePark
    (n = 0 → answers .badRequest [0]) ∧
    (n ≠ 0 → g.ticket n = none → answers .unknownTicket []) ∧
    (∀ t, n ≠ 0 → g.ticket n = some t →
      (t.state ≠ .outbound → answers .notApplicable []) ∧
      (t.state = .outbound →
        let stay := if u16 pl 2 = 0 then g.limits.defaultStay else min (u16 pl 2) 2880
        let estimate := min (g.minute + stay) 4294967295
        let inside (r : Option (Nat × Nat)) (h : Nat) : Bool := match r with
          | some (first, last) => decide (first ≤ h) && decide (h ≤ last)
          | none => false
        let placed (k : Garage) (state : TicketState) (loc : Location) (bay : Option Nat) (range : Option (Nat × Nat)) :
            Garage :=
          { k with
            tickets := k.tickets.adjust n fun x => { x with
              state := state, location := loc, bay := bay, estimate := estimate, podium := st.number,
              readySeq := none, outOfRange := !inside range x.hook, keyStatus := .normal }
            hooks := k.hooks.adjust t.hook fun _ => ⟨.reserved, some n, none⟩ }
        let answer (place : List Byte) (range : Option (Nat × Nat)) : Frame :=
          originated st.number Kind.allocation ([Kind.rePark, 0] ++ w16 n ++ w32 t.tag ++ place ++ w16 t.hook
            ++ wFlag (!inside range t.hook) ++ w16 stay ++ w32 estimate ++ w8 t.defaultPriority)
        (∀ b bay l score, g.choose .everywhere t.cls estimate = some (b, score) → g.bay b = some bay →
          g.liftOfBay b = some l →
          ∃ u, exec (.rePark .s flags pl) s = .next u ∧
            u.garage = (releaseRunner n
              ⟨placed (g.reserve b n) .allocated (.hall l) (some b) (g.rangeFor (some l)), []⟩).g.afterwards ∧
            AnsweredWith s u st (answer ([0] ++ w16 b ++ w8 (liftCode l) ++ w8 bay.stack ++ w8 bay.position
              ++ w16 score) (g.rangeFor (some l)))) ∧
        (g.choose .everywhere t.cls estimate = none → g.overflowCount < g.limits.overflowCapacity →
          ∃ u, exec (.rePark .s flags pl) s = .next u ∧
            u.garage = (releaseRunner n ⟨placed g .overflow .lot none g.rangeO, []⟩).g.afterwards ∧
            AnsweredWith s u st (answer [5, 0xFF, 0xFF, 0xFF, 0xFF, 0, 0xFF, 0xFF] g.rangeO)) ∧
        (g.choose .everywhere t.cls estimate = none → ¬ g.overflowCount < g.limits.overflowCapacity →
          answers .full (w16 stay))))

/-- The READY effects, below the last ready sequence number: the record, a HELD hook opened with HOOK_OPEN, the head
of the free list assigned with RUNNER_TASK or the ticket on the wait list where its number falls, and CAR_READY, in
this order; the ticket leaves its queue or the list of its channel, which counts the delivery (R65, R91, R92, R103,
R155, R164 to R166, R187, R188). -/
def Obligations.ReadyEffects : Prop :=
  ∀ (n : Nat) (loc : Location) (g : Garage) (t : Ticket), g.ticket n = some t → g.readyCounter < 4294967295 →
    let e := enterReady n loc ⟨g, []⟩
    let hook := g.hooks.find t.hook
    let opened : List Out := if hook.map Hook.state = some .held then
        [⟨.role .cabinet, Kind.hookOpen, w16 t.hook ++ w16 n ++ w32 t.tag, .plain⟩] else []
    let key : Nat := match hook.map Hook.state with
      | some .held => 0
      | some .mishung => 2
      | some .out => 3
      | _ => 1
    let ready (runner : Nat) : Out := ⟨.station t.podium, Kind.carReady, w16 n ++ w32 t.tag ++ w8 (locationCode loc)
      ++ w16 t.hook ++ wFlag t.outOfRange ++ w8 key ++ w8 runner, .plain⟩
    let record (runner : Option Nat) : Ticket := { t with
      state := .ready, location := loc, bay := none, unresolved := none, readySeq := some g.readyCounter
      seq := none, priority := none, convoy := none, hold := false, resumePending := false, phase := none
      cancelMark := false, blocked := false, place := false, holdTimer := none, runner := runner
      measure := t.measure.map (Measure.recordReady g.seconds) }
    e.g.readyCounter = g.readyCounter + 1 ∧ e.g.bayRecs = g.bayRecs ∧
    (∀ c, e.g.chan c = { g.chan c with
      list := (g.chan c).list.filter (· != n)
      delivered := if t.convoy = some c then tallyUp (g.chan c).delivered else (g.chan c).delivered }) ∧
    (e.g.queue.map Entry.ticket) = (g.queue.map Entry.ticket).filter (· != n) ∧
    (∀ h, hook = some h → e.g.hooks.find t.hook
      = some (if h.state = .held then { h with state := .released } else h)) ∧
    (∀ m, m ≠ n → e.g.ticket m = g.ticket m) ∧
    (∀ r rest, g.freeList = r :: rest → (g.runners.find r).isSome = true →
      e.g.freeList = rest ∧ e.g.waitList = g.waitList ∧ e.g.ticket n = some (record (some r)) ∧
      e.g.runners.find r = some ⟨.assigned, some n, some g.pickupPeriod⟩ ∧
      e.out = opened ++ [⟨.role .runnerBase, Kind.runnerTask, w8 r ++ w16 n ++ w32 t.tag ++ w8 (locationCode loc)
        ++ w16 t.hook ++ wFlag t.outOfRange, .plain⟩] ++ [ready r]) ∧
    (g.freeList = [] →
      e.g.freeList = [] ∧ e.g.ticket n = some (record t.runner) ∧ e.g.runners = g.runners ∧
      e.g.waitList = insertBy e.g.readySeqOf n g.waitList ∧ e.out = opened ++ [ready (t.runner.getD 0)])

/-! ### Reports of the cabinet, the runners and the lifts -/

/-- KEY_IN and KEY_OUT by the state of the hook, with the key status of its ticket and the alert of each case; a
key hung on a tied hook whose ticket is READY or OUTBOUND opens it at once (R88 to R91, R203). -/
def Obligations.KeyEvents : Prop :=
  ∀ (s : State) (st : Station) (flags : Byte) (pl : List Byte), AskedBy s st .cabinet →
    let g := s.garage
    let hook := u16 pl 0
    let tag := u32 pl 2
    let set (h : Hook) := g.hooks.adjust hook fun _ => h
    (pl.length = 6 →
      let notes := NotesS (exec (.keyIn .s flags pl) s) s st
      (g.hooks.find hook = none → notes g [(18, w16 hook ++ [0] ++ w32 tag ++ [0xFF])]) ∧
      (∀ h, g.hooks.find hook = some h →
        (tag = 0 → notes g [(18, w16 hook ++ [0] ++ w32 0 ++ [0xFF])]) ∧
        (tag ≠ 0 → h.state = .free →
          notes { g with hooks := set ⟨.stray, none, some tag⟩ } [(16, w16 hook ++ w32 tag)]) ∧
        (tag ≠ 0 → h.state ∈ [.held, .released, .mishung, .stray, .disabled] →
          notes g [(18, w16 hook ++ [0] ++ w32 tag ++ w8 (hookStateCode h.state))]) ∧
        (∀ n t, tag ≠ 0 → (h.state = .reserved ∨ h.state = .out) → h.ticket = some n → g.ticket n = some t →
          (tag ≠ t.tag → notes
            { g with
              hooks := g.hooks.adjust hook fun h => { h with state := .mishung, tag := some tag }
              tickets := g.tickets.adjust n fun t => { t with keyStatus := .mishung } }
            [(15, w16 hook ++ w16 n ++ w32 t.tag ++ w32 tag)]) ∧
          (tag = t.tag →
            let opens := t.state = .ready ∨ t.state = .outbound
            let k : Garage := { g with
              hooks := g.hooks.adjust hook fun h => { h with
                state := if opens then .released else .held, tag := some tag }
              tickets := g.tickets.adjust n fun t => if h.state = .out then { t with keyStatus := .normal } else t }
            ∃ u, exec (.keyIn .s flags pl) s = .next u ∧ u.garage = k ∧ HeardS s u st ∧
              (opens → Sends s u .cabinet Kind.hookOpen (w16 hook ++ w16 n ++ w32 tag)))))) ∧
    (pl.length = 2 →
      let notes := NotesS (exec (.keyOut .s flags pl) s) s st
      (g.hooks.find hook = none → notes g [(18, w16 hook ++ [1] ++ w32 0 ++ [0xFF])]) ∧
      (∀ h, g.hooks.find hook = some h →
        let n := h.ticket.getD 0
        let out := g.hooks.adjust hook fun h => { h with state := .out, tag := none }
        (h.state = .released → notes { g with hooks := out } []) ∧
        (h.state = .held → notes
          { g with hooks := out, tickets := g.tickets.adjust n fun t => { t with keyStatus := .takenUnreleased } }
          [(17, w16 hook ++ w16 n)]) ∧
        (h.state = .mishung → notes
          { g with
            hooks := g.hooks.adjust hook fun h => { h with state := .reserved, tag := none }
            tickets := g.tickets.adjust n fun t => { t with keyStatus := .normal } } []) ∧
        (h.state = .stray → notes { g with hooks := set ⟨.free, none, none⟩ } []) ∧
        (h.state ∈ [.free, .reserved, .out, .disabled] →
          notes g [(18, w16 hook ++ [1] ++ w32 0 ++ w8 (hookStateCode h.state))])))

/-- RUNNER_ON and RUNNER_OFF by the state of the runner, each answered with the runner as it then stands; a runner
that signs on takes the head of the wait list, and a second RUNNER_OFF gives the READY ticket out again (R162 to
R167).

Giving a READY ticket a runner: the head of the free list is assigned, its pickup timer started and
RUNNER_TASK sent, or the ticket joins the wait list where its ready sequence number falls. Releasing a ticket's
runner: one that is OFF_PENDING becomes OFF; any other takes the head of the wait list as on signing on, or
becomes FREE at the tail of the free list (R160, R164 to R167). -/
def Obligations.RunnersSignOnAndOff : Prop :=
  (
    ∀ (s : State) (st : Station) (flags : Byte) (pl : List Byte), AskedBy s st .runnerBase → pl.length = 1 →
      let g := s.garage
      let r := u8 pl 0
      let k := g.runner r
      let set (x : Runner) := g.runners.adjust r fun _ => x
      let on := Replies (exec (.runnerOn .s flags pl) s) s st
      let off := Replies (exec (.runnerOff .s flags pl) s) s st
      let shown (state : Nat) (ticket : Option Nat) : List Byte := w8 r ++ w8 state ++ w16 (ticket.getD 0)
      (r < 1 ∨ 32 < r → on g Kind.runnerOn .badRequest [0] ∧ off g Kind.runnerOff .badRequest [0]) ∧
      (1 ≤ r → r ≤ 32 →
        (k.state = .off → g.waitList = [] →
          on { g with runners := set ⟨.free, none, none⟩, freeList := g.freeList ++ [r] } Kind.runnerOn .taken
            (shown 1 none)) ∧
        (∀ n rest t, k.state = .off → g.waitList = n :: rest → g.ticket n = some t →
          ∃ u, exec (.runnerOn .s flags pl) s = .next u ∧
            u.garage = { g with
              waitList := rest, runners := set ⟨.assigned, some n, some g.pickupPeriod⟩
              tickets := g.tickets.adjust n fun t => { t with runner := some r } } ∧
            Answered s u st Kind.runnerOn .taken (shown 2 (some n)) ∧
            Sends s u .runnerBase Kind.runnerTask (w8 r ++ w16 n ++ w32 t.tag ++ w8 (locationCode t.location) ++ w16 t.hook
              ++ wFlag t.outOfRange)) ∧
        (k.state = .offPending →
          on { g with runners := g.runners.adjust r fun x => { x with state := .assigned } } Kind.runnerOn .taken
            (shown 2 k.ticket)) ∧
        (k.state = .free ∨ k.state = .assigned →
          on g Kind.runnerOn .inProgress (shown (runnerStateCode k.state) k.ticket)) ∧
        (k.state = .free →
          off { g with runners := set ⟨.off, none, none⟩, freeList := g.freeList.filter (· != r) } Kind.runnerOff .taken
            (shown 0 none)) ∧
        (k.state = .assigned →
          off { g with runners := g.runners.adjust r fun x => { x with state := .offPending } } Kind.runnerOff .taken
            (shown 3 k.ticket)) ∧
        (∀ n t, k.state = .offPending → k.ticket = some n → g.ticket n = some t →
          (t.state = .ready →
            off (giveRunner n ⟨{ g with
              runners := set ⟨.off, none, none⟩, tickets := g.tickets.adjust n fun t => { t with runner := none } }, []⟩).g
              Kind.runnerOff .taken (shown 0 none)) ∧
          (t.state ≠ .ready → off g Kind.runnerOff .inProgress (shown 3 k.ticket))) ∧
        (k.state = .off → off g Kind.runnerOff .notApplicable (shown 0 k.ticket)))) ∧
  (
    ∀ (n : Nat) (t : Ticket) (e : Ev), e.g.ticket n = some t →
      (∀ r rest, e.g.freeList = r :: rest →
        giveRunner n e = ⟨{ e.g with
            freeList := rest
            runners := e.g.runners.adjust r fun _ => ⟨.assigned, some n, some e.g.pickupPeriod⟩
            tickets := e.g.tickets.adjust n fun t => { t with runner := some r } },
          e.out ++ [⟨.role .runnerBase, Kind.runnerTask, w8 r ++ w16 n ++ w32 t.tag ++ w8 (locationCode t.location)
            ++ w16 t.hook ++ wFlag t.outOfRange, .plain⟩]⟩) ∧
      (e.g.freeList = [] →
        giveRunner n e = ⟨{ e.g with waitList := insertBy e.g.readySeqOf n e.g.waitList }, e.out⟩) ∧
      (t.runner = none → releaseRunner n e = e) ∧
      (∀ r, t.runner = some r →
        let freed := e.g.tickets.adjust n fun t => { t with runner := none }
        let set (x : Runner) := e.g.runners.adjust r fun _ => x
        ((e.g.runner r).state = .offPending →
          releaseRunner n e = ⟨{ e.g with tickets := freed, runners := set ⟨.off, none, none⟩ }, e.out⟩) ∧
        ((e.g.runner r).state ≠ .offPending → e.g.waitList = [] →
          releaseRunner n e = ⟨{ e.g with
            tickets := freed, runners := set ⟨.free, none, none⟩, freeList := e.g.freeList ++ [r] }, e.out⟩) ∧
        (∀ m rest x, (e.g.runner r).state ≠ .offPending → e.g.waitList = m :: rest → e.g.ticket m = some x →
          releaseRunner n e = ⟨{ e.g with
              waitList := rest, runners := set ⟨.assigned, some m, some e.g.pickupPeriod⟩
              tickets := freed.adjust m fun t => { t with runner := some r } },
            e.out ++ [⟨.role .runnerBase, Kind.runnerTask, w8 r ++ w16 m ++ w32 x.tag ++ w8 (locationCode x.location)
              ++ w16 x.hook ++ wFlag x.outOfRange, .plain⟩]⟩)))

/-- PICKUP: the checks in their order, each failure with its answer and its alert, and the pickup taken: the ticket is
OUTBOUND with the runner, leaves the head of its lane, whose slot is freed, and the pickup timer stops (R168, R169,
R143). -/
def Obligations.PickupAnswered : Prop :=
  ∀ (s : State) (st : Station) (flags : Byte) (pl : List Byte), AskedBy s st .runnerBase → pl.length = 3 →
    let g := s.garage
    let r := u8 pl 0
    let n := u16 pl 1
    let k := g.runner r
    let answers (x : Garage) (res : Result) (detail : List Byte) (alerts : List (Nat × List Byte)) : Prop :=
      ∃ u, exec (.pickup .s flags pl) s = .next u ∧ u.garage = x.afterwards ∧
        Answered s u st Kind.pickup res detail ∧ ∀ a ∈ alerts, Told s u a.1 a.2
    let shown (state : Nat) : List Byte := w8 r ++ w16 n ++ w8 state
    let mismatch (reason : Nat) : List (Nat × List Byte) := [(20, w8 r ++ w16 n ++ w8 reason)]
    (r < 1 ∨ 32 < r → answers g .badRequest [0] []) ∧
    (1 ≤ r → r ≤ 32 → n = 0 → answers g .badRequest [1] []) ∧
    (1 ≤ r → r ≤ 32 → n ≠ 0 → g.ticket n = none → answers g .unknownTicket (shown 0xFF) (mismatch 0)) ∧
    (∀ t, 1 ≤ r → r ≤ 32 → n ≠ 0 → g.ticket n = some t →
      let tied := (k.state = .assigned ∨ k.state = .offPending) ∧ k.ticket = some n
      let behind := ∃ l, t.location = .lane l ∧ (g.lift l).lane.head? ≠ some n
      if t.state = .outbound ∧ t.runner = some r then answers g .handoverPending (shown 8) []
      else
        (¬ tied → answers g .notApplicable (shown (ticketStateCode t.state)) (mismatch 1)) ∧
        (tied → behind → answers g .notApplicable (shown (ticketStateCode t.state)) (mismatch 2)) ∧
        (tied → ¬ behind →
          let moved := g.modTicket n fun t => { t with state := .outbound, location := .withRunner }
          let left : Garage := match t.location with
            | .lane l => moved.modLift l fun u => { u with
              lane := u.lane.filter (· != n), waiting := u.waiting.map fun p => { p with stamp := some g.seconds } }
            | _ => moved
          answers { left with runners := left.runners.adjust r fun x => { x with timer := none } } .taken (shown 8) []))

/-- LIFT_STATUS records the readiness, and a lift that is OFFLINE, NOT_READY or READY takes the state reported;
MOVING, FAULTED and OUT stay (R121).

CAR_PRESENT: a hall that holds a car, a tag of no ticket, and a ticket that is not waiting for this hall bring
ALERT HALL_CAR_NOT_EXPECTED; an ALLOCATED ticket's car at the hall of its bay's lift fills the hall and requests
its park move; at the other hall it is given a bay on that lift first, or brings ALERT WRONG_HALL (R72 to R75). -/
def Obligations.LiftStatusAndCars : Prop :=
  (
    ∀ (s : State) (st : Station) (l : Lift) (flags : Byte) (pl : List Byte), ReportedBy s st l → pl.length = 1 →
      u8 pl 0 ≤ 1 →
      NotesG (exec (.liftStatus .g flags pl) s) s st
        ((s.garage.heardLift l st).modLift l fun u => { u with
          readiness := if u8 pl 0 = 1 then .ready else .notReady
          state := if u.state ∈ [.offline, .notReady, .ready] then (if u8 pl 0 = 1 then .ready else .notReady)
            else u.state }) []) ∧
  (
    ∀ (s : State) (st : Station) (l : Lift) (flags : Byte) (pl : List Byte), ReportedBy s st l → pl.length = 4 →
      let g := s.garage.heardLift l st
      let tag := u32 pl 0
      let notes := NotesG (exec (.carPresent .g flags pl) s) s st
      let unexpected := notes g [(9, w8 (liftCode l) ++ w32 tag)]
      let fill (k : Garage) (n : Nat) : Garage :=
        k.modLift l fun u => { u with hall := some (tag, n), parkRequest := some (n, g.seconds) }
      ((g.lift l).hall ≠ none → unexpected) ∧
      ((g.lift l).hall = none → (∀ x ∈ g.tickets, x.2.tag ≠ tag) → unexpected) ∧
      (∀ n t, (g.lift l).hall = none → (g.tickets.findKey fun t => t.tag == tag) = some n → g.ticket n = some t →
        let inHall := g.liftA.hall.map Prod.snd = some n ∨ g.liftB.hall.map Prod.snd = some n
        (t.state ≠ .allocated ∨ inHall → unexpected) ∧
        (t.state = .allocated → ¬ inHall →
          (t.bay.bind g.liftOfBay = some l → notes (fill g n) []) ∧
          (t.bay.bind g.liftOfBay ≠ some l →
            (∀ b score, g.choose (.onLift l) t.cls t.estimate = some (b, score) →
              let held := g.reserve b n
              let freed := match t.bay with | some old => held.release old n | none => held
              notes (fill (freed.modTicket n fun x => { x with
                bay := some b, location := .hall l, outOfRange := !inRange (g.rangeFor (some l)) x.hook }) n) []) ∧
            (g.choose (.onLift l) t.cls t.estimate = none →
              notes g [(8, w8 (liftCode l) ++ w32 tag ++ w16 n)])))))

/-- MOVE_DONE for the move in flight: the move is no longer in flight, its timer stops and it counts; the
completion is applied by its kind; the lift takes the state of its readiness, or goes OUT when service-off is
pending (R130, R133, R134, R137, R189).

A completed relocation is marked in the plan on the lift, and a plan whose target carries the cancel mark ends:
its reservations not yet filled and its slot are released, its own tenure with it, and the target becomes PARKED
(R115, R116, R130). -/
def Obligations.MoveDone : Prop :=
  (
    ∀ (s : State) (st : Station) (l : Lift) (flags : Byte) (pl : List Byte) (m : Move), ReportedBy s st l →
      pl.length = 1 →
      let g := s.garage.heardLift l st
      (g.lift l).inFlight = some m → m.number = u8 pl 0 →
      let landed := g.modLift l fun u => { u with
        inFlight := none, moveTimer := none
        movesDone := if g.measuring then (u.movesDone + 1) % 4294967296 else u.movesDone }
      let leave (k : Garage) : Garage :=
        if (k.lift l).offPending = true then (k.stopIdleLift l .out).modLift l fun u => { u with offPending := false }
        else k.modLift l fun u => { u with state := if u.readiness = .ready then .ready else .notReady }
      let notes (k : Garage) := NotesG (exec (.moveDone .g flags pl) s) s st (leave k) []
      (∀ b, m.kind = .park → m.dest = .bay b →
        notes (((landed.fill b m.ticket).modLift l fun u => { u with hall := none, parkRequest := none }).modTicket m.ticket
          fun t => { t with
            state := .parked, bay := some b, location := .bay b, unresolved := none
            measure := t.measure.map (Measure.markParked g.seconds) })) ∧
      (∀ a b, m.kind = .relocation → m.source = .bay a → m.dest = .bay b →
        notes ((((((landed.vacate a m.ticket).fill b m.ticket).modTicket m.ticket fun t => { t with
          bay := some b, location := .bay b, relocations := min (t.relocations + 1) 255 })).markRelocated l
            m.ticket).endIfCancelled l)) ∧
      (∀ a, m.kind = .final → m.source = .bay a →
        notes (enterReady m.ticket (.lane l) ⟨(landed.vacate a m.ticket).modLift l fun u => { u with
          lane := u.lane ++ [m.ticket], reserved := u.reserved - 1, plan := none }, []⟩).g)) ∧
  (
    ∀ (g : Garage) (l : Lift) (n : Nat),
      g.markRelocated l n = g.modLift l (fun u => { u with plan := u.plan.map fun p => { p with
        relocs := p.relocs.map fun r => if r.blocker = n then { r with done := true } else r } }) ∧
      ((g.lift l).plan = none → g.endIfCancelled l = g) ∧
      (∀ p, (g.lift l).plan = some p →
        ((∀ t, g.ticket p.target = some t → t.cancelMark = false) → g.endIfCancelled l = g) ∧
        (∀ t, g.ticket p.target = some t → t.cancelMark = true →
          let released := (p.relocs.filter fun r => !r.done).foldl (fun k r => k.release r.dest r.blocker) g
          let freed := if p.slot then released.modLift l fun u => { u with
            reserved := u.reserved - 1, waiting := u.waiting.map fun w => { w with stamp := some g.seconds } } else released
          let ended := freed.modLift l fun u => { u with
            plan := none, reorder := none, tenure := if u.tenure = some .plan then none else u.tenure }
          g.endIfCancelled l = { ended with
            queue := ended.queue.filter fun e => e.ticket != p.target
            chan0 := { ended.chan0 with list := ended.chan0.list.filter (· != p.target) }
            chan1 := { ended.chan1 with list := ended.chan1.list.filter (· != p.target) }
            tickets := ended.tickets.adjust p.target fun t => { t with
              state := .parked, seq := none, priority := none, convoy := none, hold := false, resumePending := false
              phase := none, cancelMark := false, blocked := false, place := false, holdTimer := none
              measure := t.measure.map fun m => { m with waitMark := none } } })))

/-- MOVE_FAULT and MOVE_REFUSED for the move in flight: a fault and a refusal for the location leave the lift
FAULTED without tenure, with ALERT LIFT_FAULT, and OUT when service-off is pending, the move undone, completed or
left unresolved by the position; a refusal for readiness leaves it NOT_READY, the move to be ordered again (R116,
R125, R126, R138 to R140; a PARK move's bay stays RESERVED, log 15; that the readiness is NOT_READY also when the
lift goes OUT is the model's choice, log 21).

The completion of a move, as MOVE_DONE and a MOVE_FAULT at its destination apply it: a PARK move fills its bay and
empties the hall; a relocation vacates one bay, fills the other and raises the blocker's count; a final move vacates
its bay and joins the lane, its plan ends, and its ticket enters READY (R130, R133, R134, R139). -/
def Obligations.MovesNotCompleted : Prop :=
  (
    ∀ (s : State) (st : Station) (l : Lift) (flags : Byte) (pl : List Byte) (m : Move), ReportedBy s st l →
      pl.length = 2 →
      let g := s.garage.heardLift l st
      (g.lift l).inFlight = some m → m.number = u8 pl 0 →
      let faulted := (g.modLift l fun u => { u with
        inFlight := none, moveTimer := none, faults := if g.measuring then tallyUp u.faults else u.faults }).stopLift l .faulted
      let off (k : Garage) : Garage :=
        k.modLift l fun u => if u.offPending then { u with state := .out, offPending := false } else u
      let planEnds (k : Garage) : Garage := match (k.lift l).plan with
        | some p => (k.endPlan l p).returnTarget p.target
        | none => k
      let undone (k : Garage) : Garage :=
        if m.kind = .park then k.modTicket m.ticket fun t => { t with state := .allocated } else planEnds k
      let alert (code : Nat) : List (Nat × List Byte) := [(13, w8 (liftCode l) ++ w8 m.number ++ w16 m.ticket ++ w8 code)]
      let fault := NotesG (exec (.moveFault .g flags pl) s) s st
      let refused := NotesG (exec (.moveRefused .g flags pl) s) s st
      (u8 pl 1 = 0 → fault (off (undone faulted)) (alert 0)) ∧
      (u8 pl 1 = 1 → fault (off (planEnds (complete l m ⟨faulted.countMove l, []⟩).g)) (alert 1)) ∧
      (u8 pl 1 = 2 → fault (off (faulted.leaveUnresolved l m)) (alert 2)) ∧
      (u8 pl 1 = 1 → refused (off (undone faulted)) (alert 3)) ∧
      (u8 pl 1 = 0 →
        let waiting := g.modLift l fun u => { u with inFlight := none, moveTimer := none, readiness := .notReady }
        let back := if m.kind = .park then waiting.modTicket m.ticket fun t => { t with state := .allocated } else waiting
        ((g.lift l).offPending = true →
          refused ((back.stopIdleLift l .out).modLift l fun u => { u with offPending := false }) []) ∧
        ((g.lift l).offPending = false → m.kind = .park →
          refused (back.modLift l fun u => { u with state := .notReady, tenure := some .park, reorder := some m }) []) ∧
        ((g.lift l).offPending = false → m.kind ≠ .park → g.cancelMarked (m.target.getD 0) = false →
          refused (back.modLift l fun u => { u with
            state := .notReady, tenure := some (u.tenure.getD .plan), reorder := some m }) []) ∧
        ((g.lift l).offPending = false → m.kind ≠ .park → g.cancelMarked (m.target.getD 0) = true →
          refused ((back.modLift l fun u => { u with state := .notReady }).endIfCancelled l) []))) ∧
  (
    ∀ (l : Lift) (m : Move) (e : Ev),
      (∀ b, m.kind = .park → m.dest = .bay b → complete l m e = ⟨((e.g.fill b m.ticket).modLift l fun u => { u with
          hall := none, parkRequest := none }).modTicket m.ticket fun t => { t with
            state := .parked, bay := some b, location := .bay b, unresolved := none
            measure := t.measure.map (Measure.markParked e.g.seconds) }, e.out⟩) ∧
      (∀ a b, m.kind = .relocation → m.source = .bay a → m.dest = .bay b → complete l m e =
        ⟨((((e.g.vacate a m.ticket).fill b m.ticket).modTicket m.ticket fun t => { t with
          bay := some b, location := .bay b, relocations := min (t.relocations + 1) 255 }).markRelocated l
            m.ticket).endIfCancelled l, e.out⟩) ∧
      (∀ a, m.kind = .final → m.source = .bay a → complete l m e =
        enterReady m.ticket (.lane l) ⟨(e.g.vacate a m.ticket).modLift l fun u => { u with
          lane := u.lane ++ [m.ticket], reserved := u.reserved - 1, plan := none }, e.out⟩))

/-- A report whose number is that of no move in flight: of the unresolved move, it places the car; of the last
resolved move, it brings ALERT LATE_MOVE_REPORT; of none, ALERT MOVE_MISMATCH, and in both cases changes nothing
else (R136, R141). -/
def Obligations.LateReports : Prop :=
  ∀ (s : State) (st : Station) (l : Lift) (flags : Byte) (pl : List Byte), ReportedBy s st l →
    let g := s.garage.heardLift l st
    let number := u8 pl 0
    let position := u8 pl 1
    (∀ m, (g.lift l).inFlight = some m → m.number ≠ number) →
    let matched (kind : Byte) (o : Host.Outcome State Fault Refusal) (placed : Move → Garage) : Prop :=
      (∀ m, (g.lift l).unresolved = some m → m.number = number → NotesG o s st (placed m) []) ∧
      ((∀ m, (g.lift l).unresolved = some m → m.number ≠ number) →
        NotesG o s st g [(if (g.lift l).lastResolved = some number then 11 else 10,
          w8 (liftCode l) ++ w8 number ++ [kind])])
    (pl.length = 1 → matched Kind.moveDone (exec (.moveDone .g flags pl) s) fun m =>
      (placeAtDestination l m ⟨g, []⟩).g) ∧
    (pl.length = 2 → position ≤ 2 → matched Kind.moveFault (exec (.moveFault .g flags pl) s) fun m =>
      if position = 0 then (placeAtSource l m ⟨g, []⟩).g
      else if position = 1 then (placeAtDestination l m ⟨g, []⟩).g else g) ∧
    (pl.length = 2 → position ≤ 1 → matched Kind.moveRefused (exec (.moveRefused .g flags pl) s) fun m =>
      (placeAtSource l m ⟨g, []⟩).g)

/-! ### Management by the office station -/

/-- SET_WEIGHTS, SET_LIMITS, SET_FLOOR, SET_TIMES, SET_LANES and SET_MEASURE: each value clamped as its rule
gives, the settings replaced together, and the values used echoed; SET_LIMITS and SET_MEASURE refuse what their
rules refuse (R33, R60, R61, R108, R180, R184; the item of a threshold refusal is the model's reading, log 21). -/
def Obligations.SettingsSet : Prop :=
  ∀ (s : State) (st : Station) (flags : Byte) (pl : List Byte), AskedBy s st .office →
    let g := s.garage
    let w (i : Nat) := min (u8 pl i) 15
    (pl.length = 6 →
      Replies (exec (.setWeights .s flags pl) s) s st { g with weights := ⟨w 0, w 1, w 2, w 3, w 4, w 5⟩ }
        Kind.setWeights .taken (w8 (w 0) ++ w8 (w 1) ++ w8 (w 2) ++ w8 (w 3) ++ w8 (w 4) ++ w8 (w 5))) ∧
    (pl.length = 7 →
      let t1 := u16 pl 2
      let t2 := u16 pl 4
      let stay := min (max (u16 pl 0) 30) 1440
      let lot := min (u8 pl 6) 64
      let answers := Replies (exec (.setLimits .s flags pl) s) s st
      (1 ≤ t1 → t1 < t2 → t2 ≤ 2880 →
        answers { g with limits := ⟨stay, t1, t2, lot⟩ } Kind.setLimits .taken
          (w16 stay ++ w16 t1 ++ w16 t2 ++ w8 lot)) ∧
      (t1 < 1 ∨ 2880 < t1 → answers g Kind.setLimits .badRequest [2]) ∧
      (1 ≤ t1 → t1 ≤ 2880 → (t2 < 1 ∨ 2880 < t2) → answers g Kind.setLimits .badRequest [4]) ∧
      (t2 ≤ t1 → 1 ≤ t2 → t1 ≤ 2880 → answers g Kind.setLimits .badRequest [2])) ∧
    (pl.length = 3 →
      let f := min (u8 pl 0) 7
      let k := min (max (u8 pl 1) 1) 16
      let q := min (u8 pl 2) 7
      Replies (exec (.setFloor .s flags pl) s) s st
        (Garage.afterwards { g with floor := f, podiumLimit := k, parkLevel := q }) Kind.setFloor .taken
        (w8 f ++ w8 k ++ w8 q)) ∧
    (pl.length = 6 →
      let m := min (max (u16 pl 0) 30) 900
      let k := min (max (u16 pl 2) 30) 1800
      let h := min (max (u16 pl 4) 60) 7200
      Replies (exec (.setTimes .s flags pl) s) s st { g with movePeriod := m, pickupPeriod := k, holdPeriod := h }
        Kind.setTimes .taken (w16 m ++ w16 k ++ w16 h)) ∧
    (pl.length = 2 → g.mode = .commissioning →
      let a := min (max (u8 pl 0) 1) 4
      let b := min (max (u8 pl 1) 1) 4
      Replies (exec (.setLanes .s flags pl) s) s st
        { g with liftA := { g.liftA with laneCapacity := a }, liftB := { g.liftB with laneCapacity := b } }
        Kind.setLanes .taken (w8 a ++ w8 b)) ∧
    (pl.length = 1 →
      (u8 pl 0 ≤ 1 →
        Replies (exec (.setMeasure .s flags pl) s) s st { g with measuring := decide (u8 pl 0 = 1) } Kind.setMeasure
          .taken (w8 (u8 pl 0))) ∧
      (1 < u8 pl 0 → Replies (exec (.setMeasure .s flags pl) s) s st g Kind.setMeasure .badRequest [0]))

/-- SET_CLOCK (R178): with the set flag the forecourt minute becomes the minute carried and the seconds into the
minute become 0; with the flag clear nothing changes; either way, in either mode, the reply is TAKEN and carries
the clock and the second count as they stand after the request. -/
def Obligations.ClockSet : Prop :=
  ∀ (s : State) (st : Station) (flags : Byte) (pl : List Byte), AskedBy s st .office → pl.length = 5 →
    let g := s.garage
    let after : Garage := if u8 pl 0 ≠ 0 then { g with minute := u32 pl 1, secsIntoMinute := 0 } else g
    Replies (exec (.setClock .s flags pl) s) s st after Kind.setClock .taken
      (w32 after.minute ++ w8 after.secsIntoMinute ++ w32 after.seconds)

/-- LOAD_ZONES, LOAD_STACKS and LOAD_BAYS: the entries are applied in frame order when none is at fault; the first at
fault, or a count outside 1 to 8, is BAD_REQUEST with its position and changes nothing (R35 to R37).

LOAD_CABINET: the size, the hooks kept and added as FREE, and the three ranges, echoed; a size outside 1 to
320 and a range that does not stand are BAD_REQUEST with their item (R85). -/
def Obligations.GarageLoaded : Prop :=
  (
    ∀ (s : State) (st : Station) (flags : Byte) (pl : List Byte), AskedBy s st .office →
      s.garage.mode = .commissioning → pl.length ≤ 48 →
      let g := s.garage
      let count := u8 pl 0
      let entries := List.range count
      let loads (o : Host.Outcome State Fault Refusal) (kind : Byte) (bad : Nat → Prop) (after : Garage) : Prop :=
        (count < 1 ∨ 8 < count → Replies o s st g kind .badRequest [0]) ∧
        (1 ≤ count → count ≤ 8 →
          ((∀ i, i < count → ¬ bad i) → Replies o s st after kind .taken (w8 count)) ∧
          (∀ i, i < count → bad i → (∀ j, j < i → ¬ bad j) → Replies o s st g kind .badRequest (w8 (i + 1))))
      (pl.length = 1 + 5 * count →
        let at' (i k : Nat) := u8 pl (1 + 5 * i + k)
        loads (exec (.loadZones .s flags pl) s) Kind.loadZones
          (fun i => 7 < at' i 0 ∨ (at' i 1 = 0 ∧ 1 < at' i 2))
          { g with zoneRecs := entries.foldl (fun t i =>
            if at' i 1 ≠ 0 then t.remove (at' i 0)
            else t.put (at' i 0) ⟨if at' i 2 = 0 then .a else .b, at' i 3 % 4, at' i 4 % 16⟩) g.zoneRecs }) ∧
      (pl.length = 1 + 4 * count →
        let at' (i k : Nat) := u8 pl (1 + 4 * i + k)
        loads (exec (.loadStacks .s flags pl) s) Kind.loadStacks
          (fun i => 127 < at' i 0 ∨ (at' i 1 = 0 ∧ (7 < at' i 2 ∨ at' i 3 < 1 ∨ 3 < at' i 3)))
          { g with stackRecs := entries.foldl (fun t i =>
            if at' i 1 ≠ 0 then t.remove (at' i 0) else t.put (at' i 0) ⟨at' i 2, at' i 3⟩) g.stackRecs } ∧
        loads (exec (.loadBays .s flags pl) s) Kind.loadBays
          (fun i => at' i 3 % 2 = 0 ∧ (127 < at' i 1 ∨ at' i 2 < 1 ∨ 3 < at' i 2 ∨ 1 < at' i 3 / 2 % 4
            ∨ 1 < at' i 3 / 8 % 4 ∨ 1 < at' i 3 / 32 % 4))
          { g with bayRecs := entries.foldl (fun t i =>
            if at' i 3 % 2 = 1 then t.remove (at' i 0)
            else t.put (at' i 0) ⟨at' i 1, at' i 2, decide (at' i 3 / 2 % 4 = 1), decide (at' i 3 / 8 % 4 = 1),
              decide (at' i 3 / 32 % 4 = 1), .inService, .free⟩) g.bayRecs })) ∧
  (
    ∀ (s : State) (st : Station) (flags : Byte) (pl : List Byte), AskedBy s st .office →
      s.garage.mode = .commissioning → pl.length = 14 →
      let g := s.garage
      let size := u16 pl 0
      let first (i : Nat) := u16 pl (4 * i - 2)
      let last (i : Nat) := u16 pl (4 * i)
      let stands (i : Nat) : Prop := 1 ≤ first i ∧ first i ≤ last i ∧ last i ≤ 320
      let answers := Replies (exec (.loadCabinet .s flags pl) s) s st
      (size < 1 ∨ 320 < size → answers g Kind.loadCabinet .badRequest [0]) ∧
      (1 ≤ size → size ≤ 320 →
        (¬ stands 1 → answers g Kind.loadCabinet .badRequest [1]) ∧
        (stands 1 → ¬ stands 2 → answers g Kind.loadCabinet .badRequest [2]) ∧
        (stands 1 → stands 2 → ¬ stands 3 → answers g Kind.loadCabinet .badRequest [3]) ∧
        (stands 1 → stands 2 → stands 3 →
          answers { g with
            cabinetSize := size
            hooks := (List.range size).map fun i => (i + 1, (g.hooks.find (i + 1)).getD ⟨.free, none, none⟩)
            rangeA := some (first 1, last 1), rangeB := some (first 2, last 2), rangeO := some (first 3, last 3) }
            Kind.loadCabinet .taken
            (w16 size ++ w16 (first 1) ++ w16 (last 1) ++ w16 (first 2) ++ w16 (last 2) ++ w16 (first 3)
              ++ w16 (last 3)))))

/-- ENTER_SERVICE answers the first check that fails with its record, and otherwise sets OUT the bays behind
closed bays and enters SERVICE, answering how many were set; LEAVE_SERVICE is taken only with no live ticket (R38
to R40).

The checks of ENTER_SERVICE: every stack from 0 to 127 complete, its zones loaded, their lifts on Port G, a bay to
park in, and the three ranges set, within the cabinet and disjoint. They are made in this order, within each in
increasing number; the first that fails is reported by its number with its record: the stack, the stack, the zone, 0,
and the range, for an overlap the higher of the two (R38). -/
def Obligations.ServiceEnteredAndLeft : Prop :=
  (
    ∀ (s : State) (st : Station) (flags : Byte), AskedBy s st .office →
      let g := s.garage
      let behind (b : Bay) : Bool := b.service == .inService && g.bayRecs.any fun kv =>
        kv.2.stack == b.stack && decide (kv.2.position < b.position) && kv.2.service == .out
      (g.mode = .commissioning →
        (∀ check n, serviceFault g s.line.g.stations = some (check, n) →
          Replies (exec (.enterService .s flags []) s) s st g Kind.enterService .refused (w8 check ++ w8 n)) ∧
        (serviceFault g s.line.g.stations = none →
          Replies (exec (.enterService .s flags []) s) s st
            { g with
              mode := .service
              bayRecs := g.bayRecs.map fun kv => (kv.1, if behind kv.2 then { kv.2 with service := .out } else kv.2) }
            Kind.enterService .taken (w16 (g.bayRecs.filter fun kv => behind kv.2).length))) ∧
      (g.mode = .service →
        (g.tickets = [] →
          Replies (exec (.leaveService .s flags []) s) s st { g with mode := .commissioning } Kind.leaveService .taken []) ∧
        (g.tickets ≠ [] → Replies (exec (.leaveService .s flags []) s) s st g Kind.leaveService .notApplicable []))) ∧
  (
    ∀ (g : Garage) (stations : List Station),
      let complete (n : Nat) : Prop := match g.stackRecs.find n with
        | some st => (∀ i, 1 ≤ i → i ≤ st.depth → (g.baysAt n i).length = 1) ∧
            ∀ x ∈ g.bayRecs, x.2.stack = n → x.2.position ≤ st.depth
        | none => ∀ x ∈ g.bayRecs, x.2.stack ≠ n
      let zoned (x : Nat × Stack) : Prop := g.zoneRecs.find x.2.zone ≠ none
      let served (x : Nat × Zone) : Prop := ∃ st ∈ stations, st.role = liftRole x.2.lift
      let fits (r : Option (Nat × Nat)) : Prop := ∃ a b, r = some (a, b) ∧ b ≤ g.cabinetSize
      let meet (r q : Option (Nat × Nat)) : Prop := ∃ a b c d, r = some (a, b) ∧ q = some (c, d) ∧ a ≤ d ∧ c ≤ b
      let one : Prop := ∀ n, n < 128 → complete n
      let two : Prop := ∀ x ∈ g.stackRecs, zoned x
      let three : Prop := ∀ x ∈ g.zoneRecs, served x
      let four : Prop := ∃ x ∈ g.bayRecs, x.2.swap = false
      let fails (check n : Nat) : Prop := serviceFault g stations = some (check, n)
      (serviceFault g stations = none ↔ one ∧ two ∧ three ∧ four ∧ fits g.rangeA ∧ fits g.rangeB ∧ fits g.rangeO ∧
        ¬ meet g.rangeA g.rangeB ∧ ¬ meet g.rangeA g.rangeO ∧ ¬ meet g.rangeB g.rangeO) ∧
      (∀ n, n < 128 → ¬ complete n → (∀ m, m < n → complete m) → fails 1 n) ∧
      (one → ∀ a x rest, g.stackRecs = a ++ x :: rest → ¬ zoned x → (∀ y ∈ a, zoned y) → fails 2 x.1) ∧
      (one → two → ∀ a x rest, g.zoneRecs = a ++ x :: rest → ¬ served x → (∀ y ∈ a, served y) → fails 3 x.1) ∧
      (one → two → three → ¬ four → fails 4 0) ∧
      (one → two → three → four →
        (¬ fits g.rangeA → fails 5 0) ∧
        (fits g.rangeA → ¬ fits g.rangeB ∨ meet g.rangeA g.rangeB → fails 5 1) ∧
        (fits g.rangeA → fits g.rangeB → ¬ meet g.rangeA g.rangeB →
          ¬ fits g.rangeO ∨ meet g.rangeA g.rangeO ∨ meet g.rangeB g.rangeO → fails 5 2)))

/-- BAY_SERVICE: out closes the named bay and every deeper one of its stack, at once where they are FREE and
pending where a car stands; in reopens the named bay unless one in front is closed, pending its return behind a
car. HOOK_SERVICE turns a FREE hook DISABLED and back (R41, R42, R96; the item beside a closed bay in front is a
free value, log 22, and so is the character that stands for more than 255 bays changed, log 34).

A bay that becomes FREE by Vacate or Release, which act only on a bay OCCUPIED by, or RESERVED for, that ticket:
OUT_PENDING becomes OUT; each deeper RETURN_PENDING bay of its stack with all the bays in front of it FREE becomes
IN_SERVICE; and the zone is reported, as it is by a bay brought into service: the BLOCKED mark of every QUEUED ticket
whose bay lies in it is cleared (R29 to R31, R110). -/
def Obligations.BayAndHookService : Prop :=
  (
    ∀ (s : State) (st : Station) (flags : Byte) (pl : List Byte), AskedBy s st .office → pl.length = 3 →
      let g := s.garage
      let n := u16 pl 0
      (
        let answers (k : Garage) := Replies (exec (.bayService .s flags pl) s) s st k.afterwards Kind.bayService
        (255 < n → answers g .badRequest [0]) ∧
        (n ≤ 255 → 1 < u8 pl 2 → answers g .badRequest [2]) ∧
        (n ≤ 255 → u8 pl 2 ≤ 1 → g.bay n = none → answers g .notApplicable [0]) ∧
        (∀ b, n ≤ 255 → g.bay n = some b →
          let shut (x : Bay) : ServiceState := match x.service with
            | .inService => if x.occ = .free then .out else .outPending
            | .returnPending => .out
            | other => other
          let closes (kv : Nat × Bay) : Bool :=
            kv.1 == n || (kv.2.stack == b.stack && decide (b.position < kv.2.position))
          let closedInFront := ∃ x ∈ g.front b, x.2.service = .out ∨ x.2.service = .outPending
          let carInFront := ∃ x ∈ g.front b, x.2.occ ≠ .free
          let becomes (now : ServiceState) (k : Garage) := answers k .taken
            (w16 n ++ w8 (serviceStateCode now) ++ (if now = b.service then [0] else [1]))
          let set (now : ServiceState) := g.modBay n fun b => { b with service := now }
          (u8 pl 2 = 0 →
            let changed := (g.bayRecs.filter fun kv => closes kv && shut kv.2 != kv.2.service).length
            ∃ count : Byte, (changed ≤ 255 → [count] = w8 changed) ∧
              answers { g with
                bayRecs := g.bayRecs.map fun kv =>
                  if closes kv then (kv.1, { kv.2 with service := shut kv.2 }) else kv } .taken
                (w16 n ++ w8 (serviceStateCode (shut b)) ++ [count])) ∧
          (u8 pl 2 = 1 → closedInFront → ∃ item, answers g .notApplicable [item]) ∧
          (u8 pl 2 = 1 → ¬ closedInFront →
            (b.service = .inService ∨ b.service = .returnPending → becomes b.service (set b.service)) ∧
            (b.service = .outPending → becomes .inService ((set .inService).reportBay b)) ∧
            (b.service = .out → ¬ carInFront → becomes .inService ((set .inService).reportBay b)) ∧
            (b.service = .out → carInFront → becomes .returnPending (set .returnPending))))) ∧
      (
        let answers := Replies (exec (.hookService .s flags pl) s) s st
        let turned (state : HookState) : Garage :=
          { g with hooks := g.hooks.adjust n fun h => { h with state := state } }
        let shown (state : HookState) (h : Hook) : List Byte :=
          w16 n ++ w8 (hookStateCode state) ++ w16 (h.ticket.getD 0) ++ w32 (h.tag.getD 0)
        (g.hooks.find n = none → answers g Kind.hookService .badRequest [0]) ∧
        (∀ h, g.hooks.find n = some h →
          (1 < u8 pl 2 → answers g Kind.hookService .badRequest [2]) ∧
          (u8 pl 2 = 0 → h.state = .free → answers (turned .disabled) Kind.hookService .taken (shown .disabled h)) ∧
          (u8 pl 2 = 1 → h.state = .disabled → answers (turned .free) Kind.hookService .taken (shown .free h)) ∧
          (u8 pl 2 = 0 → h.state ≠ .free → answers g Kind.hookService .notApplicable (shown h.state h)) ∧
          (u8 pl 2 = 1 → h.state ≠ .disabled → answers g Kind.hookService .notApplicable (shown h.state h))))) ∧
  (
    ∀ (g : Garage) (n ticket : Nat),
      let zone (b : Bay) : Option Nat := (g.stackRecs.find b.stack).map Stack.zone
      let unmarked (b : Bay) : Table Ticket := g.tickets.map fun x => (x.1,
        if x.2.state = .queued ∧ ((x.2.bay.bind g.bay).bind zone).isSome ∧ (x.2.bay.bind g.bay).bind zone = zone b then
          { x.2 with blocked := false } else x.2)
      (∀ b, g.reportBay b = { g with tickets := unmarked b }) ∧
      (g.bay n = none → g.vacate n ticket = g ∧ g.release n ticket = g) ∧
      (∀ b, g.bay n = some b →
        let opened : Table Bay := g.bayRecs.adjust n fun y => { y with
          occ := .free, service := if b.service = .outPending then .out else y.service }
        let returns (d : Bay) : Prop := d.stack = b.stack ∧ b.position < d.position ∧ d.service = .returnPending ∧
          ∀ y ∈ opened, y.2.stack = d.stack → 1 ≤ y.2.position → y.2.position < d.position → y.2.occ = .free
        let freed (k : Garage) : Prop :=
          k = { g with tickets := unmarked b, bayRecs := k.bayRecs } ∧ k.bayRecs.map Prod.fst = g.bayRecs.map Prod.fst ∧
          ∀ (i : Nat) (x y : Nat × Bay), opened[i]? = some x → k.bayRecs[i]? = some y →
            (returns x.2 → y.2 = { x.2 with service := .inService }) ∧ (¬ returns x.2 → y.2 = x.2)
        (b.occ = .occupied ticket → freed (g.vacate n ticket)) ∧ (b.occ ≠ .occupied ticket → g.vacate n ticket = g) ∧
        (b.occ = .reserved ticket → freed (g.release n ticket)) ∧ (b.occ ≠ .reserved ticket → g.release n ticket = g)))

/-- LIFT_SERVICE: off takes a lift OUT, at the end of its move when it is MOVING; on takes a FAULTED or OUT lift
with no unresolved move to NOT_READY when its station is heard and to OFFLINE otherwise. LIFT_RESOLVE places the
car of the unresolved move after its reply. Each answers with what then stands (R122, R126, R142). -/
def Obligations.LiftServiceAndResolve : Prop :=
  ∀ (s : State) (st : Station) (flags : Byte) (pl : List Byte), AskedBy s st .office → pl.length = 2 →
    let g := s.garage
    let service := Replies (exec (.liftService .s flags pl) s) s st
    let resolve := Replies (exec (.liftResolve .s flags pl) s) s st
    (1 < u8 pl 0 → service g.afterwards Kind.liftService .badRequest [0] ∧
      resolve g.afterwards Kind.liftResolve .badRequest [0]) ∧
    (u8 pl 0 ≤ 1 → 1 < u8 pl 1 → service g.afterwards Kind.liftService .badRequest [1] ∧
      resolve g.afterwards Kind.liftResolve .badRequest [1]) ∧
    (∀ l, u8 pl 0 = liftCode l →
      let u := g.lift l
      let heard := s.line.g.mode ≠ .disabled ∧ ∃ x ∈ s.line.g.stations, x.role = liftRole l ∧ x.poll = .active
      let answers (k : Garage) (r : Result) := service k.afterwards Kind.liftService r
        (w8 (liftCode l) ++ w8 (liftStateCode (k.lift l).state))
      let stops := u.state = .faulted ∨ u.state = .out
      (u8 pl 1 = 0 → u.state = .moving →
        answers (g.modLift l fun u => { u with serviceOn := false, offPending := true }) .taken) ∧
      (u8 pl 1 = 0 → u.state = .out → answers (g.modLift l fun u => { u with serviceOn := false }) .taken) ∧
      (u8 pl 1 = 0 → u.state ≠ .moving → u.state ≠ .out →
        answers ((g.stopIdleLift l .out).modLift l fun u => { u with serviceOn := false }) .taken) ∧
      (u8 pl 1 = 1 → stops → u.unresolved ≠ none → answers g .notApplicable) ∧
      (u8 pl 1 = 1 → stops → u.unresolved = none → heard →
        answers (g.modLift l fun u => { u with serviceOn := true, state := .notReady }) .taken) ∧
      (u8 pl 1 = 1 → stops → u.unresolved = none → ¬ heard →
        answers (g.modLift l fun u => { u with serviceOn := true, state := .offline }) .taken) ∧
      (u8 pl 1 = 1 → u.state = .moving →
        answers (g.modLift l fun u => { u with serviceOn := true, offPending := false }) .taken) ∧
      (u8 pl 1 = 1 → ¬ stops → u.state ≠ .moving →
        answers (g.modLift l fun u => { u with serviceOn := true }) .taken) ∧
      (u8 pl 1 ≤ 1 → u.unresolved = none → resolve g.afterwards Kind.liftResolve .notApplicable []) ∧
      (∀ m, u.unresolved = some m →
        (u8 pl 1 = 0 → resolve (placeAtSource l m ⟨g, []⟩).g.afterwards Kind.liftResolve .taken
          (w8 m.number ++ w16 m.ticket)) ∧
        (u8 pl 1 = 1 → resolve (placeAtDestination l m ⟨g, []⟩).g.afterwards Kind.liftResolve .taken
          (w8 m.number ++ w16 m.ticket))))

/-- The queries change nothing, but for the counters that LIFT_REPORT clears when asked: QUERY_TICKET, QUERY_BAY,
LIFT_REPORT, CONVOY_QUERY and STATUS answer with the record of what they name (R23, R43, R80, R158, R190, R198 to
R200; that the bay field of a ticket record is the record's own bay is the model's choice, log 21). STATUS of an
office station that was SILENT is taken after its ALERT STATION_BACK has joined the queue (R8, R120). -/
def Obligations.QueriesAnswered : Prop :=
  ∀ (s : State) (st : Station) (flags : Byte) (pl : List Byte),
    let g := s.garage
    let place (l : List Nat) (n : Nat) : Nat := ((l.findIdx? fun m => m == n).map fun i => i + 1).getD 0
    let part (n : Nat) (t : Ticket) : List Byte :=
      let waiting := w32 (t.seq.getD 0) ++ w8 (t.priority.getD 0xFF) ++ w8 ((t.convoy.map chanCode).getD 0xFF)
        ++ w8 ((t.phase.map phaseCode).getD 0xFF)
        ++ w8 (place (match t.convoy with | some c => (g.chan c).list | none => g.queue.map Entry.ticket) n)
      let ready := w8 (t.runner.getD 0) ++ w32 (t.readySeq.getD 0)
        ++ w8 (match t.location with | .lane l => place (g.lift l).lane n | _ => 0) ++ w8 (place g.waitList n)
      let hall : List Byte := if g.liftA.hall.map Prod.snd = some n then [0]
        else if g.liftB.hall.map Prod.snd = some n then [1] else [0xFF]
      match t.state with
      | .allocated => hall
      | .parking => hall
      | .queued => waiting
      | .retrieving => waiting
      | .held => waiting
      | .ready => ready
      | .outbound => ready
      | .check => match t.unresolved with
        | some (l, m) => w8 (liftCode l) ++ w8 m.number ++ w8 (moveKindCode m.kind) ++ w8 (locationCode m.source)
          ++ w16 (locationBay m.source) ++ w8 (locationCode m.dest) ++ w16 (locationBay m.dest)
        | none => [0xFF, 0, 0xFF, 0xFF, 0xFF, 0xFF, 0xFF, 0xFF, 0xFF]
      | .parked => []
      | .overflow => []
    (AskedBy s st .podium ∨ AskedBy s st .desk ∨ AskedBy s st .office → g.mode = .service → pl.length = 6 →
      let answers := Replies (exec (.queryTicket .s flags pl) s) s st g Kind.queryTicket
      (u16 pl 0 = 0 → u32 pl 2 = 0 → answers .badRequest [0]) ∧
      (u16 pl 0 ≠ 0 → g.ticket (u16 pl 0) = none → answers .unknownTicket []) ∧
      (u16 pl 0 = 0 → u32 pl 2 ≠ 0 → (∀ x ∈ g.tickets, x.2.tag ≠ u32 pl 2) → answers .unknownTicket []) ∧
      (∀ n t, g.ticket n = some t →
        (u16 pl 0 ≠ 0 ∧ n = u16 pl 0) ∨
          (u16 pl 0 = 0 ∧ u32 pl 2 ≠ 0 ∧ (g.tickets.findKey fun t => t.tag == u32 pl 2) = some n) →
        answers .taken (w16 n ++ w32 t.tag ++ w8 (classCode t.cls) ++ w8 t.defaultPriority ++ w32 t.arrivalMinute
          ++ w32 t.estimate ++ w8 t.podium ++ w8 (ticketStateCode t.state) ++ w8 (locationCode t.location)
          ++ w16 (t.bay.getD 0xFFFF) ++ w16 t.hook ++ wFlag t.outOfRange ++ w8 (keyStatusCode t.keyStatus)
          ++ w8 t.relocations ++ w8 (flagCode t.measure.isSome + 2 * flagCode t.hold + 4 * flagCode t.resumePending
            + 8 * flagCode t.cancelMark + 16 * flagCode t.blocked)
          ++ w16 ((t.measure.bind Measure.parkedMinutes).getD 0) ++ w16 ((t.measure.bind Measure.waitSeconds).getD 0)
          ++ w16 ((t.measure.bind Measure.handoverSeconds).getD 0)
          ++ part n t ++ List.replicate (13 - (part n t).length) 0))) ∧
    (AskedBy s st .office → pl.length = 2 →
      (255 < u16 pl 0 → Replies (exec (.queryBay .s flags pl) s) s st g Kind.queryBay .badRequest [0]) ∧
      (u16 pl 0 ≤ 255 → g.bay (u16 pl 0) = none →
        Replies (exec (.queryBay .s flags pl) s) s st g Kind.queryBay .taken
          (w16 (u16 pl 0) ++ [0, 0xFF, 0, 0xFF, 0xFF, 0xFF, 0xFF, 0xFF, 0, 0, 0xFF, 0xFF, 0xFF, 0xFF])) ∧
      (∀ b, u16 pl 0 ≤ 255 → g.bay (u16 pl 0) = some b →
        let answers (rest : List Byte) := Replies (exec (.queryBay .s flags pl) s) s st g Kind.queryBay .taken
          (w16 (u16 pl 0) ++ [1] ++ w8 b.stack ++ w8 b.position ++ wFlag b.large ++ wFlag b.charger ++ wFlag b.swap
            ++ w8 (serviceStateCode b.service) ++ w8 (occupancyCode b.occ) ++ w16 (b.occ.ticket?.getD 0) ++ rest)
        (g.stackRecs.find b.stack = none → answers [0xFF, 0xFF, 0xFF, 0xFF]) ∧
        (∀ k, g.stackRecs.find b.stack = some k →
          (g.zoneRecs.find k.zone = none → answers (w8 k.zone ++ w8 k.depth ++ [0xFF, 0xFF])) ∧
          (∀ z, g.zoneRecs.find k.zone = some z →
            answers (w8 k.zone ++ w8 k.depth ++ w8 (liftCode z.lift) ++ w8 z.level))))) ∧
    (AskedBy s st .office → pl.length = 2 →
      (1 < u8 pl 0 → Replies (exec (.liftReport .s flags pl) s) s st g Kind.liftReport .badRequest [0]) ∧
      (∀ l, u8 pl 0 = liftCode l →
        let u := g.lift l
        Replies (exec (.liftReport .s flags pl) s) s st
          (if u8 pl 1 ≠ 0 then g.modLift l fun u => { u with movesDone := 0, faults := 0, busySeconds := 0 } else g)
          Kind.liftReport .taken
          (w8 (liftCode l) ++ w8 (liftStateCode u.state) ++ wFlag g.measuring ++ w32 u.movesDone ++ w16 u.faults
            ++ w32 u.busySeconds ++ w32 g.minute ++ w32 g.seconds))) ∧
    (AskedBy s st .office → pl.length = 2 →
      (1 < u8 pl 0 → Replies (exec (.convoyQuery .s flags pl) s) s st g Kind.convoyQuery .badRequest [0]) ∧
      (∀ c, u8 pl 0 = chanCode c →
        let k := g.chan c
        let blocked := (k.list.filter fun n => ((g.ticket n).map Ticket.blocked).getD false).length
        let shown := (k.list.drop (min (max (u8 pl 1) 1) 48 - 1)).take 16
        Replies (exec (.convoyQuery .s flags pl) s) s st g Kind.convoyQuery .taken
          (w8 (chanStateCode k.state) ++ w8 (k.blockLength - 1) ++ w8 k.level ++ wFlag k.mix ++ w8 (g.members c)
            ++ w8 k.list.length ++ w8 blocked ++ w16 k.delivered
            ++ (match g.tenureOf c with
              | some l => w8 (liftCode l) ++ w8 (k.blockLevel.getD 0xFF) ++ w8 k.blockCount
              | none => [0xFF, 0xFF, 0xFF])
            ++ w8 ((k.request.map fun r => liftCode r.1).getD 0xFF) ++ w8 shown.length ++ shown.flatMap w16))) ∧
    (AskedBy s st .office →
      let back := st.poll = .silent
      let full := 48 ≤ s.line.s.ownQueue.length
      let tallies (p : PortState) : List Byte := w8 (portModeCode p.mode) ++ w16 p.faultTally ++ w16 p.dropTally
      Replies (exec (.status .s flags []) s) s st g Kind.status .taken
        (w8 (modeCode g.mode) ++ w8 (liftStateCode g.liftA.state) ++ w8 (liftStateCode g.liftB.state)
          ++ w16 (g.countState .allocated) ++ w16 (g.countState .parking) ++ w16 (g.countState .parked)
          ++ w16 (g.countState .overflow) ++ w16 (g.countState .queued) ++ w16 (g.countState .retrieving)
          ++ w16 (g.countState .held) ++ w16 (g.countState .ready) ++ w16 (g.countState .outbound)
          ++ w16 (g.countState .check) ++ w8 g.queue.length ++ w16 g.readyCount ++ w8 g.overflowCount
          ++ tallies s.line.s ++ tallies s.line.g
          ++ wFlag (decide ((if back then 31 else 32) < s.line.s.ownQueue.length))
          ++ w16 (if back ∧ full then tallyUp s.line.noticeDrops else s.line.noticeDrops)))

/-- LOAD_STATIONS: a refusal carries its result and position and changes no table; otherwise the new table stands, the
other stays, the reply carries its length, and a lift whose station has left Port G is lost (R4, R120 ❹; log 19, 20,
21).

The table that LOAD_STATIONS makes. An entry: a new station joins the end of the poll order ACTIVE, one
already there changes its role in place, the role NONE removes it; a number outside 1 to 126, an unknown role or
one of the other port, a station of the other port and the removal of none are BAD_REQUEST; SERVICE guards the
cabinet and the lifts. The entries are applied in frame order, each to the table that those before it have made;
the first to fail ends the request with its position; and the table as a whole must stand (R3, R4).

The poll position that LOAD_STATIONS leaves: at the station it pointed at, or at the first of those that followed
it and are still there, or at the first entry; a visit between two exchanges to a station that was removed ends, an
exchange in progress with one records the removal and keeps that record whatever is loaded later, and nothing else of
the port changes, whether the cycle has polled a station among it (R4; that a cycle goes on when the position moves to
the first entry so, and that a station in the table before and after a request counts as not removed by it, are the
model's choice, log 20). LOAD_STATIONS leaves it so as its exchange ends. -/
def Obligations.StationsLoaded : Prop :=
  (
    ∀ (s : State) (st : Station) (flags : Byte) (pl : List Byte), AskedBy s st .office →
      pl.length = 2 + 2 * u8 pl 1 → pl.length ≤ 48 →
      let answers := Replies (exec (.loadStations .s flags pl) s) s st s.garage Kind.loadStations
      let heard := s.modPort .s fun ps => { ps with stations := ps.answeredBy st }
      (u8 pl 1 < 1 ∨ 8 < u8 pl 1 → answers .badRequest [0]) ∧
      (1 ≤ u8 pl 1 → u8 pl 1 ≤ 8 → 1 < u8 pl 0 → answers .badRequest [1]) ∧
      (∀ p, 1 ≤ u8 pl 1 → u8 pl 1 ≤ 8 → u8 pl 0 = portCode p →
        (∀ r pos, heard.loadedStations p pl = .error (r, pos) → answers r (w8 pos)) ∧
        (∀ sts, heard.loadedStations p pl = .ok sts →
          let gone (l : Lift) := ∃ old, (s.line.g.stations.find? fun x => x.role == liftRole l) = some old ∧
            ¬ ∃ x ∈ sts, x.number = old.number ∧ x.role = liftRole l
          ∃ t, exec (.loadStations .s flags pl) s = .next t ∧ t.line.s.awaiting = false ∧
            (t.port p).stations = sts ∧ (t.port (otherPort p)).stations = (heard.port (otherPort p)).stations ∧
            SameLines s.line t.line ∧
            (s.line.s.hasRoom → t.line.s.carries (replyFrame st Kind.loadStations .taken (w8 sts.length))) ∧
            (p = .s → t.garage = s.garage) ∧
            (p = .g → ¬ gone .a → ¬ gone .b → t.garage = s.garage.afterwards) ∧
            (p = .g → gone .a → ¬ gone .b → t.garage = (s.garage.loseLift .a).afterwards) ∧
            (p = .g → ¬ gone .a → gone .b → t.garage = (s.garage.loseLift .b).afterwards) ∧
            (p = .g → gone .a → gone .b → t.garage = ((s.garage.loseLift .a).loseLift .b).afterwards)))) ∧
  (
    ∀ (s : State) (p : Port) (pl : List Byte),
      let elsewhere (n : Nat) := ∃ x ∈ (s.port (otherPort p)).stations, x.number = n
      let allowed := match p with | .s => [1, 2, 3, 4, 5] | .g => [6, 7]
      let one (off : Nat) (table : List Station) :=
        stationEntry pl p (s.port (otherPort p)).stations (s.garage.mode == .service) off table
      (∀ (off : Nat) (table : List Station),
        let n := u8 pl off
        let code := u8 pl (off + 1)
        let comes (r : Except Result (List Station)) := one off table = r
        (n < 1 ∨ 126 < n ∨ 7 < code → comes (.error .badRequest)) ∧
        (1 ≤ n → n ≤ 126 → code ≤ 7 → code ≠ 0 → code ∉ allowed → comes (.error .badRequest)) ∧
        (1 ≤ n → n ≤ 126 → code ∈ allowed ∨ code = 0 → elsewhere n → comes (.error .badRequest)) ∧
        (1 ≤ n → n ≤ 126 → ¬ elsewhere n → (∀ x ∈ table, x.number ≠ n) →
          (code = 0 → comes (.error .badRequest)) ∧
          (∀ r, code ∈ allowed → roleOf code = some (some r) → comes (.ok (table ++ [⟨n, r, .active, 0, 0⟩])))) ∧
        (∀ x, 1 ≤ n → n ≤ 126 → ¬ elsewhere n → table.find? (fun y => y.number == n) = some x →
          let guarded := s.garage.mode = .service ∧ (x.role = .cabinet ∨ x.role = .liftA ∨ x.role = .liftB)
          (code = 0 → guarded → comes (.error .refused)) ∧
          (code = 0 → ¬ guarded → comes (.ok (table.filter fun y => y.number != n))) ∧
          (∀ r, code ∈ allowed → roleOf code = some (some r) →
            (guarded → x.role ≠ r → comes (.error .refused)) ∧
            (¬ guarded ∨ x.role = r →
              comes (.ok (table.map fun y => if y.number = n then { y with role := r } else y)))))) ∧
      (∀ tables : Nat → List Station, tables 0 = (s.port p).stations →
        ((∀ i, i < u8 pl 1 → one (2 + 2 * i) (tables i) = .ok (tables (i + 1))) →
          s.loadedStations p pl = if tableStands p (tables (u8 pl 1)) then .ok (tables (u8 pl 1))
            else .error (.notApplicable, 0)) ∧
        (∀ k r, k < u8 pl 1 → (∀ i, i < k → one (2 + 2 * i) (tables i) = .ok (tables (i + 1))) →
          one (2 + 2 * k) (tables k) = .error r → s.loadedStations p pl = .error (r, k + 1)))) ∧
  (
    (∀ (ps : PortState) (sts : List Station),
      let new := ps.reload sts
      new = { ps with stations := sts, pollPos := new.pollPos, visit := new.visit } ∧
      (∀ a x rest b y c, ps.stations.drop ps.pollPos = a ++ x :: rest → (∀ z ∈ a, ∀ w ∈ sts, w.number ≠ z.number) →
        sts = b ++ y :: c → y.number = x.number → (∀ w ∈ b, w.number ≠ x.number) → new.pollPos = b.length) ∧
      ((∀ z ∈ ps.stations.drop ps.pollPos, ∀ w ∈ sts, w.number ≠ z.number) → new.pollPos = 0) ∧
      (ps.visit = none → new.visit = none) ∧
      (∀ v, ps.visit = some v →
        ((∃ w ∈ sts, w.number = v.station) → new.visit = some v) ∧
        (ps.awaiting = true → (∀ w ∈ sts, w.number ≠ v.station) → new.visit = some { v with removed := true }) ∧
        (ps.awaiting = false → (∀ w ∈ sts, w.number ≠ v.station) → new.visit = none))) ∧
    (∀ (s : State) (st : Station) (flags : Byte) (pl : List Byte) (p : Port) (sts : List Station), AskedBy s st .office →
      pl.length = 2 + 2 * u8 pl 1 → pl.length ≤ 48 → 1 ≤ u8 pl 1 → u8 pl 1 ≤ 8 → u8 pl 0 = portCode p →
      let heard := s.modPort .s fun ps => { ps with stations := ps.answeredBy st }
      heard.loadedStations p pl = .ok sts →
      ∃ u : State, exec (.loadStations .s flags pl) s = .next ((u.finishExchange .s (flags.getLsbD 0)).underHold) ∧
        (u.port p) = { (heard.port p).reload sts with ownQueue := (u.port p).ownQueue } ∧
        (u.port (otherPort p)) = { heard.port (otherPort p) with ownQueue := (u.port (otherPort p)).ownQueue }))

/-- LOAD_PASS: the entries replace those from the start position, lengthening the table or cutting it off when
asked, and the reply carries its length; a count above 8, a start beyond the table, a reach beyond 32 and a faulty
entry are BAD_REQUEST with their position and change nothing (R20). -/
def Obligations.PassLoaded : Prop :=
  ∀ (s : State) (st : Station) (flags : Byte) (pl : List Byte), AskedBy s st .office →
    pl.length = 3 + 5 * u8 pl 2 → pl.length ≤ 48 →
    let table := s.line.passTable
    let start := u8 pl 0
    let count := u8 pl 2
    let at' (i k : Nat) := u8 pl (3 + 5 * i + k)
    let bad (i : Nat) : Prop := 126 < at' i 0 ∨ at' i 1 < 1 ∨ 126 < at' i 1 ∨ at' i 3 < at' i 2 ∨ 3 < at' i 4
    let entry (i : Nat) : PassEntry := ⟨if at' i 0 = 0 then none else some (at' i 0), at' i 1, at' i 2, at' i 3,
      if at' i 4 = 0 then .pass else if at' i 4 = 1 then .drop else if at' i 4 = 2 then .gateA else .gateB⟩
    let outside := 8 < count ∨ table.length < start ∨ 32 < start + count
    let answers := Replies (exec (.loadPass .s flags pl) s) s st s.garage Kind.loadPass
    let after := table.take start ++ (List.range count).map entry
      ++ (if u8 pl 1 ≠ 0 then [] else table.drop (start + count))
    (outside → answers .badRequest [0]) ∧
    (¬ outside →
      (∀ i, i < count → bad i → (∀ j, j < i → ¬ bad j) → answers .badRequest (w8 (i + 1))) ∧
      ((∀ i, i < count → ¬ bad i) →
        ∃ t, exec (.loadPass .s flags pl) s = .next t ∧ t.garage = s.garage ∧
          HeardS { s with line := { s.line with passTable := after } } t st ∧
          (s.line.s.hasRoom → t.line.s.carries (replyFrame st Kind.loadPass .taken (w8 after.length)))))

/-- SET_LINE is refused with nothing changed, or answered with the values that will be used, which wait for the end of
that reply; RESTART is answered TAKEN and waits likewise; when the reply cannot be queued, the settings and the warm
start take effect at once, those for Port G at the end of its exchange or frame in progress; the frames that Port G
loses as it is turned off, and the reply, are counted on the tallies. STATUS_CLEAR sets every tally to 0 (R2, R14,
R22, R23, R44; the item of a refusal is the model's reading, log 21).

What the settings of one SET_LINE change as they take effect: those of Port S its settings alone; those of Port G
its settings, and, by the enable flag, a DISABLED port starts at its first entry with every station ACTIVE, a
port that is not DISABLED becomes so with its queues emptied into the tallies and both lifts lost, and any other
keeps its state (R22, R120 ❹). -/
def Obligations.LineManagement : Prop :=
  (
    ∀ (s : State) (st : Station) (flags : Byte) (pl : List Byte), AskedBy s st .office →
      let g := s.garage
      let queued (t : State) (f : Frame) (m : Mark) := t.line.s.holds ⟨f, m⟩
      (pl.length = 6 →
        let answers := Replies (exec (.setLine .s flags pl) s) s st g Kind.setLine
        (1 < u8 pl 0 → answers .badRequest [0]) ∧
        (u8 pl 0 ≤ 1 → 2 < u8 pl 3 → answers .badRequest [3]) ∧
        (u8 pl 0 = 0 → u8 pl 3 ≤ 2 → u8 pl 5 = 0 → answers .notApplicable [5]) ∧
        (u8 pl 0 = 1 → u8 pl 3 ≤ 2 → u8 pl 5 = 0 → g.mode = .service → answers .refused [5]) ∧
        (∀ p par, u8 pl 0 = portCode p → u8 pl 3 = parityCode par → (u8 pl 5 ≠ 0 ∨ (p = .g ∧ g.mode = .commissioning)) →
          let r : LineRequest := ⟨p, ⟨u8 pl 1 % 8, min (u8 pl 2) 240, par, min (max (u8 pl 4) 4) 64⟩, decide (u8 pl 5 ≠ 0)⟩
          let reply := replyFrame st Kind.setLine .taken (w8 (portCode p) ++ w8 r.settings.prescale
            ++ w8 r.settings.divisor ++ w8 (parityCode par) ++ w8 r.settings.window ++ wFlag r.enable)
          (s.line.s.hasRoom → ∃ t, exec (.setLine .s flags pl) s = .next t ∧ t.garage = g ∧ HeardS s t st ∧
            queued t reply (.lineReply r)) ∧
          (¬ s.line.s.hasRoom → p = .s → ∃ t, exec (.setLine .s flags pl) s = .next t ∧ t.garage = g ∧
            HeardS (s.modPort .s fun ps => { ps with settings := r.settings }) t st) ∧
          (¬ s.line.s.hasRoom → p = .g →
            let busy := s.line.g.awaiting = true ∨ s.line.g.sending ≠ none
            ∃ t, exec (.setLine .s flags pl) s = .next t ∧ t.line.s.awaiting = false ∧
              t.line.s.stations = s.line.s.answeredBy st ∧
              (busy → t.garage = g ∧
                HeardS { s with line := { s.line with lineDueG := s.line.lineDueG ++ [r] } } t st) ∧
              (¬ busy → t.line.g.settings = r.settings ∧ t.line.lineDueG = s.line.lineDueG ∧
                (r.enable = true → t.garage = g) ∧
                (r.enable = true → s.line.g.mode ≠ .disabled →
                  t.line.g.mode = s.line.g.mode ∧ t.line.g.stations = s.line.g.stations) ∧
                (r.enable = true → s.line.g.mode = .disabled → t.line.g.mode = .running ∧
                  t.line.g.stations = s.line.g.stations.map fun x => { x with poll := .active, misses := 0, skips := 0 }) ∧
                (r.enable = false → s.line.g.mode = .disabled → t.line.g.mode = .disabled ∧ t.garage = g) ∧
                (r.enable = false → s.line.g.mode ≠ .disabled →
                  t.line.g.mode = .disabled ∧ t.line.g.ownQueue = [] ∧ t.line.g.transitQueue = [] ∧
                  t.line.g.dropTally = tallyAdd s.line.g.dropTally s.line.g.transitQueue.length ∧
                  tallyAdd s.line.noticeDrops (s.line.g.ownQueue.length + 1) ≤ t.line.noticeDrops ∧
                  (g.chan0.state = .idle → g.chan1.state = .idle → t.line.noticeDrops
                    = tallyAdd s.line.noticeDrops (s.line.g.ownQueue.length + (if st.poll = .silent then 2 else 1))) ∧
                  t.garage = ((g.loseLift .a).loseLift .b).afterwards))))) ∧
      (pl.length = 0 →
        (s.line.s.hasRoom → ∃ t, exec (.restart .s flags pl) s = .next t ∧ t.garage = g ∧ HeardS s t st ∧
          queued t (replyFrame st Kind.restart .taken []) .restartReply) ∧
        (¬ s.line.s.hasRoom → ∃ t, exec (.restart .s flags pl) s = .next t ∧ t.garage = g.warm ∧
          t.line.s.awaiting = false ∧ t.line.g.awaiting = false) ∧
        (∃ t, exec (.statusClear .s flags pl) s = .next t ∧ t.garage = g ∧ t.line.s.awaiting = false ∧
          t.line.s.stations = s.line.s.answeredBy st ∧ t.line.g.stations = s.line.g.stations ∧
          t.line.s.faultTally = 0 ∧ t.line.s.dropTally = 0 ∧ t.line.g.faultTally = 0 ∧ t.line.g.dropTally = 0 ∧
          (s.line.s.ownQueue.length < 47 → t.line.noticeDrops = 0 ∧
            t.line.s.carries (replyFrame st Kind.statusClear .taken []))))) ∧
  (
    ∀ (s : State) (r : LineRequest),
      let on (a : PortState) : PortState := { a with settings := r.settings }
      let becomes (t : State) : Prop := s.applyLine r = t
      (r.port = .s → becomes (s.modPort .s on)) ∧
      (r.port = .g →
        (r.enable = true → s.line.g.mode ≠ .disabled → becomes (s.modPort .g on)) ∧
        (r.enable = false → s.line.g.mode = .disabled → becomes (s.modPort .g on)) ∧
        (r.enable = true → s.line.g.mode = .disabled → becomes (s.modPort .g fun a => { on a with
          mode := .running, pollPos := 0, cyclePolled := false, turnLeft := 0, passOver := 0
          stations := a.stations.map fun x => { x with poll := .active, misses := 0, skips := 0 } })) ∧
        (r.enable = false → s.line.g.mode ≠ .disabled →
          let g := s.line.g
          let emptied : Line := { s.line with
            noticeDrops := tallyAdd s.line.noticeDrops g.ownQueue.length
            g := { on g with
              mode := .disabled, visit := none, awaiting := false, sending := none, turnLeft := 0, ownQueue := []
              transitQueue := [], dropTally := tallyAdd g.dropTally g.transitQueue.length } }
          let e := settle ⟨(s.garage.loseLift .a).loseLift .b, []⟩
          becomes { s with garage := e.g, line := e.out.foldl Line.queueOut emptied })))

/-- CONVOY_LOAD examines its ticket numbers in frame order and accepts each PARKED one while the channel has fewer
than 48 members, answering how many, the members, and the first it skipped with its reason; CONVOY_START runs a
LOADED channel or holds it back; CONVOY_STOP stops one that is not IDLE: its listed members become PARKED, its
RETRIEVING members single retrievals, each with a place while one is left and given up without one, a tenure
passes to the plan under it or is released, and the channel enters IDLE with B 1, level 0 and the mix flag clear
(R115, R116, R146 to R149, R156, R186, R187; what an IDLE channel shows is DEDUCED, log 23, and when a tenure
passes to a plan is log 18). -/
def Obligations.ConvoyCommands : Prop :=
  ∀ (s : State) (st : Station) (flags : Byte) (pl : List Byte), AskedBy s st .office →
    let g := s.garage
    (pl.length = 2 + 2 * u8 pl 1 → pl.length ≤ 48 →
      let answers (k : Garage) := Replies (exec (.convoyLoad .s flags pl) s) s st k.afterwards Kind.convoyLoad
      (1 < u8 pl 0 → answers g .badRequest [0]) ∧
      (u8 pl 0 ≤ 1 → (u8 pl 1 < 1 ∨ 12 < u8 pl 1) → answers g .badRequest [1]) ∧
      (∀ c, u8 pl 0 = chanCode c → 1 ≤ u8 pl 1 → u8 pl 1 ≤ 12 →
        ((g.chan c).state = .running ∨ (g.chan c).state = .heldBack → answers g .notApplicable []) ∧
        ((g.chan c).state = .idle ∨ (g.chan c).state = .loaded →
          let one (x : Garage × Nat × Option (Nat × Nat)) (n : Nat) : Garage × Nat × Option (Nat × Nat) :=
            let skip (reason : Nat) := (x.1, x.2.1, if x.2.2.isSome then x.2.2 else some (n, reason))
            match x.1.ticket n with
            | none => skip 0
            | some t =>
              if n = 0 then skip 0
              else if t.state ≠ .parked then skip 1
              else if 48 ≤ x.1.members c then skip 2
              else
                let (k, seq) := x.1.takeSeq
                ((k.modTicket n fun t => { t with
                    state := .queued, seq := some seq, priority := some t.defaultPriority, convoy := some c
                    hold := false, resumePending := false, blocked := false
                    measure := t.measure.map fun m => (m.recordParked k.seconds).markWait k.seconds }).modChan c
                  fun ch => { ch with list := ch.list ++ [n] }, x.2.1 + 1, x.2.2)
          let x := ((List.range (u8 pl 1)).map fun i => u16 pl (2 + 2 * i)).foldl one (g, 0, none)
          let k := if 0 < x.2.1 ∧ (x.1.chan c).state = .idle then
              x.1.modChan c fun ch => { ch with state := .loaded, delivered := 0 } else x.1
          answers k .taken (w8 x.2.1 ++ w8 (k.members c) ++ w16 ((x.2.2.map Prod.fst).getD 0)
            ++ w8 ((x.2.2.map Prod.snd).getD 0xFF))))) ∧
    (pl.length = 4 →
      let answers (k : Garage) := Replies (exec (.convoyStart .s flags pl) s) s st k.afterwards Kind.convoyStart
      (1 < u8 pl 0 → answers g .badRequest [0]) ∧
      (∀ c, u8 pl 0 = chanCode c →
        let other := g.chan (otherChan c)
        let mix := decide (u8 pl 3 ≠ 0)
        let now : ChanState := if other.state = .running ∧ ¬ (mix = true ∧ other.mix = true) then .heldBack else .running
        ((g.chan c).state ≠ .loaded → answers g .notApplicable []) ∧
        ((g.chan c).state = .loaded →
          answers (g.modChan c fun k => { k with
            state := now, blockLength := u8 pl 1 % 8 + 1, level := min (u8 pl 2) 7, mix := mix }) .taken
            (w8 (chanStateCode now) ++ w8 (u8 pl 1 % 8) ++ w8 (min (u8 pl 2) 7) ++ wFlag mix)))) ∧
    (pl.length = 1 →
      let answers (k : Garage) := Replies (exec (.convoyStop .s flags pl) s) s st k.afterwards Kind.convoyStop
      (1 < u8 pl 0 → answers g .badRequest [0]) ∧
      (∀ c, u8 pl 0 = chanCode c →
        ((g.chan c).state = .idle → answers g .notApplicable []) ∧
        ((g.chan c).state ≠ .idle →
          let parked (k : Garage) (n : Nat) : Garage := { k with
            queue := k.queue.filter fun e => e.ticket != n
            chan0 := { k.chan0 with list := k.chan0.list.filter (· != n) }
            chan1 := { k.chan1 with list := k.chan1.list.filter (· != n) }
            tickets := k.tickets.adjust n fun t => { t with
              state := .parked, seq := none, priority := none, convoy := none, hold := false, resumePending := false
              phase := none, cancelMark := false, blocked := false, place := false, holdTimer := none
              measure := t.measure.map fun m => { m with waitMark := none } } }
          let runs (k : Garage) := k.seqOrder.filter fun n =>
            ((k.ticket n).map fun t => decide (t.state = .retrieving ∧ t.convoy = some c)).getD false
          let single (k : Garage) (n : Nat) : Garage :=
            let place := decide ((k.tickets.filter fun x => x.2.place).length < 64)
            let x := k.modTicket n fun t => { t with convoy := none, hold := false, resumePending := false, place := place }
            if place then x
            else if k.liftA.inFlight.bind Move.target = some n ∨ k.liftB.inFlight.bind Move.target = some n then
              x.modTicket n fun t => { t with cancelMark := true }
            else parked (x.endPlanOf n) n
          let passes (u : LiftUnit) : LiftUnit :=
            if u.tenure = some (.channel c) then
              { u with tenure := if u.plan ≠ none ∧ u.inFlight.map Move.kind ≠ some .final then some .plan else none }
            else u
          let listed := (g.chan c).list.foldl parked g
          let freed := (runs listed).foldl single listed
          let passed : Garage := { freed with liftA := passes freed.liftA, liftB := passes freed.liftB }
          let stopped := passed.modChan c fun k => { k with
            state := .idle, blockLength := 1, level := 0, mix := false, blockCount := 0, blockLevel := none
            request := none }
          answers (stopped.modChan (otherChan c) fun k =>
              if k.state = .heldBack then { k with state := .running } else k) .taken
            (w8 (g.chan c).list.length ++ w8 (runs g).length))))

/-! ### Time, starts and power -/

/-- A tick raises the second count and the clock, lowers every counting timer by one, and counts a busy second for
each MOVING lift under measurement; the minute, the second count and the busy seconds stay or wrap at their tops.
A timer that the tick brings to 0 expires in it: a move timer leaves its move unresolved with ALERT MOVE_TIMEOUT,
every pickup timer and every hold timer reloads with its alert, and where none is brought to 0 that is all. The
expiry command of a timer that the tick brings to 0 is that tick (R140, R167, R176, R177, R179, R181, R182, R189;
the order of several expiries is a free value, and that the command is the tick is read from R179, log 24). -/
def Obligations.TickAdvances : Prop :=
  ∀ s : State, s.powered = true →
    let g := s.garage
    let down (t : Option Nat) := t.map fun n => n - 1
    let lift (u : LiftUnit) : LiftUnit := { u with
      moveTimer := down u.moveTimer
      busySeconds := if g.measuring = true ∧ u.state = .moving then (u.busySeconds + 1) % 4294967296 else u.busySeconds }
    let low : Garage := { g with
      seconds := min (g.seconds + 1) 4294967295
      secsIntoMinute := if g.secsIntoMinute = 59 then 0 else g.secsIntoMinute + 1
      minute := if g.secsIntoMinute = 59 then min (g.minute + 1) 4294967295 else g.minute
      liftA := lift g.liftA
      liftB := lift g.liftB
      tickets := g.tickets.map fun kv => (kv.1, { kv.2 with holdTimer := down kv.2.holdTimer })
      runners := g.runners.map fun kv => (kv.1, { kv.2 with timer := down kv.2.timer }) }
    let ticked : State := { s with garage := low }
    let pickup (r : Nat) (k : Runner) := low.runners.find r = some k ∧ k.timer = some 0
    let hold (n : Nat) (x : Ticket) := low.ticket n = some x ∧ x.holdTimer = some 0
    ∀ c : Instr, (c = .tick ∨ (∃ l, c = .moveTimerExpiry l ∧ (low.lift l).moveTimer = some 0) ∨
        (∃ r k, c = .pickupTimerExpiry r ∧ pickup r k) ∨ (∃ n x, c = .holdTimerExpiry n ∧ hold n x)) →
    ∃ t, exec c s = .next t ∧ Undisturbed s t ∧ t.line.s.stations = s.line.s.stations ∧
      t.line.g.stations = s.line.g.stations ∧
      (s.line.pollHold = false → (∀ l, (low.lift l).moveTimer ≠ some 0) → (∀ r k, ¬ pickup r k) → (∀ n x, ¬ hold n x) →
        t = ticked) ∧
      ((∀ l, (low.lift l).moveTimer ≠ some 0) →
        t.garage = { low with runners := t.garage.runners, tickets := t.garage.tickets } ∧
        (∀ r, t.garage.runners.find r = (low.runners.find r).map fun k =>
          if k.timer = some 0 then { k with timer := some low.pickupPeriod } else k) ∧
        (∀ n, t.garage.ticket n = (low.ticket n).map fun x =>
          if x.holdTimer = some 0 then { x with holdTimer := some low.holdPeriod } else x) ∧
        (∀ r k, pickup r k → Told ticked t 19 (w8 r ++ w16 (k.ticket.getD 0)
          ++ w8 (((k.ticket.bind low.ticket).map fun x => locationCode x.location).getD 0xFF))) ∧
        (∀ n x, hold n x → Told ticked t 7 (w16 n ++ w16 (x.bay.getD 0xFFFF)))) ∧
      (∀ l m, (low.lift l).moveTimer = some 0 → (low.lift l).inFlight = some m →
        (low.lift (otherLift l)).moveTimer ≠ some 0 → (∀ r k, ¬ pickup r k) → (∀ n x, ¬ hold n x) →
        let faulted := (low.modLift l fun u => { u with
          inFlight := none, moveTimer := none
          faults := if low.measuring then tallyUp u.faults else u.faults }).stopLift l .faulted
        t.garage = Garage.afterwards ((faulted.leaveUnresolved l m).modLift l fun u =>
          if u.offPending then { u with state := .out, offPending := false } else u) ∧
        Told ticked t 12 (w8 (liftCode l) ++ w8 m.number ++ w16 m.ticket))

/-- An expiry command is the tick in which that timer's expiry falls, so it comes with its alert whatever else falls
in that tick: MOVE_TIMEOUT of a move in flight, RUNNER_LATE and HOLD_LONG, with the second count that the tick
gives. A timer that is stopped, or that the tick does not bring to 0, has no expiry: then the command changes nothing
(R140, R167, R179, R182; that its expiry comes first of those that fall in the tick is the model's form, log 24). -/
def Obligations.ExpiriesTaken : Prop :=
  ∀ s : State, s.powered = true →
    let g := s.garage
    let last (t : Option Nat) : Prop := ∃ k, t = some k ∧ k ≤ 1
    let comes (o : Host.Outcome State Fault Refusal) (alert : Nat) (args : List Byte) : Prop :=
      ∃ t, o = .next t ∧ t.garage.seconds = min (g.seconds + 1) 4294967295 ∧
        Sends s t .office Kind.alert (w8 alert ++ w32 (min (g.seconds + 1) 4294967295) ++ args)
    (∀ l m, last (g.lift l).moveTimer → (g.lift l).inFlight = some m →
      comes (exec (.moveTimerExpiry l) s) 12 (w8 (liftCode l) ++ w8 m.number ++ w16 m.ticket)) ∧
    (∀ r k, g.runners.find r = some k → last k.timer →
      comes (exec (.pickupTimerExpiry r) s) 19 (w8 r ++ w16 (k.ticket.getD 0)
        ++ w8 (((k.ticket.bind g.ticket).map fun t => locationCode t.location).getD 0xFF))) ∧
    (∀ n t, g.ticket n = some t → last t.holdTimer →
      comes (exec (.holdTimerExpiry n) s) 7 (w16 n ++ w16 (t.bay.getD 0xFFFF))) ∧
    (s.line.pollHold = false →
      (∀ l, ¬ last (g.lift l).moveTimer → exec (.moveTimerExpiry l) s = .next s) ∧
      (∀ r, (∀ k, g.runners.find r = some k → ¬ last k.timer) → exec (.pickupTimerExpiry r) s = .next s) ∧
      (∀ n, (∀ t, g.ticket n = some t → ¬ last t.holdTimer) → exec (.holdTimerExpiry n) s = .next s))

/-- What a move left unresolved does: its ticket goes to CHECK at an unknown place with its retrieval ended, its
source bay is held for it, and the lift keeps the move. A PARK move's request ends; a FINAL move's plan ends; a
RELOCATION's plan ends with its other reservations released, its target back in its queue or list, or PARKED when
it carries the cancel mark, and the bay it was going to RESERVED for the moved ticket still (R29, R105, R140).

Where the car of an unresolved move is placed: the bays, the hall, the lane and the ticket of each case; the move
is no longer unresolved, its number is kept, and one placed at its destination counts as done (R141, R187, R189; that
no bay changes its service state as a PARK move is placed at its source is the model's choice, log 16, and what the
report of a zone changes is stated by BayAndHookService). -/
def Obligations.Unresolved : Prop :=
  (
    ∀ (l : Lift) (m : Move) (g : Garage) (t : Ticket), g.ticket m.ticket = some t →
      let k := g.leaveUnresolved l m
      (k.lift l).unresolved = some m ∧
      (m.kind ≠ .relocation → k.ticket m.ticket = some { t with
        state := .check, location := .unknown, bay := none, unresolved := some (l, m), seq := none, priority := none
        convoy := none, hold := false, resumePending := false, phase := none, cancelMark := false, blocked := false
        place := false, holdTimer := none }) ∧
      (∀ e ∈ k.queue, m.kind ≠ .relocation → e.ticket ≠ m.ticket) ∧
      (m.kind = .park → (k.lift l).parkRequest = none) ∧ (m.kind = .final → (k.lift l).plan = none) ∧
      (∀ b bay, m.source = .bay b → g.bay b = some bay → m.kind ≠ .relocation →
        k.bay b = some { bay with occ := .reserved m.ticket }) ∧
      (∀ b p x, m.kind = .relocation → m.source = .bay b → (g.lift l).plan = some p → p.target ≠ m.ticket →
        g.ticket p.target = some x →
        k.ticket m.ticket = some { t with
          state := .check, location := .unknown, bay := none, unresolved := some (l, m), seq := none, priority := none
          convoy := none, hold := false, resumePending := false, phase := none, cancelMark := false, blocked := false
          place := false, holdTimer := none } ∧
        (k.lift l).plan = none ∧ (∀ e ∈ k.queue, e.ticket ≠ m.ticket) ∧ (∀ c, m.ticket ∉ (k.chan c).list) ∧
        (∀ bay, g.bay b = some bay → (k.bay b).map Bay.occ = some (.reserved m.ticket)) ∧
        (∀ d, (g.bay d).map Bay.occ = some (.reserved m.ticket) → (k.bay d).map Bay.occ = some (.reserved m.ticket)) ∧
        (∀ r ∈ p.relocs, r.done = false → r.blocker ≠ m.ticket → r.dest ≠ b →
          (g.bay r.dest).map Bay.occ = some (.reserved r.blocker) → (k.bay r.dest).map Bay.occ = some .free) ∧
        (x.cancelMark = false → x.convoy = none →
          k.ticket p.target = some { x with
            state := .queued, phase := none, blocked := false, hold := x.hold && !x.resumePending, resumePending := false } ∧
          ⟨p.target, none⟩ ∈ k.queue) ∧
        (∀ c, x.cancelMark = false → x.convoy = some c →
          k.ticket p.target = some { x with state := .queued, phase := none, blocked := false } ∧
          p.target ∈ (k.chan c).list) ∧
        (x.cancelMark = true → (k.ticket p.target).map Ticket.state = some .parked ∧
          (k.ticket p.target).map Ticket.place = some false))) ∧
  (
    ∀ (l : Lift) (m : Move) (g : Garage),
      let cleared := g.modLift l fun u => { u with unresolved := none, lastResolved := some m.number }
      let counted := g.modLift l fun u => { u with
        unresolved := none, lastResolved := some m.number
        movesDone := if g.measuring then (u.movesDone + 1) % 4294967296 else u.movesDone }
      let parkedIn (b : Nat) (t : Ticket) : Ticket := { t with
        state := .parked, location := .bay b, bay := some b, unresolved := none, seq := none, priority := none
        convoy := none, hold := false, resumePending := false, phase := none, cancelMark := false, blocked := false
        place := false, holdTimer := none, measure := t.measure.map fun k => { k with waitMark := none } }
      (∀ a b, m.kind = .relocation → m.source = .bay a → m.dest = .bay b →
        (placeAtDestination l m ⟨g, []⟩).g = ((counted.fill b m.ticket).release a m.ticket).modTicket m.ticket (fun t =>
          { parkedIn b t with relocations := min (t.relocations + 1) 255 }) ∧
        (placeAtSource l m ⟨g, []⟩).g = ((cleared.fill a m.ticket).release b m.ticket).modTicket m.ticket (parkedIn a)) ∧
      (∀ a, m.kind = .final → m.source = .bay a →
        (placeAtDestination l m ⟨g, []⟩).g = (enterReady m.ticket (.lane l) ⟨(counted.release a m.ticket).modLift l fun u =>
          { u with lane := u.lane ++ [m.ticket], reserved := u.reserved - 1 }, []⟩).g ∧
        (placeAtSource l m ⟨g, []⟩).g = ((cleared.fill a m.ticket).modLift l fun u => { u with
          reserved := u.reserved - 1
          waiting := u.waiting.map fun p => { p with stamp := some g.seconds } }).modTicket m.ticket (parkedIn a)) ∧
      (∀ b, m.kind = .park → m.dest = .bay b →
        (placeAtDestination l m ⟨g, []⟩).g = ((counted.fill b m.ticket).modLift l fun u => { u with
          hall := none, parkRequest := none }).modTicket m.ticket (fun t => { t with
            state := .parked, bay := some b, location := .bay b, unresolved := none
            measure := t.measure.map (Measure.markParked g.seconds) }) ∧
        (let asked := (cleared.modTicket m.ticket fun t => { t with
            state := .allocated, location := .hall l, bay := some b, unresolved := none }).modLift l fun u => { u with
              parkRequest := some (m.ticket, g.seconds) }
         (placeAtSource l m ⟨g, []⟩).g = (match g.bay b with | some x => asked.reportBay x | none => asked) ∧
         (placeAtSource l m ⟨g, []⟩).g.bayRecs = g.bayRecs)))

/-- WARM_START keeps every setting, table and count but those named here. Every retrieval, convoy, tenure and plan
ends; a move in flight is left unresolved on a FAULTED lift, its ticket goes to CHECK and its source bay is held;
the tickets of retrievals are PARKED, READY and OUTBOUND tickets are numbered anew, and all others stay as they
are; the reservations of ALLOCATED and CHECK tickets stand and all others are released; park moves are asked for
anew; every runner is OFF and READY tickets wait in ready order. On the lines the queues are emptied, every tally
is 0, every station is ACTIVE and a break is to be sent. QUEUE_LOST tells of the retrievals lost, and HOOK_OPEN is
sent anew for every RELEASED hook (R25, R44, R46, R81, R82, R97, R117, R144, R159, R175, R177, R183; that the
start takes place whatever is being sent is log 4, that a port in LINE_FAULT becomes RUNNING is log 10, the flag
that stands for the break to send is log 11, and a FAULTED lift with an unresolved move and its service flag off
staying FAULTED is log 33: the model's choices). -/
def Obligations.WarmStart : Prop :=
  ∀ s : State, s.powered = true →
    let g := s.garage
    let lost := g.tickets.count fun t => t.state == .queued || t.state == .held || t.state == .retrieving
    let opens := g.hooks.filter fun x => x.2.state == .released
    let warmed (a b : PortState) : Prop :=
      b.settings = a.settings ∧ b.pollPos = 0 ∧ b.visit = none ∧ b.awaiting = false ∧ b.transitQueue = [] ∧
      b.passOver = 0 ∧ b.faultTally = 0 ∧ b.dropTally = 0 ∧
      (b.sending = none → b.breakDue = decide (a.mode ≠ .disabled)) ∧
      b.stations = (a.stations.map fun x => { x with poll := .active, misses := 0, skips := 0 }) ∧
      (a.mode = .disabled → b.mode = .disabled) ∧ (a.mode ≠ .disabled → b.mode = .running)
    let inDoubt (n : Nat) : Option (Lift × Move) :=
      ((g.liftB.inFlight.filter fun m => m.ticket == n).map fun m => (Lift.b, m)).or
        ((g.liftA.inFlight.filter fun m => m.ticket == n).map fun m => (Lift.a, m))
    let state (n : Nat) : Option TicketState := (g.ticket n).map Ticket.state
    let ended (k : Ticket) : Ticket := { k with
      seq := none, priority := none, convoy := none, hold := false, resumePending := false, phase := none
      cancelMark := false, blocked := false, place := false, holdTimer := none }
    let becomes (n : Nat) (k : Ticket) : Ticket := match inDoubt n with
      | some x => { ended k with state := .check, location := .unknown, bay := none, unresolved := some x, runner := none }
      | none => match k.state with
        | .queued | .held | .retrieving => { ended k with
            state := .parked, measure := k.measure.map fun m => { m with waitMark := none } }
        | _ => { k with runner := none }
    let stands (n : Nat) : Bool :=
      state n == some .allocated || state n == some .check || ((state n).isSome && (inDoubt n).isSome)
    let holds (k : Garage) (m : Option Move) : Garage := match m with
      | some ⟨_, _, n, _, .bay b, _, _⟩ => k.modBay b fun y => { y with occ := .reserved n }
      | _ => k
    let held := holds (holds g g.liftA.inFlight) g.liftB.inFlight
    let place (n : Nat) : Nat := ((g.readyOrder.findIdx? fun m => m == n).map fun i => i + 1).getD 0
    let unit (after : Garage) (l : Lift) (a b : LiftUnit) : Prop :=
      b = { a with
        tenure := none, plan := none, waiting := [], inFlight := none, reorder := none, moveTimer := none
        offPending := false, readiness := .none, state := b.state, unresolved := b.unresolved
        parkRequest := b.parkRequest, reserved := b.reserved } ∧
      (∀ m, a.inFlight = some m → b.state = .faulted ∧ b.unresolved = some m) ∧
      (a.inFlight = none → b.unresolved = a.unresolved ∧
        b.state = (if a.state = .faulted ∧ a.unresolved ≠ none then .faulted
          else if a.serviceOn = false then .out else .offline)) ∧
      (∀ tag n, a.hall = some (tag, n) → state n = some .allocated → inDoubt n = none →
        b.parkRequest = some (n, g.seconds)) ∧
      ((∀ tag n, a.hall = some (tag, n) → state n ≠ some .allocated ∨ inDoubt n ≠ none) → b.parkRequest = none) ∧
      b.reserved = after.tickets.count fun k =>
        k.state == .check && (k.unresolved.map fun x => x.2.dest) == some (.lane l)
    let cleared : State := { s with line := { s.line with noticeDrops := 0 } }
    ∃ t, exec .warmStart s = .next t ∧ t.pending = s.pending ∧ t.powered = true ∧ t.storeHeld = s.storeHeld ∧
      t.line.passTable = s.line.passTable ∧ t.line.lineDueG = [] ∧ warmed s.line.s t.line.s ∧ warmed s.line.g t.line.g ∧
      t.line.noticeDrops ≤ (if lost = 0 then 0 else 1) + opens.length ∧
      (lost = 0 → opens = [] → t.line.s.ownQueue = [] ∧ t.line.g.ownQueue = []) ∧
      t.garage = { g with
        liftA := t.garage.liftA, liftB := t.garage.liftB, tickets := t.garage.tickets, bayRecs := t.garage.bayRecs
        queue := [], requestCounter := 1, readyCounter := g.readyOrder.length + 1
        chan0 := Channel.reset, chan1 := Channel.reset, runners := resetRunners, freeList := []
        waitList := t.garage.waitList, secsIntoMinute := 0 } ∧
      (∀ l, unit t.garage l (g.lift l) (t.garage.lift l)) ∧
      t.garage.bayRecs = (held.bayRecs.foldl (fun k x => match x.2.occ with
        | .reserved n => if stands n then k else k.release x.1 n
        | _ => k) held).bayRecs ∧
      (∀ n, (t.garage.ticket n).isSome = (g.ticket n).isSome) ∧
      (∀ n k k', g.ticket n = some k → t.garage.ticket n = some k' → k' = { becomes n k with readySeq := k'.readySeq }) ∧
      (g.tickets.rising = true →
        t.garage.waitList = (g.readyOrder.filter fun n => state n == some .ready && (inDoubt n).isNone) ∧
        ∀ n k k', g.ticket n = some k → t.garage.ticket n = some k' →
          k'.readySeq = k.readySeq.map fun _ => place n) ∧
      (lost ≠ 0 → Sends cleared t .office Kind.alert (w8 5 ++ w32 g.seconds ++ w16 lost)) ∧
      (∀ x ∈ opens, Sends cleared t .cabinet Kind.hookOpen
        (w16 x.1 ++ w16 (x.2.ticket.getD 0) ++ w32 (x.2.tag.getD 0)))

/-- POWER_LOSS and POWER_UP: without power only the return of power does anything; a store that held and whose check
agrees brings a warm start, and any other a cold start (R45; the supply as a flag, log 2, 3). -/
def Obligations.PowerLostAndRestored : Prop :=
  ∀ (s : State) (held agrees : Bool),
    exec (.powerLoss held) s = .next { s with powered := false, storeHeld := s.storeHeld && held } ∧
    (s.powered = true → exec (.powerUp agrees) s = .next s) ∧
    (s.powered = false → s.storeHeld = true → agrees = true →
      exec (.powerUp agrees) s = exec .warmStart { s with powered := true }) ∧
    (s.powered = false → (s.storeHeld = false ∨ agrees = false) →
      exec (.powerUp agrees) s = .next { State.reset with pending := s.pending })

/-! ### The choices of the arbiter and of the allocator -/

/-- The arbiter's winner: the highest level, then the earliest stamp, then the order park move, channel 0, channel
1, continuations, queue entries, then the lowest request sequence number. Where there is a bid there is a winner;
every park request, every channel's request on the lift, every plan that waits for the lane while a slot is free,
and every queue entry on the lift that has its stamp is among the bids, and nothing else is. The arbiter grants
the winner's bid on a READY lift that has no holder, and on no other lift. A park move that wins is ordered to its
bay, its ticket PARKING and the tenure free; a continuation leaves the plans that wait, takes a slot and orders
its final move; a queue entry's plan is built and holds the tenure, which stays free when it cannot be built; a
channel takes the tenure as BlockSteps states (R107, R123 to R125, R127 to R129, R132, R134, R143). -/
def Obligations.ArbiterChoice : Prop :=
  ∀ (g : Garage) (l : Lift),
    (g.bids l = [] → bestBid (g.bids l) = none) ∧
    (g.bids l ≠ [] → ∃ b, bestBid (g.bids l) = some b) ∧
    (∀ b, bestBid (g.bids l) = some b → b ∈ g.bids l ∧ ∀ x ∈ g.bids l,
      x.level < b.level ∨ (x.level = b.level ∧ (b.stamp < x.stamp ∨ (b.stamp = x.stamp ∧
        (b.rank < x.rank ∨ (b.rank = x.rank ∧ b.seq ≤ x.seq)))))) ∧
    (∀ x ∈ g.bids l, match x.who with
      | .park n => x.rank = 0 ∧ x.level = g.parkLevel ∧ (g.lift l).parkRequest = some (n, x.stamp)
      | .channel .c0 => x.rank = 1 ∧ x.level = g.chan0.level ∧ g.chan0.request = some (l, x.stamp)
      | .channel .c1 => x.rank = 2 ∧ x.level = g.chan1.level ∧ g.chan1.request = some (l, x.stamp)
      | .continuation p => x.rank = 3 ∧ x.level = p.level ∧ p ∈ (g.lift l).waiting ∧ x.seq = g.seqOf p.target ∧
          x.stamp = p.stamp.getD g.seconds ∧ (g.lift l).lane.length + (g.lift l).reserved < (g.lift l).laneCapacity
      | .entry n => x.rank = 4 ∧ (⟨n, some x.stamp⟩ : Entry) ∈ g.queue ∧ g.liftOfTicket n = some l ∧
          x.seq = g.seqOf n ∧ ∃ t, g.ticket n = some t ∧ x.level = t.priority.getD 0) ∧
    (∀ n stamp, (g.lift l).parkRequest = some (n, stamp) → ⟨.park n, g.parkLevel, stamp, 0, 0⟩ ∈ g.bids l) ∧
    (∀ stamp, g.chan0.request = some (l, stamp) → ⟨.channel .c0, g.chan0.level, stamp, 1, 0⟩ ∈ g.bids l) ∧
    (∀ stamp, g.chan1.request = some (l, stamp) → ⟨.channel .c1, g.chan1.level, stamp, 2, 0⟩ ∈ g.bids l) ∧
    (∀ p ∈ (g.lift l).waiting, (g.lift l).lane.length + (g.lift l).reserved < (g.lift l).laneCapacity →
      ⟨.continuation p, p.level, p.stamp.getD g.seconds, 3, g.seqOf p.target⟩ ∈ g.bids l) ∧
    (∀ e ∈ g.queue, ∀ stamp t, e.stamp = some stamp → g.ticket e.ticket = some t → g.liftOfTicket e.ticket = some l →
      ⟨.entry e.ticket, t.priority.getD 0, stamp, 4, g.seqOf e.ticket⟩ ∈ g.bids l) ∧
    (∀ out b, (g.lift l).state = .ready → (g.lift l).tenure = none → bestBid (g.bids l) = some b →
      arbitrate l ⟨g, out⟩ = some (grant l b ⟨g, out⟩)) ∧
    (∀ out, (g.lift l).state ≠ .ready ∨ (g.lift l).tenure ≠ none → arbitrate l ⟨g, out⟩ = none) ∧
    (∀ out b n, b.who = .park n →
      (∀ t k, g.ticket n = some t → t.bay = some k → grant l b ⟨g, out⟩ =
        order l ⟨0, .park, n, t.tag, .hall l, .bay k, none⟩ ⟨g.modTicket n fun t => { t with state := .parking }, out⟩) ∧
      ((g.ticket n).bind Ticket.bay = none →
        grant l b ⟨g, out⟩ = ⟨g.modLift l fun u => { u with parkRequest := none }, out⟩)) ∧
    (∀ out b p t k, b.who = .continuation p → g.ticket p.target = some t → t.bay = some k →
      grant l b ⟨g, out⟩ = order l ⟨0, .final, p.target, t.tag, .bay k, .lane l, some p.target⟩
        ⟨(g.modTicket p.target fun t => { t with phase := some .final }).modLift l fun u => { u with
          waiting := u.waiting.filter fun w => w.target != p.target
          reserved := u.reserved + 1, plan := some { p with slot := true, stamp := none }
          tenure := if u.tenure = some .plan then none else u.tenure }, out⟩) ∧
    (∀ out b n e', b.who = .entry n →
      (buildPlan l n b.level ⟨g, out⟩ = (e', true) →
        grant l b ⟨g, out⟩ = ⟨e'.g.modLift l fun u => { u with tenure := some .plan }, e'.out⟩) ∧
      (buildPlan l n b.level ⟨g, out⟩ = (e', false) → grant l b ⟨g, out⟩ = e'))

/-- The allocator's winner: a candidate of a stack in scope, with the lowest score and, among equals, the lowest bay
number; "no bay" when no stack in scope offers one (R48, R56).

The candidate that a stack offers, and its score. A choice examines every loaded stack, those whose zone lies on a
lift, or those of a zone but one. A stack with a RESERVED bay, or with a car that is QUEUED, RETRIEVING or HELD,
offers nothing, nor does one whose first bay is not IN_SERVICE and FREE. Otherwise the deepest bay behind only such
bays is its candidate when it is LARGE for class L and, but for a relocation, no SWAP bay. Its score is the sum of
the blocking and the depth terms, the load of its lift (the tickets QUEUED or RETRIEVING there and its park request, at
most 31) but for a relocation, the cost of its zone, and the charger and size terms (R48, R50, R51, R54 to R56). -/
def Obligations.AllocatorWinner : Prop :=
  (
    ∀ (g : Garage) (sc : Scope) (cls : CarClass) (estimate : Nat),
      let offers (x : Nat × Nat) : Prop := ∃ kv ∈ g.stackRecs, sc.examines g kv.1 kv.2 = true ∧
        g.candidate cls estimate sc.isRelocation kv.1 kv.2 = some x
      (∀ w, g.choose sc cls estimate = some w →
        offers w ∧ ∀ x, offers x → w.2 < x.2 ∨ (w.2 = x.2 ∧ w.1 ≤ x.1)) ∧
      (g.choose sc cls estimate = none ↔ ¬ ∃ x, offers x)) ∧
  (
    ∀ (g : Garage) (cls : CarClass) (estimate n : Nat) (st : Stack),
      let at' (i : Nat) : Option (Nat × Bay) := g.bayRecs.find? fun x => x.2.stack = n ∧ x.2.position = i
      let opened (i : Nat) : Prop := ∃ x, at' i = some x ∧ x.2.service = .inService ∧ x.2.occ = .free
      let closed : Prop := ∃ x ∈ g.bayRecs, x.2.stack = n ∧ ((∃ m, x.2.occ = .reserved m) ∨
        ∃ m t, x.2.occ = .occupied m ∧ g.ticket m = some t ∧ t.state ∈ [.queued, .retrieving, .held])
      let load (l : Lift) : Nat := min ((g.tickets.filter fun x =>
        (x.2.state == .queued || x.2.state == .retrieving) && x.2.bay.bind g.liftOfBay == some l).length
          + (if (g.lift l).parkRequest = none then 0 else 1)) 31
      let score (reloc : Bool) (z : Zone) (b : Bay) (p : Nat) : Nat :=
        g.weights.wB * g.blockedCars b estimate
          + g.weights.wD * ((p : Int) - (g.suited estimate st.depth : Int)).natAbs
          + (if reloc = true then 0 else g.weights.wL * load z.lift) + z.cost
          + (if cls = .e then (if b.charger = true then 0 else g.weights.wE) else if b.charger = true then g.weights.wC else 0)
          + (if cls ≠ .l ∧ b.large = true then g.weights.wS else 0)
      (Scope.everywhere.examines g n st = true) ∧
      (∀ l, (Scope.onLift l).examines g n st = true ↔ ∃ z, g.zoneRecs.find st.zone = some z ∧ z.lift = l) ∧
      (∀ z x, (Scope.relocation z x).examines g n st = true ↔ st.zone = z ∧ n ≠ x) ∧
      (∀ sc : Scope, sc.isRelocation = true ↔ ∃ z x, sc = .relocation z x) ∧
      ∀ reloc : Bool,
        (closed ∨ ¬ opened 1 → g.candidate cls estimate reloc n st = none) ∧
        (∀ p k b z, ¬ closed → 1 ≤ p → p ≤ st.depth → (∀ i, 1 ≤ i → i ≤ p → opened i) →
          p = st.depth ∨ ¬ opened (p + 1) → at' p = some (k, b) → g.zoneRecs.find st.zone = some z →
          let fit : Prop := (cls = .l → b.large = true) ∧ (reloc = false → b.swap = false)
          (fit → g.candidate cls estimate reloc n st = some (k, score reloc z b p)) ∧
          (¬ fit → g.candidate cls estimate reloc n st = none)))

/-- The blocking term (R52): the weight times the sum, over the cars in OCCUPIED bays deeper in the stack, of the
quarter hours by which the estimate lies after theirs, rounded up, at most 16 for each and 0 for one that lies no
later. Behind at most two bays it lies in 0 to 480. -/
def Obligations.BlockingTerm : Prop :=
  ∀ (g : Garage) (b : Bay) (estimate : Nat),
    g.weights.wB * g.blockedCars b estimate =
      g.weights.wB * ((g.bayRecs.filterMap fun kv =>
        if kv.2.stack = b.stack ∧ b.position < kv.2.position then
          match kv.2.occ with
          | .occupied n => (g.ticket n).map fun k =>
            let late : Int := (estimate : Int) - (k.estimate : Int)
            if 0 < late then (if 16 < (late.toNat + 14) / 15 then 16 else (late.toNat + 14) / 15) else 0
          | _ => none
        else none).sum) ∧
    ((g.bayRecs.filter fun kv => kv.2.stack == b.stack && decide (b.position < kv.2.position)).length ≤ 2 →
      g.blockedCars b estimate ≤ 32 ∧ (g.weights.wB ≤ 15 → g.weights.wB * g.blockedCars b estimate ≤ 480))

/-- The depth term (R53): the distance from the position that the stay ahead suits, by the two thresholds, lowered
to the depth of the stack; it is 0 when the car lands there, and at most 30 for a weight up to 15 and a position
up to 3. -/
def Obligations.DepthTerm : Prop :=
  ∀ (g : Garage) (estimate depth position : Nat), 1 ≤ depth → 1 ≤ position → position ≤ 3 → g.weights.wD ≤ 15 →
    let late : Int := (estimate : Int) - (g.minute : Int)
    let stay := if late < 0 then 0 else late.toNat
    let q := if stay < g.limits.t1 then 1 else if stay < g.limits.t2 then 2 else 3
    let suited := if depth < q then depth else q
    g.suited estimate depth = suited ∧
    (g.weights.wD : Int) * |(position : Int) - (suited : Int)|
      = (g.weights.wD * distance position (g.suited estimate depth) : Nat) ∧
    (position = suited → g.weights.wD * distance position (g.suited estimate depth) = 0) ∧
    g.weights.wD * distance position (g.suited estimate depth) ≤ 30 ∧
    (estimate ≤ g.minute → 1 ≤ g.limits.t1 → g.suited estimate depth = 1)

/-! ### The work that an event sets off -/

/-- The loss of a lift: a READY or NOT_READY lift goes OFFLINE, its tenure holder is cleared, a convoy block under
it ends, and the plan on it ends: its unused reservations and its slot are released, and its target returns to the
queue or to its convoy list where its number falls, or becomes PARKED when it carries the cancel mark. A lift in
any other state keeps it (R105, R119, R120, R126, R143, R154). -/
def Obligations.LiftLost : Prop :=
  ∀ (g : Garage) (l : Lift),
    let u := g.lift l
    let told : Garage := match u.tenure with
      | some (.channel c) => g.modChan c fun ch => { ch with blockCount := 0, blockLevel := none }
      | _ => g
    let stopped := told.modLift l fun u => { u with state := .offline, tenure := none }
    (u.state ≠ .ready → u.state ≠ .notReady → g.loseLift l = g) ∧
    (u.state = .ready ∨ u.state = .notReady →
      (u.plan = none → g.loseLift l = stopped.modLift l fun u => { u with reorder := none }) ∧
      (∀ p t, u.plan = some p → g.ticket p.target = some t →
        let released := (p.relocs.filter fun r => !r.done).foldl (fun k r => k.release r.dest r.blocker) stopped
        let freed := if p.slot then released.modLift l fun u => { u with
          reserved := u.reserved - 1, waiting := u.waiting.map fun w => { w with stamp := some g.seconds } } else released
        let ended := freed.modLift l fun u => { u with plan := none, reorder := none }
        (t.cancelMark = true → g.loseLift l = { ended with
          queue := ended.queue.filter fun e => e.ticket != p.target
          chan0 := { ended.chan0 with list := ended.chan0.list.filter (· != p.target) }
          chan1 := { ended.chan1 with list := ended.chan1.list.filter (· != p.target) }
          tickets := ended.tickets.adjust p.target fun t => { t with
            state := .parked, seq := none, priority := none, convoy := none, hold := false, resumePending := false
            phase := none, cancelMark := false, blocked := false, place := false, holdTimer := none
            measure := t.measure.map fun m => { m with waitMark := none } } }) ∧
        (t.cancelMark = false → t.convoy = none →
          let back := ended.modTicket p.target fun t => { t with
            state := .queued, phase := none, blocked := false, hold := t.hold && !t.resumePending, resumePending := false }
          g.loseLift l = { back with queue := insertBy (fun e => back.seqOf e.ticket) ⟨p.target, none⟩ back.queue }) ∧
        (∀ c, t.cancelMark = false → t.convoy = some c →
          let back := ended.modTicket p.target fun t => { t with state := .queued, phase := none, blocked := false }
          g.loseLift l = back.modChan c fun ch => { ch with list := insertBy back.seqOf p.target ch.list })))

/-- The next request sequence number and the next ready sequence number: the counter's value, which rises by one;
before 4,294,967,295 is dealt, every ticket that holds a number is numbered anew from 1 in the order of the
present numbers, and the number dealt follows theirs. A RETRIEVE and an entry into READY take the number so dealt
(R65, R99, R102; that the reply to the RETRIEVE shows QUEUED and the place at the tail, composed before the arbiters
run in the same event, is the model's choice, log 21). -/
def Obligations.NumbersDealtAnew : Prop :=
  ∀ g : Garage, g.tickets.rising = true →
    let place (l : List Nat) (n : Nat) : Nat := ((l.findIdx? fun m => m == n).map fun i => i + 1).getD 0
    let inOrder (l : List Nat) (number : Ticket → Option Nat) : Prop :=
      l.Nodup ∧ (∀ n, n ∈ l ↔ ∃ t, g.ticket n = some t ∧ (number t).isSome = true) ∧
      l.Pairwise fun a b => ((g.ticket a).bind number).getD 0 ≤ ((g.ticket b).bind number).getD 0
    let requests := g.seqOrder
    let readies := g.readyOrder
    inOrder requests Ticket.seq ∧ inOrder readies Ticket.readySeq ∧
    (g.requestCounter ≠ 4294967295 →
      g.takeSeq = ({ g with requestCounter := g.requestCounter + 1 }, g.requestCounter)) ∧
    (g.requestCounter = 4294967295 →
      g.takeSeq.2 = requests.length + 1 ∧
      g.takeSeq.1 = { g with requestCounter := requests.length + 2, tickets := g.takeSeq.1.tickets } ∧
      ∀ n, g.takeSeq.1.ticket n = (g.ticket n).map fun t =>
        { t with seq := t.seq.map fun _ => place requests n }) ∧
    (g.readyCounter ≠ 4294967295 →
      g.takeReadySeq = ({ g with readyCounter := g.readyCounter + 1 }, g.readyCounter)) ∧
    (g.readyCounter = 4294967295 →
      g.takeReadySeq.2 = readies.length + 1 ∧
      g.takeReadySeq.1 = { g with readyCounter := readies.length + 2, tickets := g.takeReadySeq.1.tickets } ∧
      ∀ n, g.takeReadySeq.1.ticket n = (g.ticket n).map fun t =>
        { t with readySeq := t.readySeq.map fun _ => place readies n }) ∧
    (∀ n loc t out, g.ticket n = some t → g.readyCounter = 4294967295 →
      let k := (enterReady n loc ⟨g, out⟩).g
      k.readyCounter = readies.length + 2 ∧ (k.ticket n).bind Ticket.readySeq = some (readies.length + 1) ∧
      ∀ m, m ≠ n → (k.ticket m).bind Ticket.readySeq
        = ((g.ticket m).bind Ticket.readySeq).map fun _ => place readies m) ∧
    (∀ (s : State) (st : Station) (flags : Byte) (pl : List Byte) (t : Ticket), s.garage = g →
      AskedBy s st .podium ∨ AskedBy s st .desk → g.mode = .service → pl.length = 4 → u16 pl 0 ≠ 0 →
      g.ticket (u16 pl 0) = some t → t.state = .parked → g.placesHeld < 64 → g.requestCounter = 4294967295 →
      let prio := if bit8 pl 3 1 then min (u8 pl 2) 7 else t.defaultPriority
      ∃ k, Replies (exec (.retrieve .s flags pl) s) s st k Kind.retrieve .taken
        (w16 (u16 pl 0) ++ [4] ++ w32 (requests.length + 1) ++ w8 prio ++ wFlag (bit8 pl 3 0) ++ w8 (g.queue.length + 1)))

/-- Eligibility and its stamps: a queue entry keeps or takes its stamp while no bay in front of its ticket's bay
is RESERVED, no car in front is in CHECK, the ticket is not BLOCKED and it passes the floor test, and loses it
otherwise. The lead of a RUNNING channel is the first ticket in its list for which the first three hold, and no
other channel has one. Its request stands, on the lead's lift and with its stamp while it stays there, when it
holds no tenure and passes the floor test. Both are determined anew before each piece of work that an event sets
off (R106, R107, R150). -/
def Obligations.Eligibility : Prop :=
  ∀ g : Garage,
    let ready := (g.tickets.filter fun x => x.2.state == .ready || x.2.state == .outbound).length
    let floor (level : Nat) : Prop := ready < g.podiumLimit ∨ g.floor ≤ level
    let free (n : Nat) (t : Ticket) : Prop := g.ticket n = some t ∧ t.blocked = false ∧ ∃ k b, t.bay = some k ∧
      g.bay k = some b ∧ ∀ x ∈ g.bayRecs, x.2.stack = b.stack → 1 ≤ x.2.position → x.2.position < b.position →
        (∀ m, x.2.occ ≠ .reserved m) ∧
        ∀ m car, x.2.occ = .occupied m → g.ticket m = some car → car.state ≠ .check
    let waits (n : Nat) : Prop := ∃ t, free n t ∧ floor (t.priority.getD 0)
    (g.restamp = { g with queue := g.restamp.queue } ∧ g.restamp.queue.length = g.queue.length ∧
      ∀ (i : Nat) (e : Entry), g.queue[i]? = some e → ∃ e' : Entry, g.restamp.queue[i]? = some e' ∧ e'.ticket = e.ticket ∧
        (waits e.ticket → e'.stamp = some (e.stamp.getD g.seconds)) ∧ (¬ waits e.ticket → e'.stamp = none)) ∧
    (∀ c : Chan,
      let ch := g.chan c
      (ch.state ≠ .running → g.lead c = none) ∧
      (ch.state = .running →
        (∀ n, g.lead c = some n ↔ ∃ a b, ch.list = a ++ n :: b ∧ (∃ t, free n t) ∧ ∀ m ∈ a, ¬ ∃ t, free m t) ∧
        (g.lead c = none ↔ ∀ n ∈ ch.list, ¬ ∃ t, free n t)) ∧
      (∀ n l, g.lead c = some n → g.liftOfTicket n = some l → g.tenureOf c = none → floor ch.level →
        g.rerequest c = g.modChan c fun ch => { ch with
          request := some (l, (match ch.request with
            | some (k, stamp) => (if k = l then stamp else g.seconds)
            | none => g.seconds)) }) ∧
      (g.lead c = none ∨ g.tenureOf c ≠ none ∨ ¬ floor ch.level →
        g.rerequest c = g.modChan c fun ch => { ch with request := none })) ∧
    (∀ out fuel, settleWith (fuel + 1) ⟨g, out⟩ =
      let k := (g.restamp.rerequest .c0).rerequest .c1
      match nextWork fuel ⟨k, out⟩ with
      | some e => settleWith fuel e
      | none => ⟨k, out⟩)

/-- Building a plan: the frontmost car in front of the winner that is QUEUED and not BLOCKED is promoted in its
place. The cars in front of the target, front first, are given relocation bays by the allocator, each seeing those
before it; the build fails at one that is RETRIEVING or has no bay. Built, the target is RETRIEVING, out of its
queue or list, and its plan stands on the lift at the winner's level; failed, nothing is reserved and the ticket
is BLOCKED with ALERT RETRIEVAL_BLOCKED, and for a convoy member CONVOY_SKIP, unless it was BLOCKED before (R105,
R109, R127 to R129, R153). -/
def Obligations.PlanBuilt : Prop :=
  ∀ (l : Lift) (winner level : Nat) (e : Ev) (w : Ticket) (wk : Nat) (wb : Bay),
    let g := e.g
    g.ticket winner = some w → w.bay = some wk → g.bay wk = some wb →
    let cars (b : Bay) : List (Nat × Nat) := (List.range (b.position - 1)).flatMap fun i =>
      g.bayRecs.filterMap fun x => if x.2.stack = b.stack ∧ x.2.position = i + 1 then
        (match x.2.occ with | .occupied t => some (x.1, t) | _ => none) else none
    let promotable (n : Nat) : Prop := ∃ t, g.ticket n = some t ∧ t.state = .queued ∧ t.blocked = false
    ((∀ x ∈ cars wb, ¬ promotable x.2) → g.promoted winner = winner) ∧
    (∀ a x rest, cars wb = a ++ x :: rest → promotable x.2 → (∀ y ∈ a, ¬ promotable y.2) →
      g.promoted winner = x.2) ∧
    (∀ n t k b, g.promoted winner = n → g.ticket n = some t → t.bay = some k → g.bay k = some b →
      let zone := ((g.stackRecs.find b.stack).map Stack.zone).getD 0
      let place (acc : Except Nat (Garage × List Reloc)) (x : Nat × Nat) : Except Nat (Garage × List Reloc) :=
        match acc with
        | .error m => .error m
        | .ok (h, rs) =>
          match h.ticket x.2 with
          | none => .error x.2
          | some car =>
            if car.state = .retrieving then .error x.2
            else match h.choose (.relocation zone b.stack) car.cls car.estimate with
              | none => .error x.2
              | some (d, _) => .ok (h.modBay d fun y => { y with occ := .reserved x.2 }, rs ++ [⟨x.2, x.1, d, false⟩])
      (∀ h rs, (cars b).foldl place (.ok (g, [])) = .ok (h, rs) →
        let left : Garage := { h with
          queue := h.queue.filter fun y => y.ticket != n
          chan0 := { h.chan0 with list := h.chan0.list.filter (· != n) }
          chan1 := { h.chan1 with list := h.chan1.list.filter (· != n) }
          tickets := h.tickets.adjust n fun t => { t with
            state := .retrieving, phase := if rs = [] then none else some .relocating, blocked := false } }
        buildPlan l winner level e = (⟨left.modLift l fun u => { u with
          plan := some ⟨n, level, rs, false, none⟩, reorder := none }, e.out⟩, true)) ∧
      (∀ m, (cars b).foldl place (.ok (g, [])) = .error m →
        (t.blocked = true → buildPlan l winner level e = (e, false)) ∧
        (t.blocked = false →
          let alert (kind : Nat) (args : List Byte) : Out := ⟨.role .office, Kind.alert, w8 kind ++ w32 g.seconds ++ args, .plain⟩
          buildPlan l winner level e = (⟨g.modTicket n fun t => { t with blocked := true },
            e.out ++ [alert 6 (w16 n ++ w16 m ++ w8 zone)] ++ (match t.convoy with
              | some c => [alert 14 (w8 (chanCode c) ++ w16 n ++ w8 zone)]
              | none => [])⟩, false))))

/-- The order of a move, and the steps of a plan. To order a move: its record with the next move number, the
number advanced from 255 to 1, the lift MOVING, and MOVE_ORDER for its station. The holder of a READY lift with a
plan takes its next step: the next relocation not yet completed; then the hold point, where a single retrieval
with the hold flag and no release is HELD with its hold timer started and gives up a tenure of its own, and one
with a release loses both flags and goes on; then the lane, whose free slot is reserved as the final move is
ordered, or which is waited for with the tenure released and a convoy block ended. A holder that has a refused
move to order again orders it first, under a new number: a PARK move's ticket is PARKING again and the tenure is
released, as it is with the final move of a plan that holds it in its own right (R125, R130 to R132, R135, R138,
R143, R152, R182). -/
def Obligations.PlanSteps : Prop :=
  ∀ (l : Lift) (e : Ev),
    let g := e.g
    let orders (k : Ev) (m : Move) : Ev :=
      let number := (k.g.lift l).nextNumber
      ⟨k.g.modLift l fun u => { u with
          state := .moving, inFlight := some { m with number := number }, reorder := none
          nextNumber := if u.nextNumber < 255 then u.nextNumber + 1 else 1 },
        k.out ++ [⟨.role (match l with | .a => .liftA | .b => .liftB), Kind.moveOrder,
          w8 number ++ w8 (locationCode m.source) ++ w16 (locationBay m.source) ++ w8 (locationCode m.dest)
            ++ w16 (locationBay m.dest) ++ w32 m.tag, .moveOrder l number⟩]⟩
    let own (u : LiftUnit) : Option Holder := if u.tenure = some .plan then none else u.tenure
    (∀ m, order l m e = orders e m) ∧
    (∀ h m, (g.lift l).state = .ready → (g.lift l).tenure = some h → (g.lift l).reorder = some m →
      holderWork l e = some (orders ⟨(match m.kind with
        | .park => (g.modTicket m.ticket fun t => { t with state := .parking }).modLift l fun u => { u with tenure := none }
        | .final => g.modLift l fun u => { u with tenure := own u }
        | .relocation => g), e.out⟩ m)) ∧
    (∀ h p, (g.lift l).state = .ready → (g.lift l).tenure = some h → (g.lift l).reorder = none →
      (g.lift l).plan = some p → holderWork l e = some (planStep l p e)) ∧
    (∀ p t bay, g.ticket p.target = some t → t.bay = some bay →
      (∀ a r b car, p.relocs = a ++ r :: b → (∀ x ∈ a, x.done = true) → r.done = false →
        g.ticket r.blocker = some car →
        planStep l p e
          = orders e ⟨0, .relocation, r.blocker, car.tag, .bay r.source, .bay r.dest, some p.target⟩) ∧
      ((∀ r ∈ p.relocs, r.done = true) →
        let goes (k : Garage) : Ev :=
          if (k.lift l).lane.length + (k.lift l).reserved < (k.lift l).laneCapacity then
            orders ⟨(k.modTicket p.target fun t => { t with phase := some .final }).modLift l fun u => { u with
                reserved := u.reserved + 1, plan := some { p with slot := true, stamp := none }, tenure := own u }, e.out⟩
              ⟨0, .final, p.target, t.tag, .bay bay, .lane l, some p.target⟩
          else
            let ended := match (k.lift l).tenure with
              | some (.channel c) => k.modChan c fun ch => { ch with blockCount := 0, blockLevel := none }
              | _ => k
            ⟨(ended.modTicket p.target fun t => { t with phase := some .waitLane }).modLift l fun u => { u with
              plan := none, tenure := none, waiting := u.waiting ++ [{ p with slot := false, stamp := none }] }, e.out⟩
        (t.convoy = none → t.hold = true → t.resumePending = false →
          planStep l p e = ⟨(g.modTicket p.target fun t => { t with
              state := .held, phase := none, holdTimer := some g.holdPeriod }).modLift l fun u => { u with
            plan := none, tenure := own u }, e.out⟩) ∧
        (t.convoy = none → t.hold = true → t.resumePending = true →
          planStep l p e = goes (g.modTicket p.target fun t => { t with hold := false, resumePending := false })) ∧
        (t.convoy ≠ none ∨ t.hold = false → planStep l p e = goes g)))

/-- A convoy block. A channel that is granted a lift holds its tenure, its request lapses, and its block count is
0 with no level. Each block step, on a READY lift whose tenure the channel holds with no plan on it: the block
ends and the tenure is released when the count has reached B, when the channel has no lead, as one that is not
RUNNING has none, when the lead lies on the other lift, or on another level than the block's; otherwise the plan
of the lead, or of a car promoted in its place, is built, and the count rises by one, the first plan setting the
level; a build that fails leaves the tenure and the counts. A channel that is not IDLE and has no member left
enters IDLE, with CONVOY_DONE and its delivered count when it had been started, and the other channel starts if it
was HELD_BACK; this is the next work once no lift's holder has any (R127, R145, R149 to R153, R155; what an IDLE
channel shows is log 23, that it keeps the count and level of a block under a tenure still held, and goes on with them
when it is started again, is log 17, the order of the work is log 13; which of two channels ends first in one event is a
free value, log 35). -/
def Obligations.BlockSteps : Prop :=
  ∀ (l : Lift) (c : Chan) (e : Ev),
    let g := e.g
    let ch := g.chan c
    let ends : Ev := ⟨(g.modChan c fun ch => { ch with blockCount := 0, blockLevel := none }).modLift l fun u =>
      { u with tenure := none }, e.out⟩
    (∀ b : Bid, b.who = .channel c → grant l b e = ⟨(g.modChan c fun ch => { ch with
      blockCount := 0, blockLevel := none, request := none }).modLift l fun u =>
        { u with tenure := some (.channel c) }, e.out⟩) ∧
    ((g.lift l).state = .ready → (g.lift l).tenure = some (.channel c) → (g.lift l).reorder = none →
      (g.lift l).plan = none → holderWork l e = some (blockStep l c e)) ∧
    (ch.state ≠ .running → blockStep l c e = ends) ∧
    (ch.blockLength ≤ ch.blockCount → blockStep l c e = ends) ∧
    (g.lead c = none → blockStep l c e = ends) ∧
    (∀ n t k b s z, g.lead c = some n → g.ticket n = some t → t.bay = some k → g.bay k = some b →
      g.stackRecs.find b.stack = some s → g.zoneRecs.find s.zone = some z →
      (z.lift ≠ l → blockStep l c e = ends) ∧
      (∀ level, ch.blockLevel = some level → level ≠ z.level → blockStep l c e = ends) ∧
      (ch.blockCount < ch.blockLength → z.lift = l → (ch.blockLevel = none ∨ ch.blockLevel = some z.level) →
        (∀ e', buildPlan l n ch.level e = (e', true) →
          blockStep l c e = ⟨e'.g.modChan c fun ch => { ch with
            blockCount := ch.blockCount + 1, blockLevel := some z.level }, e'.out⟩) ∧
        (∀ e', buildPlan l n ch.level e = (e', false) → blockStep l c e = e'))) ∧
    (let members := (g.tickets.filter fun x => x.2.convoy == some c).length
      let idled := (g.modChan c fun ch => { ch with
        state := .idle, blockLength := 1, level := 0, mix := false, request := none }).modChan (otherChan c) fun ch =>
          { ch with state := if ch.state = .heldBack then .running else ch.state }
      (ch.state = .idle ∨ 0 < members → channelDone c e = none) ∧
      (ch.state = .loaded → members = 0 → channelDone c e = some ⟨idled, e.out⟩) ∧
      (ch.state = .running ∨ ch.state = .heldBack → members = 0 → channelDone c e = some ⟨idled,
        e.out ++ [⟨.role .office, Kind.convoyDone, w8 (chanCode c) ++ w16 ch.delivered, .plain⟩]⟩) ∧
      (∀ fuel x, holderWork .a e = none → holderWork .b e = none → channelDone c e = some x →
        (channelDone (otherChan c) e = none → nextWork fuel e = some x) ∧
        (∀ y, channelDone (otherChan c) e = some y → nextWork fuel e = some x ∨ nextWork fuel e = some y)))

/-! ### Parts of statements about the lines -/

/-! ### Parts of statements about the blocks behind the ports -/

end
end

