-- ==== Sys2Proof/Laws/State.lean ====
section
/-! SUPPORT. One lemma per field per update of the state, each true by unfolding that one update. -/

namespace Sys2Proof.Machine

/-! ### Events in progress -/

@[simp] theorem Ev.emit_g (e : Ev) (o : Out) : (e.emit o).g = e.g := rfl
@[simp] theorem Ev.emit_out (e : Ev) (o : Out) : (e.emit o).out = e.out ++ [o] := rfl
@[simp] theorem Ev.modG_g (e : Ev) (f : Garage → Garage) : (e.modG f).g = f e.g := rfl
@[simp] theorem Ev.modG_out (e : Ev) (f : Garage → Garage) : (e.modG f).out = e.out := rfl
@[simp] theorem Ev.replyMarked_g (e : Ev) (c : Caller) (k : Byte) (r : Result) (d : List Byte) (m : Mark) :
    (e.replyMarked c k r d m).g = e.g := rfl
@[simp] theorem Ev.reply_g (e : Ev) (c : Caller) (k : Byte) (r : Result) (d : List Byte) : (e.reply c k r d).g = e.g := rfl
@[simp] theorem Ev.badRequest_g (e : Ev) (c : Caller) (k : Byte) (i : Nat) : (e.badRequest c k i).g = e.g := rfl
@[simp] theorem Ev.alert_g (e : Ev) (k : Nat) (a : List Byte) : (e.alert k a).g = e.g := rfl
@[simp] theorem Ev.reply_out (e : Ev) (c : Caller) (k : Byte) (r : Result) (d : List Byte) :
    (e.reply c k r d).out = e.out ++ [⟨.reply c.port c.station, Kind.reply, k :: w8 r.code ++ d, .plain⟩] := rfl
@[simp] theorem Ev.replyMarked_out (e : Ev) (c : Caller) (k : Byte) (r : Result) (d : List Byte) (m : Mark) :
    (e.replyMarked c k r d m).out = e.out ++ [⟨.reply c.port c.station, Kind.reply, k :: w8 r.code ++ d, m⟩] := rfl
@[simp] theorem Ev.badRequest_out (e : Ev) (c : Caller) (k : Byte) (i : Nat) :
    (e.badRequest c k i).out
      = e.out ++ [⟨.reply c.port c.station, Kind.reply, k :: w8 Result.badRequest.code ++ w8 i, .plain⟩] := rfl
@[simp] theorem Ev.alert_out (e : Ev) (k : Nat) (a : List Byte) :
    (e.alert k a).out = e.out ++ [⟨.role .office, Kind.alert, w8 k ++ w32 e.g.seconds ++ a, .plain⟩] := rfl

/-! ### modTicket -/

@[simp] theorem Garage.modTicket_mode (g : Garage) (n : Nat) (f : Ticket → Ticket) : (g.modTicket n f).mode = g.mode := rfl
@[simp] theorem Garage.modTicket_zoneRecs (g : Garage) (n : Nat) (f : Ticket → Ticket) : (g.modTicket n f).zoneRecs = g.zoneRecs := rfl
@[simp] theorem Garage.modTicket_stackRecs (g : Garage) (n : Nat) (f : Ticket → Ticket) : (g.modTicket n f).stackRecs = g.stackRecs := rfl
@[simp] theorem Garage.modTicket_bayRecs (g : Garage) (n : Nat) (f : Ticket → Ticket) : (g.modTicket n f).bayRecs = g.bayRecs := rfl
@[simp] theorem Garage.modTicket_weights (g : Garage) (n : Nat) (f : Ticket → Ticket) : (g.modTicket n f).weights = g.weights := rfl
@[simp] theorem Garage.modTicket_limits (g : Garage) (n : Nat) (f : Ticket → Ticket) : (g.modTicket n f).limits = g.limits := rfl
@[simp] theorem Garage.modTicket_readyCounter (g : Garage) (n : Nat) (f : Ticket → Ticket) : (g.modTicket n f).readyCounter = g.readyCounter := rfl
@[simp] theorem Garage.modTicket_cabinetSize (g : Garage) (n : Nat) (f : Ticket → Ticket) : (g.modTicket n f).cabinetSize = g.cabinetSize := rfl
@[simp] theorem Garage.modTicket_rangeA (g : Garage) (n : Nat) (f : Ticket → Ticket) : (g.modTicket n f).rangeA = g.rangeA := rfl
@[simp] theorem Garage.modTicket_rangeB (g : Garage) (n : Nat) (f : Ticket → Ticket) : (g.modTicket n f).rangeB = g.rangeB := rfl
@[simp] theorem Garage.modTicket_rangeO (g : Garage) (n : Nat) (f : Ticket → Ticket) : (g.modTicket n f).rangeO = g.rangeO := rfl
@[simp] theorem Garage.modTicket_hooks (g : Garage) (n : Nat) (f : Ticket → Ticket) : (g.modTicket n f).hooks = g.hooks := rfl
@[simp] theorem Garage.modTicket_queue (g : Garage) (n : Nat) (f : Ticket → Ticket) : (g.modTicket n f).queue = g.queue := rfl
@[simp] theorem Garage.modTicket_requestCounter (g : Garage) (n : Nat) (f : Ticket → Ticket) : (g.modTicket n f).requestCounter = g.requestCounter := rfl
@[simp] theorem Garage.modTicket_floor (g : Garage) (n : Nat) (f : Ticket → Ticket) : (g.modTicket n f).floor = g.floor := rfl
@[simp] theorem Garage.modTicket_podiumLimit (g : Garage) (n : Nat) (f : Ticket → Ticket) : (g.modTicket n f).podiumLimit = g.podiumLimit := rfl
@[simp] theorem Garage.modTicket_parkLevel (g : Garage) (n : Nat) (f : Ticket → Ticket) : (g.modTicket n f).parkLevel = g.parkLevel := rfl
@[simp] theorem Garage.modTicket_liftA (g : Garage) (n : Nat) (f : Ticket → Ticket) : (g.modTicket n f).liftA = g.liftA := rfl
@[simp] theorem Garage.modTicket_liftB (g : Garage) (n : Nat) (f : Ticket → Ticket) : (g.modTicket n f).liftB = g.liftB := rfl
@[simp] theorem Garage.modTicket_chan0 (g : Garage) (n : Nat) (f : Ticket → Ticket) : (g.modTicket n f).chan0 = g.chan0 := rfl
@[simp] theorem Garage.modTicket_chan1 (g : Garage) (n : Nat) (f : Ticket → Ticket) : (g.modTicket n f).chan1 = g.chan1 := rfl
@[simp] theorem Garage.modTicket_runners (g : Garage) (n : Nat) (f : Ticket → Ticket) : (g.modTicket n f).runners = g.runners := rfl
@[simp] theorem Garage.modTicket_freeList (g : Garage) (n : Nat) (f : Ticket → Ticket) : (g.modTicket n f).freeList = g.freeList := rfl
@[simp] theorem Garage.modTicket_waitList (g : Garage) (n : Nat) (f : Ticket → Ticket) : (g.modTicket n f).waitList = g.waitList := rfl
@[simp] theorem Garage.modTicket_seconds (g : Garage) (n : Nat) (f : Ticket → Ticket) : (g.modTicket n f).seconds = g.seconds := rfl
@[simp] theorem Garage.modTicket_minute (g : Garage) (n : Nat) (f : Ticket → Ticket) : (g.modTicket n f).minute = g.minute := rfl
@[simp] theorem Garage.modTicket_secsIntoMinute (g : Garage) (n : Nat) (f : Ticket → Ticket) : (g.modTicket n f).secsIntoMinute = g.secsIntoMinute := rfl
@[simp] theorem Garage.modTicket_movePeriod (g : Garage) (n : Nat) (f : Ticket → Ticket) : (g.modTicket n f).movePeriod = g.movePeriod := rfl
@[simp] theorem Garage.modTicket_pickupPeriod (g : Garage) (n : Nat) (f : Ticket → Ticket) : (g.modTicket n f).pickupPeriod = g.pickupPeriod := rfl
@[simp] theorem Garage.modTicket_holdPeriod (g : Garage) (n : Nat) (f : Ticket → Ticket) : (g.modTicket n f).holdPeriod = g.holdPeriod := rfl
@[simp] theorem Garage.modTicket_measuring (g : Garage) (n : Nat) (f : Ticket → Ticket) : (g.modTicket n f).measuring = g.measuring := rfl

/-! ### modBay -/

@[simp] theorem Garage.modBay_mode (g : Garage) (n : Nat) (f : Bay → Bay) : (g.modBay n f).mode = g.mode := rfl
@[simp] theorem Garage.modBay_zoneRecs (g : Garage) (n : Nat) (f : Bay → Bay) : (g.modBay n f).zoneRecs = g.zoneRecs := rfl
@[simp] theorem Garage.modBay_stackRecs (g : Garage) (n : Nat) (f : Bay → Bay) : (g.modBay n f).stackRecs = g.stackRecs := rfl
@[simp] theorem Garage.modBay_weights (g : Garage) (n : Nat) (f : Bay → Bay) : (g.modBay n f).weights = g.weights := rfl
@[simp] theorem Garage.modBay_limits (g : Garage) (n : Nat) (f : Bay → Bay) : (g.modBay n f).limits = g.limits := rfl
@[simp] theorem Garage.modBay_tickets (g : Garage) (n : Nat) (f : Bay → Bay) : (g.modBay n f).tickets = g.tickets := rfl
@[simp] theorem Garage.modBay_readyCounter (g : Garage) (n : Nat) (f : Bay → Bay) : (g.modBay n f).readyCounter = g.readyCounter := rfl
@[simp] theorem Garage.modBay_cabinetSize (g : Garage) (n : Nat) (f : Bay → Bay) : (g.modBay n f).cabinetSize = g.cabinetSize := rfl
@[simp] theorem Garage.modBay_rangeA (g : Garage) (n : Nat) (f : Bay → Bay) : (g.modBay n f).rangeA = g.rangeA := rfl
@[simp] theorem Garage.modBay_rangeB (g : Garage) (n : Nat) (f : Bay → Bay) : (g.modBay n f).rangeB = g.rangeB := rfl
@[simp] theorem Garage.modBay_rangeO (g : Garage) (n : Nat) (f : Bay → Bay) : (g.modBay n f).rangeO = g.rangeO := rfl
@[simp] theorem Garage.modBay_hooks (g : Garage) (n : Nat) (f : Bay → Bay) : (g.modBay n f).hooks = g.hooks := rfl
@[simp] theorem Garage.modBay_queue (g : Garage) (n : Nat) (f : Bay → Bay) : (g.modBay n f).queue = g.queue := rfl
@[simp] theorem Garage.modBay_requestCounter (g : Garage) (n : Nat) (f : Bay → Bay) : (g.modBay n f).requestCounter = g.requestCounter := rfl
@[simp] theorem Garage.modBay_floor (g : Garage) (n : Nat) (f : Bay → Bay) : (g.modBay n f).floor = g.floor := rfl
@[simp] theorem Garage.modBay_podiumLimit (g : Garage) (n : Nat) (f : Bay → Bay) : (g.modBay n f).podiumLimit = g.podiumLimit := rfl
@[simp] theorem Garage.modBay_parkLevel (g : Garage) (n : Nat) (f : Bay → Bay) : (g.modBay n f).parkLevel = g.parkLevel := rfl
@[simp] theorem Garage.modBay_liftA (g : Garage) (n : Nat) (f : Bay → Bay) : (g.modBay n f).liftA = g.liftA := rfl
@[simp] theorem Garage.modBay_liftB (g : Garage) (n : Nat) (f : Bay → Bay) : (g.modBay n f).liftB = g.liftB := rfl
@[simp] theorem Garage.modBay_chan0 (g : Garage) (n : Nat) (f : Bay → Bay) : (g.modBay n f).chan0 = g.chan0 := rfl
@[simp] theorem Garage.modBay_chan1 (g : Garage) (n : Nat) (f : Bay → Bay) : (g.modBay n f).chan1 = g.chan1 := rfl
@[simp] theorem Garage.modBay_runners (g : Garage) (n : Nat) (f : Bay → Bay) : (g.modBay n f).runners = g.runners := rfl
@[simp] theorem Garage.modBay_freeList (g : Garage) (n : Nat) (f : Bay → Bay) : (g.modBay n f).freeList = g.freeList := rfl
@[simp] theorem Garage.modBay_waitList (g : Garage) (n : Nat) (f : Bay → Bay) : (g.modBay n f).waitList = g.waitList := rfl
@[simp] theorem Garage.modBay_seconds (g : Garage) (n : Nat) (f : Bay → Bay) : (g.modBay n f).seconds = g.seconds := rfl
@[simp] theorem Garage.modBay_minute (g : Garage) (n : Nat) (f : Bay → Bay) : (g.modBay n f).minute = g.minute := rfl
@[simp] theorem Garage.modBay_secsIntoMinute (g : Garage) (n : Nat) (f : Bay → Bay) : (g.modBay n f).secsIntoMinute = g.secsIntoMinute := rfl
@[simp] theorem Garage.modBay_movePeriod (g : Garage) (n : Nat) (f : Bay → Bay) : (g.modBay n f).movePeriod = g.movePeriod := rfl
@[simp] theorem Garage.modBay_pickupPeriod (g : Garage) (n : Nat) (f : Bay → Bay) : (g.modBay n f).pickupPeriod = g.pickupPeriod := rfl
@[simp] theorem Garage.modBay_holdPeriod (g : Garage) (n : Nat) (f : Bay → Bay) : (g.modBay n f).holdPeriod = g.holdPeriod := rfl
@[simp] theorem Garage.modBay_measuring (g : Garage) (n : Nat) (f : Bay → Bay) : (g.modBay n f).measuring = g.measuring := rfl

/-! ### modHook -/

@[simp] theorem Garage.modHook_mode (g : Garage) (n : Nat) (f : Hook → Hook) : (g.modHook n f).mode = g.mode := rfl
@[simp] theorem Garage.modHook_zoneRecs (g : Garage) (n : Nat) (f : Hook → Hook) : (g.modHook n f).zoneRecs = g.zoneRecs := rfl
@[simp] theorem Garage.modHook_stackRecs (g : Garage) (n : Nat) (f : Hook → Hook) : (g.modHook n f).stackRecs = g.stackRecs := rfl
@[simp] theorem Garage.modHook_bayRecs (g : Garage) (n : Nat) (f : Hook → Hook) : (g.modHook n f).bayRecs = g.bayRecs := rfl
@[simp] theorem Garage.modHook_weights (g : Garage) (n : Nat) (f : Hook → Hook) : (g.modHook n f).weights = g.weights := rfl
@[simp] theorem Garage.modHook_limits (g : Garage) (n : Nat) (f : Hook → Hook) : (g.modHook n f).limits = g.limits := rfl
@[simp] theorem Garage.modHook_tickets (g : Garage) (n : Nat) (f : Hook → Hook) : (g.modHook n f).tickets = g.tickets := rfl
@[simp] theorem Garage.modHook_readyCounter (g : Garage) (n : Nat) (f : Hook → Hook) : (g.modHook n f).readyCounter = g.readyCounter := rfl
@[simp] theorem Garage.modHook_cabinetSize (g : Garage) (n : Nat) (f : Hook → Hook) : (g.modHook n f).cabinetSize = g.cabinetSize := rfl
@[simp] theorem Garage.modHook_rangeA (g : Garage) (n : Nat) (f : Hook → Hook) : (g.modHook n f).rangeA = g.rangeA := rfl
@[simp] theorem Garage.modHook_rangeB (g : Garage) (n : Nat) (f : Hook → Hook) : (g.modHook n f).rangeB = g.rangeB := rfl
@[simp] theorem Garage.modHook_rangeO (g : Garage) (n : Nat) (f : Hook → Hook) : (g.modHook n f).rangeO = g.rangeO := rfl
@[simp] theorem Garage.modHook_queue (g : Garage) (n : Nat) (f : Hook → Hook) : (g.modHook n f).queue = g.queue := rfl
@[simp] theorem Garage.modHook_requestCounter (g : Garage) (n : Nat) (f : Hook → Hook) : (g.modHook n f).requestCounter = g.requestCounter := rfl
@[simp] theorem Garage.modHook_floor (g : Garage) (n : Nat) (f : Hook → Hook) : (g.modHook n f).floor = g.floor := rfl
@[simp] theorem Garage.modHook_podiumLimit (g : Garage) (n : Nat) (f : Hook → Hook) : (g.modHook n f).podiumLimit = g.podiumLimit := rfl
@[simp] theorem Garage.modHook_parkLevel (g : Garage) (n : Nat) (f : Hook → Hook) : (g.modHook n f).parkLevel = g.parkLevel := rfl
@[simp] theorem Garage.modHook_liftA (g : Garage) (n : Nat) (f : Hook → Hook) : (g.modHook n f).liftA = g.liftA := rfl
@[simp] theorem Garage.modHook_liftB (g : Garage) (n : Nat) (f : Hook → Hook) : (g.modHook n f).liftB = g.liftB := rfl
@[simp] theorem Garage.modHook_chan0 (g : Garage) (n : Nat) (f : Hook → Hook) : (g.modHook n f).chan0 = g.chan0 := rfl
@[simp] theorem Garage.modHook_chan1 (g : Garage) (n : Nat) (f : Hook → Hook) : (g.modHook n f).chan1 = g.chan1 := rfl
@[simp] theorem Garage.modHook_runners (g : Garage) (n : Nat) (f : Hook → Hook) : (g.modHook n f).runners = g.runners := rfl
@[simp] theorem Garage.modHook_freeList (g : Garage) (n : Nat) (f : Hook → Hook) : (g.modHook n f).freeList = g.freeList := rfl
@[simp] theorem Garage.modHook_waitList (g : Garage) (n : Nat) (f : Hook → Hook) : (g.modHook n f).waitList = g.waitList := rfl
@[simp] theorem Garage.modHook_seconds (g : Garage) (n : Nat) (f : Hook → Hook) : (g.modHook n f).seconds = g.seconds := rfl
@[simp] theorem Garage.modHook_minute (g : Garage) (n : Nat) (f : Hook → Hook) : (g.modHook n f).minute = g.minute := rfl
@[simp] theorem Garage.modHook_secsIntoMinute (g : Garage) (n : Nat) (f : Hook → Hook) : (g.modHook n f).secsIntoMinute = g.secsIntoMinute := rfl
@[simp] theorem Garage.modHook_movePeriod (g : Garage) (n : Nat) (f : Hook → Hook) : (g.modHook n f).movePeriod = g.movePeriod := rfl
@[simp] theorem Garage.modHook_pickupPeriod (g : Garage) (n : Nat) (f : Hook → Hook) : (g.modHook n f).pickupPeriod = g.pickupPeriod := rfl
@[simp] theorem Garage.modHook_holdPeriod (g : Garage) (n : Nat) (f : Hook → Hook) : (g.modHook n f).holdPeriod = g.holdPeriod := rfl
@[simp] theorem Garage.modHook_measuring (g : Garage) (n : Nat) (f : Hook → Hook) : (g.modHook n f).measuring = g.measuring := rfl

/-! ### modRunner -/

@[simp] theorem Garage.modRunner_mode (g : Garage) (n : Nat) (f : Runner → Runner) : (g.modRunner n f).mode = g.mode := rfl
@[simp] theorem Garage.modRunner_zoneRecs (g : Garage) (n : Nat) (f : Runner → Runner) : (g.modRunner n f).zoneRecs = g.zoneRecs := rfl
@[simp] theorem Garage.modRunner_stackRecs (g : Garage) (n : Nat) (f : Runner → Runner) : (g.modRunner n f).stackRecs = g.stackRecs := rfl
@[simp] theorem Garage.modRunner_bayRecs (g : Garage) (n : Nat) (f : Runner → Runner) : (g.modRunner n f).bayRecs = g.bayRecs := rfl
@[simp] theorem Garage.modRunner_weights (g : Garage) (n : Nat) (f : Runner → Runner) : (g.modRunner n f).weights = g.weights := rfl
@[simp] theorem Garage.modRunner_limits (g : Garage) (n : Nat) (f : Runner → Runner) : (g.modRunner n f).limits = g.limits := rfl
@[simp] theorem Garage.modRunner_tickets (g : Garage) (n : Nat) (f : Runner → Runner) : (g.modRunner n f).tickets = g.tickets := rfl
@[simp] theorem Garage.modRunner_readyCounter (g : Garage) (n : Nat) (f : Runner → Runner) : (g.modRunner n f).readyCounter = g.readyCounter := rfl
@[simp] theorem Garage.modRunner_cabinetSize (g : Garage) (n : Nat) (f : Runner → Runner) : (g.modRunner n f).cabinetSize = g.cabinetSize := rfl
@[simp] theorem Garage.modRunner_rangeA (g : Garage) (n : Nat) (f : Runner → Runner) : (g.modRunner n f).rangeA = g.rangeA := rfl
@[simp] theorem Garage.modRunner_rangeB (g : Garage) (n : Nat) (f : Runner → Runner) : (g.modRunner n f).rangeB = g.rangeB := rfl
@[simp] theorem Garage.modRunner_rangeO (g : Garage) (n : Nat) (f : Runner → Runner) : (g.modRunner n f).rangeO = g.rangeO := rfl
@[simp] theorem Garage.modRunner_hooks (g : Garage) (n : Nat) (f : Runner → Runner) : (g.modRunner n f).hooks = g.hooks := rfl
@[simp] theorem Garage.modRunner_queue (g : Garage) (n : Nat) (f : Runner → Runner) : (g.modRunner n f).queue = g.queue := rfl
@[simp] theorem Garage.modRunner_requestCounter (g : Garage) (n : Nat) (f : Runner → Runner) : (g.modRunner n f).requestCounter = g.requestCounter := rfl
@[simp] theorem Garage.modRunner_floor (g : Garage) (n : Nat) (f : Runner → Runner) : (g.modRunner n f).floor = g.floor := rfl
@[simp] theorem Garage.modRunner_podiumLimit (g : Garage) (n : Nat) (f : Runner → Runner) : (g.modRunner n f).podiumLimit = g.podiumLimit := rfl
@[simp] theorem Garage.modRunner_parkLevel (g : Garage) (n : Nat) (f : Runner → Runner) : (g.modRunner n f).parkLevel = g.parkLevel := rfl
@[simp] theorem Garage.modRunner_liftA (g : Garage) (n : Nat) (f : Runner → Runner) : (g.modRunner n f).liftA = g.liftA := rfl
@[simp] theorem Garage.modRunner_liftB (g : Garage) (n : Nat) (f : Runner → Runner) : (g.modRunner n f).liftB = g.liftB := rfl
@[simp] theorem Garage.modRunner_chan0 (g : Garage) (n : Nat) (f : Runner → Runner) : (g.modRunner n f).chan0 = g.chan0 := rfl
@[simp] theorem Garage.modRunner_chan1 (g : Garage) (n : Nat) (f : Runner → Runner) : (g.modRunner n f).chan1 = g.chan1 := rfl
@[simp] theorem Garage.modRunner_freeList (g : Garage) (n : Nat) (f : Runner → Runner) : (g.modRunner n f).freeList = g.freeList := rfl
@[simp] theorem Garage.modRunner_waitList (g : Garage) (n : Nat) (f : Runner → Runner) : (g.modRunner n f).waitList = g.waitList := rfl
@[simp] theorem Garage.modRunner_seconds (g : Garage) (n : Nat) (f : Runner → Runner) : (g.modRunner n f).seconds = g.seconds := rfl
@[simp] theorem Garage.modRunner_minute (g : Garage) (n : Nat) (f : Runner → Runner) : (g.modRunner n f).minute = g.minute := rfl
@[simp] theorem Garage.modRunner_secsIntoMinute (g : Garage) (n : Nat) (f : Runner → Runner) : (g.modRunner n f).secsIntoMinute = g.secsIntoMinute := rfl
@[simp] theorem Garage.modRunner_movePeriod (g : Garage) (n : Nat) (f : Runner → Runner) : (g.modRunner n f).movePeriod = g.movePeriod := rfl
@[simp] theorem Garage.modRunner_pickupPeriod (g : Garage) (n : Nat) (f : Runner → Runner) : (g.modRunner n f).pickupPeriod = g.pickupPeriod := rfl
@[simp] theorem Garage.modRunner_holdPeriod (g : Garage) (n : Nat) (f : Runner → Runner) : (g.modRunner n f).holdPeriod = g.holdPeriod := rfl
@[simp] theorem Garage.modRunner_measuring (g : Garage) (n : Nat) (f : Runner → Runner) : (g.modRunner n f).measuring = g.measuring := rfl

/-! ### modLift -/

@[simp] theorem Garage.modLift_mode (g : Garage) (l : Lift) (f : LiftUnit → LiftUnit) : (g.modLift l f).mode = g.mode := by cases l <;> rfl
@[simp] theorem Garage.modLift_zoneRecs (g : Garage) (l : Lift) (f : LiftUnit → LiftUnit) : (g.modLift l f).zoneRecs = g.zoneRecs := by cases l <;> rfl
@[simp] theorem Garage.modLift_stackRecs (g : Garage) (l : Lift) (f : LiftUnit → LiftUnit) : (g.modLift l f).stackRecs = g.stackRecs := by cases l <;> rfl
@[simp] theorem Garage.modLift_bayRecs (g : Garage) (l : Lift) (f : LiftUnit → LiftUnit) : (g.modLift l f).bayRecs = g.bayRecs := by cases l <;> rfl
@[simp] theorem Garage.modLift_weights (g : Garage) (l : Lift) (f : LiftUnit → LiftUnit) : (g.modLift l f).weights = g.weights := by cases l <;> rfl
@[simp] theorem Garage.modLift_limits (g : Garage) (l : Lift) (f : LiftUnit → LiftUnit) : (g.modLift l f).limits = g.limits := by cases l <;> rfl
@[simp] theorem Garage.modLift_tickets (g : Garage) (l : Lift) (f : LiftUnit → LiftUnit) : (g.modLift l f).tickets = g.tickets := by cases l <;> rfl
@[simp] theorem Garage.modLift_readyCounter (g : Garage) (l : Lift) (f : LiftUnit → LiftUnit) : (g.modLift l f).readyCounter = g.readyCounter := by cases l <;> rfl
@[simp] theorem Garage.modLift_cabinetSize (g : Garage) (l : Lift) (f : LiftUnit → LiftUnit) : (g.modLift l f).cabinetSize = g.cabinetSize := by cases l <;> rfl
@[simp] theorem Garage.modLift_rangeA (g : Garage) (l : Lift) (f : LiftUnit → LiftUnit) : (g.modLift l f).rangeA = g.rangeA := by cases l <;> rfl
@[simp] theorem Garage.modLift_rangeB (g : Garage) (l : Lift) (f : LiftUnit → LiftUnit) : (g.modLift l f).rangeB = g.rangeB := by cases l <;> rfl
@[simp] theorem Garage.modLift_rangeO (g : Garage) (l : Lift) (f : LiftUnit → LiftUnit) : (g.modLift l f).rangeO = g.rangeO := by cases l <;> rfl
@[simp] theorem Garage.modLift_hooks (g : Garage) (l : Lift) (f : LiftUnit → LiftUnit) : (g.modLift l f).hooks = g.hooks := by cases l <;> rfl
@[simp] theorem Garage.modLift_queue (g : Garage) (l : Lift) (f : LiftUnit → LiftUnit) : (g.modLift l f).queue = g.queue := by cases l <;> rfl
@[simp] theorem Garage.modLift_requestCounter (g : Garage) (l : Lift) (f : LiftUnit → LiftUnit) : (g.modLift l f).requestCounter = g.requestCounter := by cases l <;> rfl
@[simp] theorem Garage.modLift_floor (g : Garage) (l : Lift) (f : LiftUnit → LiftUnit) : (g.modLift l f).floor = g.floor := by cases l <;> rfl
@[simp] theorem Garage.modLift_podiumLimit (g : Garage) (l : Lift) (f : LiftUnit → LiftUnit) : (g.modLift l f).podiumLimit = g.podiumLimit := by cases l <;> rfl
@[simp] theorem Garage.modLift_parkLevel (g : Garage) (l : Lift) (f : LiftUnit → LiftUnit) : (g.modLift l f).parkLevel = g.parkLevel := by cases l <;> rfl
@[simp] theorem Garage.modLift_chan0 (g : Garage) (l : Lift) (f : LiftUnit → LiftUnit) : (g.modLift l f).chan0 = g.chan0 := by cases l <;> rfl
@[simp] theorem Garage.modLift_chan1 (g : Garage) (l : Lift) (f : LiftUnit → LiftUnit) : (g.modLift l f).chan1 = g.chan1 := by cases l <;> rfl
@[simp] theorem Garage.modLift_runners (g : Garage) (l : Lift) (f : LiftUnit → LiftUnit) : (g.modLift l f).runners = g.runners := by cases l <;> rfl
@[simp] theorem Garage.modLift_freeList (g : Garage) (l : Lift) (f : LiftUnit → LiftUnit) : (g.modLift l f).freeList = g.freeList := by cases l <;> rfl
@[simp] theorem Garage.modLift_waitList (g : Garage) (l : Lift) (f : LiftUnit → LiftUnit) : (g.modLift l f).waitList = g.waitList := by cases l <;> rfl
@[simp] theorem Garage.modLift_seconds (g : Garage) (l : Lift) (f : LiftUnit → LiftUnit) : (g.modLift l f).seconds = g.seconds := by cases l <;> rfl
@[simp] theorem Garage.modLift_minute (g : Garage) (l : Lift) (f : LiftUnit → LiftUnit) : (g.modLift l f).minute = g.minute := by cases l <;> rfl
@[simp] theorem Garage.modLift_secsIntoMinute (g : Garage) (l : Lift) (f : LiftUnit → LiftUnit) : (g.modLift l f).secsIntoMinute = g.secsIntoMinute := by cases l <;> rfl
@[simp] theorem Garage.modLift_movePeriod (g : Garage) (l : Lift) (f : LiftUnit → LiftUnit) : (g.modLift l f).movePeriod = g.movePeriod := by cases l <;> rfl
@[simp] theorem Garage.modLift_pickupPeriod (g : Garage) (l : Lift) (f : LiftUnit → LiftUnit) : (g.modLift l f).pickupPeriod = g.pickupPeriod := by cases l <;> rfl
@[simp] theorem Garage.modLift_holdPeriod (g : Garage) (l : Lift) (f : LiftUnit → LiftUnit) : (g.modLift l f).holdPeriod = g.holdPeriod := by cases l <;> rfl
@[simp] theorem Garage.modLift_measuring (g : Garage) (l : Lift) (f : LiftUnit → LiftUnit) : (g.modLift l f).measuring = g.measuring := by cases l <;> rfl

/-! ### modChan -/

@[simp] theorem Garage.modChan_mode (g : Garage) (c : Chan) (f : Channel → Channel) : (g.modChan c f).mode = g.mode := by cases c <;> rfl
@[simp] theorem Garage.modChan_zoneRecs (g : Garage) (c : Chan) (f : Channel → Channel) : (g.modChan c f).zoneRecs = g.zoneRecs := by cases c <;> rfl
@[simp] theorem Garage.modChan_stackRecs (g : Garage) (c : Chan) (f : Channel → Channel) : (g.modChan c f).stackRecs = g.stackRecs := by cases c <;> rfl
@[simp] theorem Garage.modChan_bayRecs (g : Garage) (c : Chan) (f : Channel → Channel) : (g.modChan c f).bayRecs = g.bayRecs := by cases c <;> rfl
@[simp] theorem Garage.modChan_weights (g : Garage) (c : Chan) (f : Channel → Channel) : (g.modChan c f).weights = g.weights := by cases c <;> rfl
@[simp] theorem Garage.modChan_limits (g : Garage) (c : Chan) (f : Channel → Channel) : (g.modChan c f).limits = g.limits := by cases c <;> rfl
@[simp] theorem Garage.modChan_tickets (g : Garage) (c : Chan) (f : Channel → Channel) : (g.modChan c f).tickets = g.tickets := by cases c <;> rfl
@[simp] theorem Garage.modChan_readyCounter (g : Garage) (c : Chan) (f : Channel → Channel) : (g.modChan c f).readyCounter = g.readyCounter := by cases c <;> rfl
@[simp] theorem Garage.modChan_cabinetSize (g : Garage) (c : Chan) (f : Channel → Channel) : (g.modChan c f).cabinetSize = g.cabinetSize := by cases c <;> rfl
@[simp] theorem Garage.modChan_rangeA (g : Garage) (c : Chan) (f : Channel → Channel) : (g.modChan c f).rangeA = g.rangeA := by cases c <;> rfl
@[simp] theorem Garage.modChan_rangeB (g : Garage) (c : Chan) (f : Channel → Channel) : (g.modChan c f).rangeB = g.rangeB := by cases c <;> rfl
@[simp] theorem Garage.modChan_rangeO (g : Garage) (c : Chan) (f : Channel → Channel) : (g.modChan c f).rangeO = g.rangeO := by cases c <;> rfl
@[simp] theorem Garage.modChan_hooks (g : Garage) (c : Chan) (f : Channel → Channel) : (g.modChan c f).hooks = g.hooks := by cases c <;> rfl
@[simp] theorem Garage.modChan_queue (g : Garage) (c : Chan) (f : Channel → Channel) : (g.modChan c f).queue = g.queue := by cases c <;> rfl
@[simp] theorem Garage.modChan_requestCounter (g : Garage) (c : Chan) (f : Channel → Channel) : (g.modChan c f).requestCounter = g.requestCounter := by cases c <;> rfl
@[simp] theorem Garage.modChan_floor (g : Garage) (c : Chan) (f : Channel → Channel) : (g.modChan c f).floor = g.floor := by cases c <;> rfl
@[simp] theorem Garage.modChan_podiumLimit (g : Garage) (c : Chan) (f : Channel → Channel) : (g.modChan c f).podiumLimit = g.podiumLimit := by cases c <;> rfl
@[simp] theorem Garage.modChan_parkLevel (g : Garage) (c : Chan) (f : Channel → Channel) : (g.modChan c f).parkLevel = g.parkLevel := by cases c <;> rfl
@[simp] theorem Garage.modChan_liftA (g : Garage) (c : Chan) (f : Channel → Channel) : (g.modChan c f).liftA = g.liftA := by cases c <;> rfl
@[simp] theorem Garage.modChan_liftB (g : Garage) (c : Chan) (f : Channel → Channel) : (g.modChan c f).liftB = g.liftB := by cases c <;> rfl
@[simp] theorem Garage.modChan_runners (g : Garage) (c : Chan) (f : Channel → Channel) : (g.modChan c f).runners = g.runners := by cases c <;> rfl
@[simp] theorem Garage.modChan_freeList (g : Garage) (c : Chan) (f : Channel → Channel) : (g.modChan c f).freeList = g.freeList := by cases c <;> rfl
@[simp] theorem Garage.modChan_waitList (g : Garage) (c : Chan) (f : Channel → Channel) : (g.modChan c f).waitList = g.waitList := by cases c <;> rfl
@[simp] theorem Garage.modChan_seconds (g : Garage) (c : Chan) (f : Channel → Channel) : (g.modChan c f).seconds = g.seconds := by cases c <;> rfl
@[simp] theorem Garage.modChan_minute (g : Garage) (c : Chan) (f : Channel → Channel) : (g.modChan c f).minute = g.minute := by cases c <;> rfl
@[simp] theorem Garage.modChan_secsIntoMinute (g : Garage) (c : Chan) (f : Channel → Channel) : (g.modChan c f).secsIntoMinute = g.secsIntoMinute := by cases c <;> rfl
@[simp] theorem Garage.modChan_movePeriod (g : Garage) (c : Chan) (f : Channel → Channel) : (g.modChan c f).movePeriod = g.movePeriod := by cases c <;> rfl
@[simp] theorem Garage.modChan_pickupPeriod (g : Garage) (c : Chan) (f : Channel → Channel) : (g.modChan c f).pickupPeriod = g.pickupPeriod := by cases c <;> rfl
@[simp] theorem Garage.modChan_holdPeriod (g : Garage) (c : Chan) (f : Channel → Channel) : (g.modChan c f).holdPeriod = g.holdPeriod := by cases c <;> rfl
@[simp] theorem Garage.modChan_measuring (g : Garage) (c : Chan) (f : Channel → Channel) : (g.modChan c f).measuring = g.measuring := by cases c <;> rfl

/-! ### The named parts -/

@[simp] theorem Garage.modTicket_tickets (g : Garage) (n : Nat) (f : Ticket → Ticket) :
    (g.modTicket n f).tickets = g.tickets.adjust n f := rfl
@[simp] theorem Garage.modBay_bayRecs (g : Garage) (n : Nat) (f : Bay → Bay) :
    (g.modBay n f).bayRecs = g.bayRecs.adjust n f := rfl
@[simp] theorem Garage.modHook_hooks (g : Garage) (n : Nat) (f : Hook → Hook) :
    (g.modHook n f).hooks = g.hooks.adjust n f := rfl
@[simp] theorem Garage.modRunner_runners (g : Garage) (n : Nat) (f : Runner → Runner) :
    (g.modRunner n f).runners = g.runners.adjust n f := rfl
@[simp] theorem Garage.modLift_lift (g : Garage) (l : Lift) (f : LiftUnit → LiftUnit) :
    (g.modLift l f).lift l = f (g.lift l) := by cases l <;> rfl
theorem Garage.modLift_lift_other (g : Garage) (l k : Lift) (f : LiftUnit → LiftUnit) (h : k ≠ l) :
    (g.modLift l f).lift k = g.lift k := by cases l <;> cases k <;> first | rfl | exact absurd rfl h
@[simp] theorem Garage.modChan_chan (g : Garage) (c : Chan) (f : Channel → Channel) :
    (g.modChan c f).chan c = f (g.chan c) := by cases c <;> rfl
theorem Garage.modChan_chan_other (g : Garage) (c k : Chan) (f : Channel → Channel) (h : k ≠ c) :
    (g.modChan c f).chan k = g.chan k := by cases c <;> cases k <;> first | rfl | exact absurd rfl h
@[simp] theorem Garage.modChan_lift (g : Garage) (c : Chan) (f : Channel → Channel) (l : Lift) :
    (g.modChan c f).lift l = g.lift l := by cases c <;> cases l <;> rfl
@[simp] theorem Garage.modLift_chan (g : Garage) (c : Chan) (f : LiftUnit → LiftUnit) (l : Lift) :
    (g.modLift l f).chan c = g.chan c := by cases c <;> cases l <;> rfl
@[simp] theorem Garage.modTicket_lift (g : Garage) (n : Nat) (f : Ticket → Ticket) (l : Lift) :
    (g.modTicket n f).lift l = g.lift l := by cases l <;> rfl
@[simp] theorem Garage.modTicket_chan (g : Garage) (n : Nat) (f : Ticket → Ticket) (c : Chan) :
    (g.modTicket n f).chan c = g.chan c := by cases c <;> rfl
@[simp] theorem Garage.modBay_lift (g : Garage) (n : Nat) (f : Bay → Bay) (l : Lift) :
    (g.modBay n f).lift l = g.lift l := by cases l <;> rfl
@[simp] theorem Garage.modBay_chan (g : Garage) (n : Nat) (f : Bay → Bay) (c : Chan) :
    (g.modBay n f).chan c = g.chan c := by cases c <;> rfl

/-! ### Ports -/

@[simp] theorem Line.modPort_port (ln : Line) (p : Port) (f : PortState → PortState) :
    (ln.modPort p f).port p = f (ln.port p) := by cases p <;> rfl
theorem Line.modPort_port_other (ln : Line) (p q : Port) (f : PortState → PortState) (h : q ≠ p) :
    (ln.modPort p f).port q = ln.port q := by cases p <;> cases q <;> first | rfl | exact absurd rfl h
@[simp] theorem Line.modPort_passTable (ln : Line) (p : Port) (f : PortState → PortState) :
    (ln.modPort p f).passTable = ln.passTable := by cases p <;> rfl
@[simp] theorem Line.modPort_noticeDrops (ln : Line) (p : Port) (f : PortState → PortState) :
    (ln.modPort p f).noticeDrops = ln.noticeDrops := by cases p <;> rfl
@[simp] theorem Line.modPort_lineDueG (ln : Line) (p : Port) (f : PortState → PortState) :
    (ln.modPort p f).lineDueG = ln.lineDueG := by cases p <;> rfl
@[simp] theorem State.modPort_port (s : State) (p : Port) (f : PortState → PortState) :
    (s.modPort p f).port p = f (s.port p) := by cases p <;> rfl
theorem State.modPort_port_other (s : State) (p q : Port) (f : PortState → PortState) (h : q ≠ p) :
    (s.modPort p f).port q = s.port q := by cases p <;> cases q <;> first | rfl | exact absurd rfl h
@[simp] theorem State.modPort_garage (s : State) (p : Port) (f : PortState → PortState) :
    (s.modPort p f).garage = s.garage := rfl
@[simp] theorem State.modPort_pending (s : State) (p : Port) (f : PortState → PortState) :
    (s.modPort p f).pending = s.pending := rfl
@[simp] theorem State.modPort_powered (s : State) (p : Port) (f : PortState → PortState) :
    (s.modPort p f).powered = s.powered := rfl
@[simp] theorem State.modPort_storeHeld (s : State) (p : Port) (f : PortState → PortState) :
    (s.modPort p f).storeHeld = s.storeHeld := rfl
@[simp] theorem State.modPort_line (s : State) (p : Port) (f : PortState → PortState) :
    (s.modPort p f).line = s.line.modPort p f := rfl
@[simp] theorem State.run_garage (s : State) (f : Ev → Ev) : (s.run f).garage = (f ⟨s.garage, []⟩).g := rfl
@[simp] theorem State.run_line (s : State) (f : Ev → Ev) :
    (s.run f).line = (f ⟨s.garage, []⟩).out.foldl Line.queueOut s.line := rfl
@[simp] theorem State.run_pending (s : State) (f : Ev → Ev) : (s.run f).pending = s.pending := rfl
@[simp] theorem State.run_powered (s : State) (f : Ev → Ev) : (s.run f).powered = s.powered := rfl
@[simp] theorem State.run_storeHeld (s : State) (f : Ev → Ev) : (s.run f).storeHeld = s.storeHeld := rfl
@[simp] theorem PortState.modStation_stations (ps : PortState) (n : Nat) (f : Station → Station) :
    (ps.modStation n f).stations = ps.stations.map fun st => if st.number = n then f st else st := rfl

end Sys2Proof.Machine
end

