-- ==== Sys2Proof/Laws/Settings.lean ====
section
/-! SUPPORT. What the work of the lifts, the outcomes of moves and the life of tickets leave alone: the settings, the
geometry, the mode and the counts of time. One lemma per operation. -/

namespace Sys2Proof.Machine

/-- What only the office station and the tick change. -/
structure Fixed where
  mode : Mode
  zoneRecs : Table Zone
  stackRecs : Table Stack
  weights : Weights
  limits : Limits
  cabinetSize : Nat
  rangeA : Option (Nat × Nat)
  rangeB : Option (Nat × Nat)
  rangeO : Option (Nat × Nat)
  floor : Nat
  podiumLimit : Nat
  parkLevel : Nat
  laneA : Nat
  laneB : Nat
  seconds : Nat
  minute : Nat
  secsIntoMinute : Nat
  movePeriod : Nat
  pickupPeriod : Nat
  holdPeriod : Nat
  measuring : Bool

/-- The fixed part of the blocks behind the ports. -/
def Garage.fixed (g : Garage) : Fixed :=
  ⟨g.mode, g.zoneRecs, g.stackRecs, g.weights, g.limits, g.cabinetSize, g.rangeA, g.rangeB, g.rangeO, g.floor,
    g.podiumLimit, g.parkLevel, g.liftA.laneCapacity, g.liftB.laneCapacity, g.seconds, g.minute, g.secsIntoMinute,
    g.movePeriod, g.pickupPeriod, g.holdPeriod, g.measuring⟩

theorem Garage.modLift_fixed (g : Garage) (l : Lift) (f : LiftUnit → LiftUnit)
    (h : ∀ u, (f u).laneCapacity = u.laneCapacity) : (g.modLift l f).fixed = g.fixed := by
  cases l <;> simp [Garage.fixed, Garage.modLift, h]

@[simp] theorem Garage.modTicket_fixed (g : Garage) (n : Nat) (f : Ticket → Ticket) :
    (g.modTicket n f).fixed = g.fixed := rfl
@[simp] theorem Garage.modBay_fixed (g : Garage) (n : Nat) (f : Bay → Bay) : (g.modBay n f).fixed = g.fixed := rfl
@[simp] theorem Garage.modHook_fixed (g : Garage) (n : Nat) (f : Hook → Hook) : (g.modHook n f).fixed = g.fixed := rfl
@[simp] theorem Garage.modRunner_fixed (g : Garage) (n : Nat) (f : Runner → Runner) :
    (g.modRunner n f).fixed = g.fixed := rfl
@[simp] theorem Garage.modChan_fixed (g : Garage) (c : Chan) (f : Channel → Channel) :
    (g.modChan c f).fixed = g.fixed := by cases c <;> rfl

/-! ### Bays, lanes and tickets -/

@[simp] theorem Garage.zoneReport_fixed (g : Garage) (z : Nat) : (g.zoneReport z).fixed = g.fixed := rfl
@[simp] theorem Garage.reportBay_fixed (g : Garage) (b : Bay) : (g.reportBay b).fixed = g.fixed := by
  unfold Garage.reportBay; split <;> simp
@[simp] theorem Garage.returnDeeper_fixed (g : Garage) (b : Bay) : (g.returnDeeper b).fixed = g.fixed := rfl
@[simp] theorem Garage.bayFreed_fixed (g : Garage) (n : Nat) : (g.bayFreed n).fixed = g.fixed := by
  unfold Garage.bayFreed; (repeat' split) <;> simp
@[simp] theorem Garage.reserve_fixed (g : Garage) (n t : Nat) : (g.reserve n t).fixed = g.fixed := rfl
@[simp] theorem Garage.fill_fixed (g : Garage) (n t : Nat) : (g.fill n t).fixed = g.fixed := rfl
@[simp] theorem Garage.holdBay_fixed (g : Garage) (n t : Nat) : (g.holdBay n t).fixed = g.fixed := rfl
@[simp] theorem Garage.vacate_fixed (g : Garage) (n t : Nat) : (g.vacate n t).fixed = g.fixed := by
  unfold Garage.vacate; (repeat' split) <;> simp
@[simp] theorem Garage.release_fixed (g : Garage) (n t : Nat) : (g.release n t).fixed = g.fixed := by
  unfold Garage.release; (repeat' split) <;> simp
@[simp] theorem Garage.freeSlot_fixed (g : Garage) (l : Lift) : (g.freeSlot l).fixed = g.fixed :=
  g.modLift_fixed l _ fun _ => rfl
@[simp] theorem Garage.leaveLane_fixed (g : Garage) (l : Lift) (n : Nat) : (g.leaveLane l n).fixed = g.fixed :=
  g.modLift_fixed l _ fun _ => rfl
@[simp] theorem Garage.dequeue_fixed (g : Garage) (n : Nat) : (g.dequeue n).fixed = g.fixed := rfl
@[simp] theorem Garage.becomeParked_fixed (g : Garage) (n : Nat) : (g.becomeParked n).fixed = g.fixed := rfl
@[simp] theorem Garage.returnTarget_fixed (g : Garage) (n : Nat) : (g.returnTarget n).fixed = g.fixed := by
  unfold Garage.returnTarget
  (repeat' split) <;> first | rfl | simp

theorem Garage.foldl_fixed {α : Type} (f : Garage → α → Garage) (h : ∀ g a, (f g a).fixed = g.fixed) (l : List α)
    (g : Garage) : (l.foldl f g).fixed = g.fixed := by
  induction l generalizing g with
  | nil => rfl
  | cons a rest ih => rw [List.foldl_cons, ih, h]

@[simp] theorem Garage.endPlan_fixed (g : Garage) (l : Lift) (p : Plan) : (g.endPlan l p).fixed = g.fixed := by
  unfold Garage.endPlan
  dsimp only
  rw [Garage.modLift_fixed _ _ _ (by intro u; split <;> rfl)]
  split
  · rw [Garage.freeSlot_fixed, Garage.foldl_fixed]; intro g r; split <;> simp
  · rw [Garage.foldl_fixed]; intro g r; split <;> simp
@[simp] theorem Garage.clearBlock_fixed (g : Garage) (c : Chan) : (g.clearBlock c).fixed = g.fixed := by
  simp [Garage.clearBlock]
@[simp] theorem Garage.stopLift_fixed (g : Garage) (l : Lift) (st : LiftState) : (g.stopLift l st).fixed = g.fixed := by
  unfold Garage.stopLift
  dsimp only
  rw [Garage.modLift_fixed _ _ _ (by intro u; rfl)]
  split <;> simp
@[simp] theorem Garage.dropPlan_fixed (g : Garage) (l : Lift) : (g.dropPlan l).fixed = g.fixed := by
  unfold Garage.dropPlan
  dsimp only
  rw [Garage.modLift_fixed _ _ _ (by intro u; rfl)]
  split <;> simp
@[simp] theorem Garage.stopIdleLift_fixed (g : Garage) (l : Lift) (st : LiftState) :
    (g.stopIdleLift l st).fixed = g.fixed := by simp [Garage.stopIdleLift]
@[simp] theorem Garage.loseLift_fixed (g : Garage) (l : Lift) : (g.loseLift l).fixed = g.fixed := by
  unfold Garage.loseLift; split <;> simp

theorem Garage.renumber_fixed (f : Nat → Ticket → Ticket) (l : List Nat) (g : Garage) (k : Nat) :
    (g.renumber f k l).fixed = g.fixed := by
  induction l generalizing g k with
  | nil => rfl
  | cons n rest ih => unfold Garage.renumber; rw [ih]; rfl

@[simp] theorem Garage.takeSeq_fixed (g : Garage) : g.takeSeq.1.fixed = g.fixed := by
  unfold Garage.takeSeq
  dsimp only
  split
  · exact Garage.renumber_fixed _ _ _ _
  · rfl
@[simp] theorem Garage.takeReadySeq_fixed (g : Garage) : g.takeReadySeq.1.fixed = g.fixed := by
  unfold Garage.takeReadySeq
  dsimp only
  split
  · exact Garage.renumber_fixed _ _ _ _
  · rfl
@[simp] theorem Garage.countMove_fixed (g : Garage) (l : Lift) : (g.countMove l).fixed = g.fixed := by
  unfold Garage.countMove; split
  · exact g.modLift_fixed l _ fun _ => rfl
  · rfl
@[simp] theorem Garage.countFault_fixed (g : Garage) (l : Lift) : (g.countFault l).fixed = g.fixed := by
  unfold Garage.countFault; split
  · exact g.modLift_fixed l _ fun _ => rfl
  · rfl
@[simp] theorem Garage.determine_fixed (g : Garage) : g.determine.fixed = g.fixed := by
  simp [Garage.determine, Garage.rerequest, Garage.restamp, Garage.fixed, Garage.modChan]

/-! ### Events: the fixed part stays, and frames are only added -/

/-- A step of an event: the fixed part stays, the frames originated so far stand at the head of those it leaves, and none
that it adds is a REPLY. -/
structure Works (e e' : Ev) : Prop where
  fixed : e'.g.fixed = e.g.fixed
  out : e.out <+: e'.out
  told : ∀ o ∈ e'.out, o ∈ e.out ∨ ∀ p n, o.dest ≠ .reply p n

theorem Works.refl (e : Ev) : Works e e := ⟨rfl, List.prefix_refl _, fun _ h => .inl h⟩

theorem Works.trans {a b c : Ev} (h : Works a b) (k : Works b c) : Works a c :=
  ⟨k.fixed.trans h.fixed, h.out.trans k.out, fun o ho => (k.told o ho).elim (h.told o) .inr⟩

theorem Ev.emit_works (e : Ev) (o : Out) (h : ∀ p n, o.dest ≠ .reply p n) : Works e (e.emit o) := by
  refine ⟨rfl, List.prefix_append _ _, fun x hx => ?_⟩
  rcases List.mem_append.mp hx with hx | hx
  · exact .inl hx
  · rw [List.mem_singleton.mp hx]; exact .inr h

theorem Ev.alert_works (e : Ev) (k : Nat) (a : List Byte) : Works e (e.alert k a) := e.emit_works _ fun _ _ => by simp

theorem Ev.modG_works (e : Ev) (f : Garage → Garage) (h : ∀ g, (f g).fixed = g.fixed) : Works e (e.modG f) :=
  ⟨h _, List.prefix_refl _, fun _ h => .inl h⟩

theorem Ev.after_modG {e c : Ev} {f : Garage → Garage} (k : Works (e.modG f) c) (h : ∀ g, (f g).fixed = g.fixed) :
    Works e c := (e.modG_works f h).trans k

theorem openHook_works (n : Nat) (t : Ticket) (e : Ev) : Works e (openHook n t e) := by
  unfold openHook
  split
  · split
    · exact Ev.after_modG (Ev.emit_works _ _ fun _ _ => by simp [hookOpenFrame]) fun _ => rfl
    · exact .refl e
  · exact .refl e

theorem assign_works (r n : Nat) (e : Ev) : Works e (assign r n e) := by
  unfold assign
  dsimp only
  split
  · exact Ev.after_modG (Ev.emit_works _ _ fun _ _ => by simp [runnerTaskFrame]) fun _ => rfl
  · exact e.modG_works _ fun _ => rfl

theorem giveRunner_works (n : Nat) (e : Ev) : Works e (giveRunner n e) := by
  unfold giveRunner
  split
  · exact Ev.after_modG (assign_works _ _ _) fun _ => rfl
  · exact e.modG_works _ fun _ => rfl

theorem freeRunner_works (r : Nat) (e : Ev) : Works e (freeRunner r e) := by
  unfold freeRunner
  split
  · exact Ev.after_modG (assign_works _ _ _) fun _ => rfl
  · exact e.modG_works _ fun _ => rfl

theorem releaseRunner_works (n : Nat) (e : Ev) : Works e (releaseRunner n e) := by
  unfold releaseRunner
  split
  · exact .refl e
  · dsimp only
    split
    · exact Ev.after_modG (Ev.modG_works _ _ fun _ => rfl) fun _ => rfl
    · exact Ev.after_modG (freeRunner_works _ _) fun _ => rfl

@[simp] theorem Garage.becomeReady_fixed (g : Garage) (n : Nat) (loc : Location) :
    (g.becomeReady n loc).fixed = g.fixed := by
  unfold Garage.becomeReady Garage.countDelivery
  simp only [Garage.modTicket_fixed, Garage.takeReadySeq_fixed, Garage.dequeue_fixed]
  split <;> simp

theorem enterReady_works (n : Nat) (loc : Location) (e : Ev) : Works e (enterReady n loc e) := by
  have h := e.modG_works (fun g => g.becomeReady n loc) fun g => by simp
  unfold enterReady
  dsimp only
  split
  · exact h
  · rename_i t _
    have k := (h.trans (openHook_works n t _)).trans (giveRunner_works n _)
    split
    · exact k.trans (Ev.emit_works _ _ fun _ _ => by simp [carReadyFrame])
    · exact k

theorem order_works (l : Lift) (m : Move) (e : Ev) : Works e (order l m e) := by
  unfold order
  exact Ev.after_modG (Ev.emit_works _ _ fun _ _ => by simp [moveOrderFrame]) fun g => g.modLift_fixed l _ fun _ => rfl

theorem markBlocked_works (n b z : Nat) (e : Ev) : Works e (markBlocked n b z e) := by
  unfold markBlocked
  split
  · exact .refl e
  · split
    · exact .refl e
    · dsimp only
      have h : Works e _ := (e.modG_works (fun g => g.modTicket n fun t => { t with blocked := true }) fun _ => rfl).trans
        (Ev.alert_works _ AlertKind.retrievalBlocked (w16 n ++ w16 b ++ w8 z))
      split
      · exact h.trans (Ev.alert_works _ _ _)
      · exact h

theorem Garage.placeBlockers_fixed {zone ex : Nat} {bs : List (Nat × Nat)} {g g' : Garage} {rs : List Reloc}
    (h : g.placeBlockers zone ex bs = .ok (g', rs)) : g'.fixed = g.fixed := by
  induction bs generalizing g g' rs with
  | nil => unfold Garage.placeBlockers at h; cases h; rfl
  | cons b rest ih =>
    unfold Garage.placeBlockers at h
    split at h
    · cases h
    · split at h
      · cases h
      · split at h
        · cases h
        · split at h
          · rename_i hr; cases h; rw [ih hr]; rfl
          · cases h

@[simp] theorem Garage.startPlan_fixed (g : Garage) (l : Lift) (n level : Nat) (rs : List Reloc) :
    (g.startPlan l n level rs).fixed = g.fixed := by
  unfold Garage.startPlan
  rw [Garage.modLift_fixed]
  · rfl
  · intro u; rfl

theorem buildPlan_works (l : Lift) (w level : Nat) (e : Ev) : Works e (buildPlan l w level e).1 := by
  unfold buildPlan
  dsimp only
  split
  · dsimp only; exact e.modG_works _ fun _ => rfl
  · split
    · exact markBlocked_works _ _ _ _
    · rename_i h
      refine ⟨?_, List.prefix_refl _, fun _ h => .inl h⟩
      simp only [Ev.modG_g, Garage.startPlan_fixed]
      exact Garage.placeBlockers_fixed h

theorem goToLane_works (l : Lift) (p : Plan) (e : Ev) : Works e (goToLane l p e) := by
  unfold goToLane
  refine Ev.after_modG (order_works _ _ _) fun g => ?_
  rw [Garage.modLift_fixed]
  · rfl
  · intro u; rfl

theorem waitForLane_works (l : Lift) (p : Plan) (e : Ev) : Works e (waitForLane l p e) := by
  unfold waitForLane
  refine e.modG_works _ fun g => ?_
  dsimp only
  rw [Garage.modLift_fixed _ _ _ (by intro u; rfl), Garage.modTicket_fixed]
  split <;> simp

theorem passHoldPoint_works (l : Lift) (p : Plan) (e : Ev) : Works e (passHoldPoint l p e) := by
  unfold passHoldPoint
  split
  · exact goToLane_works _ _ _
  · exact waitForLane_works _ _ _

theorem suspend_works (l : Lift) (p : Plan) (e : Ev) : Works e (suspend l p e) := by
  unfold suspend
  refine e.modG_works _ fun g => ?_
  rw [Garage.modLift_fixed]
  · rfl
  · intro u; rfl

theorem atHoldPoint_works (l : Lift) (p : Plan) (e : Ev) : Works e (atHoldPoint l p e) := by
  unfold atHoldPoint
  split
  · exact e.modG_works _ fun g => by simp
  · split
    · split
      · exact Ev.after_modG (passHoldPoint_works _ _ _) fun _ => rfl
      · exact suspend_works _ _ _
    · exact passHoldPoint_works _ _ _

theorem planStep_works (l : Lift) (p : Plan) (e : Ev) : Works e (planStep l p e) := by
  unfold planStep
  split
  · exact order_works _ _ _
  · exact atHoldPoint_works _ _ _

theorem reorderMove_works (l : Lift) (m : Move) (e : Ev) : Works e (reorderMove l m e) := by
  unfold reorderMove
  refine Ev.after_modG (order_works _ _ _) fun g => ?_
  split
  · rw [Garage.modLift_fixed _ _ _ (by intro u; rfl), Garage.modTicket_fixed]
  · rw [Garage.modLift_fixed _ _ _ (by intro u; rfl)]
  · rfl

theorem grant_works (l : Lift) (b : Bid) (e : Ev) : Works e (grant l b e) := by
  unfold grant
  split
  · unfold grantPark
    split
    · exact e.modG_works _ fun g => g.modLift_fixed l _ fun _ => rfl
    · exact Ev.after_modG (order_works _ _ _) fun _ => rfl
  · unfold grantChannel
    exact e.modG_works _ fun g => by rw [Garage.modLift_fixed _ _ _ (by intro u; rfl)]; simp
  · unfold grantContinuation
    exact Ev.after_modG (goToLane_works _ _ _) fun g => g.modLift_fixed l _ fun _ => rfl
  · unfold grantEntry
    have h := buildPlan_works l (by assumption) b.level e
    dsimp only
    split
    · exact h.trans (Ev.modG_works _ _ fun g => g.modLift_fixed l _ fun _ => rfl)
    · exact h

theorem endBlock_works (l : Lift) (c : Chan) (e : Ev) : Works e (endBlock l c e) := by
  unfold endBlock
  exact e.modG_works _ fun g => by rw [Garage.modLift_fixed _ _ _ (by intro u; rfl)]; simp

theorem blockStep_works (l : Lift) (c : Chan) (e : Ev) : Works e (blockStep l c e) := by
  unfold blockStep
  dsimp only
  split
  · exact endBlock_works _ _ _
  · split
    · exact endBlock_works _ _ _
    · rename_i n _
      have h := buildPlan_works l n (e.g.chan c).level e
      split
      · exact endBlock_works _ _ _
      · split
        · exact h.trans (Ev.modG_works _ _ fun g => by simp)
        · exact h

theorem holderWork_works {l : Lift} {e e' : Ev} (h : holderWork l e = some e') : Works e e' := by
  unfold holderWork at h
  dsimp only at h
  split at h
  · split at h
    · cases h
    · split at h
      · cases h; exact reorderMove_works _ _ _
      · cases h; exact planStep_works _ _ _
      · split at h
        · cases h; exact blockStep_works _ _ _
        · cases h; exact e.modG_works _ fun g => g.modLift_fixed l _ fun _ => rfl
  · cases h

theorem channelDone_works {c : Chan} {e e' : Ev} (h : channelDone c e = some e') : Works e e' := by
  unfold channelDone at h
  dsimp only at h
  split at h
  · simp only [Option.some.injEq] at h
    subst h
    have k := e.modG_works
      (fun g => (g.modChan c Channel.toIdle).letRun (otherChan c))
      fun g => by simp [Garage.letRun]
    split
    · exact k
    · exact k.trans (Ev.emit_works _ _ fun _ _ => by simp)
  · cases h

theorem arbitrate_works {l : Lift} {e e' : Ev} (h : arbitrate l e = some e') : Works e e' := by
  unfold arbitrate at h
  dsimp only at h
  split at h
  · cases hb : bestBid (e.g.bids l) with
    | none => rw [hb] at h; cases h
    | some b => rw [hb] at h; cases h; exact grant_works _ _ _
  · cases h

theorem eitherFirst_cases {first : Bool} {a b : Option Ev} {e : Ev} (h : eitherFirst first a b = some e) :
    a = some e ∨ b = some e := by
  unfold eitherFirst at h
  split at h
  · split at h
    · exact .inl h
    · exact .inr h
  · exact .inl h
  · exact .inr h

theorem nextWork_works {k : Nat} {e e' : Ev} (h : nextWork k e = some e') : Works e e' := by
  unfold nextWork at h
  dsimp only at h
  split at h
  · rename_i hx; cases h
    rcases eitherFirst_cases hx with hx | hx <;> exact holderWork_works hx
  · split at h
    · rename_i hx; cases h
      rcases eitherFirst_cases hx with hx | hx <;> exact channelDone_works hx
    · rcases eitherFirst_cases h with hx | hx <;> exact arbitrate_works hx

theorem settleWith_works (k : Nat) (e : Ev) : Works e (settleWith k e) := by
  induction k generalizing e with
  | zero => exact .refl e
  | succ k ih =>
    unfold settleWith
    have h := e.modG_works Garage.determine fun g => by simp
    dsimp only
    split
    · rename_i e' hn
      exact (h.trans (nextWork_works hn)).trans (ih e')
    · exact h

/-- The work an event sets off changes no setting, no geometry and no count of time, and only adds frames. -/
theorem settle_works (e : Ev) : Works e (settle e) := settleWith_works _ e

/-! ### The outcomes of moves -/

@[simp] theorem Garage.relocated_fixed (g : Garage) (m : Move) : (g.relocated m).fixed = g.fixed := by
  simp [Garage.relocated]
@[simp] theorem Garage.markRelocated_fixed (g : Garage) (l : Lift) (n : Nat) : (g.markRelocated l n).fixed = g.fixed :=
  g.modLift_fixed l _ fun _ => rfl
@[simp] theorem Garage.endIfCancelled_fixed (g : Garage) (l : Lift) : (g.endIfCancelled l).fixed = g.fixed := by
  unfold Garage.endIfCancelled; (repeat' split) <;> simp
@[simp] theorem Garage.parked_fixed (g : Garage) (l : Lift) (m : Move) : (g.parked l m).fixed = g.fixed := by
  unfold Garage.parked
  dsimp only
  rw [Garage.modTicket_fixed, Garage.modLift_fixed _ _ _ (by intro u; rfl), Garage.fill_fixed]
@[simp] theorem Garage.joinLane_fixed (g : Garage) (l : Lift) (n : Nat) : (g.joinLane l n).fixed = g.fixed :=
  g.modLift_fixed l _ fun _ => rfl
@[simp] theorem Garage.abandonPlan_fixed (g : Garage) (l : Lift) : (g.abandonPlan l).fixed = g.fixed := by
  unfold Garage.abandonPlan; split <;> simp
@[simp] theorem Garage.takeOutcome_fixed (g : Garage) (l : Lift) : (g.takeOutcome l).fixed = g.fixed :=
  g.modLift_fixed l _ fun _ => rfl
@[simp] theorem Garage.takeOff_fixed (g : Garage) (l : Lift) : (g.takeOff l).fixed = g.fixed :=
  g.modLift_fixed l _ fun u => by split <;> rfl
@[simp] theorem Garage.leaveMoving_fixed (g : Garage) (l : Lift) : (g.leaveMoving l).fixed = g.fixed := by
  unfold Garage.leaveMoving
  split <;> rw [Garage.modLift_fixed _ _ _ (by intro u; rfl)]
  simp
@[simp] theorem Garage.faultLift_fixed (g : Garage) (l : Lift) : (g.faultLift l).fixed = g.fixed := by
  simp [Garage.faultLift]
@[simp] theorem Garage.clearUnresolved_fixed (g : Garage) (l : Lift) (m : Move) :
    (g.clearUnresolved l m).fixed = g.fixed := g.modLift_fixed l _ fun _ => rfl

@[simp] theorem Garage.leaveUnresolved_fixed (g : Garage) (l : Lift) (m : Move) :
    (g.leaveUnresolved l m).fixed = g.fixed := by
  unfold Garage.leaveUnresolved
  dsimp only
  rw [Garage.modLift_fixed _ _ _ (by intro u; rfl)]
  have h : ∀ g' : Garage, (match m.source with | .bay b => g'.holdBay b m.ticket | _ => g').fixed = g'.fixed := by
    intro g'; split <;> simp
  split
  · rw [Garage.modLift_fixed _ _ _ (by intro u; rfl)]; exact (h _).trans rfl
  · rw [Garage.abandonPlan_fixed, Garage.markRelocated_fixed]; exact (h _).trans rfl
  · rw [Garage.modLift_fixed _ _ _ (by intro u; rfl)]; exact (h _).trans rfl

@[simp] theorem Garage.refusedNotReady_fixed (g : Garage) (l : Lift) (m : Move) :
    (g.refusedNotReady l m).fixed = g.fixed := by
  unfold Garage.refusedNotReady
  dsimp only
  have h : (if m.kind = .park then
      ((g.takeOutcome l).modLift l fun u => { u with readiness := .notReady }).modTicket m.ticket fun t =>
        { t with state := .allocated }
      else (g.takeOutcome l).modLift l fun u => { u with readiness := .notReady }).fixed = g.fixed := by
    split <;> simp [Garage.modLift_fixed]
  generalize (if m.kind = .park then
      ((g.takeOutcome l).modLift l fun u => { u with readiness := .notReady }).modTicket m.ticket fun t =>
        { t with state := .allocated }
      else (g.takeOutcome l).modLift l fun u => { u with readiness := .notReady }) = g' at h ⊢
  split
  · rw [Garage.modLift_fixed _ _ _ (by intro u; rfl), Garage.stopIdleLift_fixed, h]
  · split
    · rw [Garage.modLift_fixed _ _ _ (by intro u; rfl), Garage.modLift_fixed _ _ _ (by intro u; rfl), h]
    · split
      · rw [Garage.endIfCancelled_fixed, Garage.modLift_fixed _ _ _ (by intro u; rfl), h]
      · rw [Garage.modLift_fixed _ _ _ (by intro u; rfl), Garage.modLift_fixed _ _ _ (by intro u; rfl), h]

theorem complete_works (l : Lift) (m : Move) (e : Ev) : Works e (complete l m e) := by
  unfold complete
  split
  · exact e.modG_works _ fun g => by simp
  · exact Ev.after_modG (enterReady_works _ _ _) fun g => by
      rw [Garage.modLift_fixed _ _ _ (by intro u; rfl)]; simp
  · exact e.modG_works _ fun g => by simp

theorem undo_works (l : Lift) (m : Move) (e : Ev) : Works e (undo l m e) := by
  unfold undo
  split
  · exact e.modG_works _ fun _ => rfl
  · exact e.modG_works _ fun g => by simp

theorem moveCompleted_works (l : Lift) (m : Move) (e : Ev) : Works e (moveCompleted l m e) := by
  unfold moveCompleted
  exact (Ev.after_modG (complete_works _ _ _) fun g => by simp).trans (Ev.modG_works _ _ fun g => by simp)

theorem refusedLocation_works (l : Lift) (m : Move) (e : Ev) : Works e (refusedLocation l m e) := by
  unfold refusedLocation liftFaultAlert
  exact (Ev.after_modG ((Ev.alert_works _ _ _).trans (undo_works _ _ _)) fun g => by simp).trans
    (Ev.modG_works _ _ fun g => by simp)

theorem moveFaulted_works (l : Lift) (m : Move) (pos : CarPosition) (e : Ev) : Works e (moveFaulted l m pos e) := by
  unfold moveFaulted liftFaultAlert
  dsimp only
  refine Works.trans ?_ (Ev.modG_works _ _ fun g => by simp)
  have h : Works e ((e.modG fun g => g.faultLift l).alert AlertKind.liftFault
      (w8 (liftCode l) ++ w8 m.number ++ w16 m.ticket ++ w8 (carPositionCode pos))) :=
    (e.modG_works _ fun g => by simp).trans (Ev.alert_works _ _ _)
  refine h.trans ?_
  split
  · exact undo_works _ _ _
  · exact (Ev.after_modG (complete_works _ _ _) fun g => by simp).trans (Ev.modG_works _ _ fun g => by simp)
  · exact Ev.modG_works _ _ fun g => by simp

theorem moveTimedOut_works (l : Lift) (m : Move) (e : Ev) : Works e (moveTimedOut l m e) := by
  unfold moveTimedOut
  exact (Ev.after_modG (Ev.alert_works _ _ _) fun g => by simp).trans (Ev.modG_works _ _ fun g => by simp)

theorem placeAtDestination_works (l : Lift) (m : Move) (e : Ev) : Works e (placeAtDestination l m e) := by
  unfold placeAtDestination
  dsimp only
  refine Works.trans (b := e.modG fun g => (g.clearUnresolved l m).countMove l) (e.modG_works _ fun g => by simp) ?_
  split
  · exact Ev.modG_works _ _ fun g => by simp
  · exact Ev.modG_works _ _ fun g => by simp
  · exact Ev.after_modG (enterReady_works _ _ _) fun g => by simp

theorem placeAtSource_works (l : Lift) (m : Move) (e : Ev) : Works e (placeAtSource l m e) := by
  unfold placeAtSource
  refine Ev.modG_works _ _ fun g => ?_
  dsimp only
  split
  · simp
  · simp
  · have h : (((g.clearUnresolved l m).modTicket m.ticket fun t =>
        { t with state := .allocated, location := .hall l, bay := some m.dest.bayNo, unresolved := none }).modLift l
        fun u => { u with parkRequest := some (m.ticket, ((g.clearUnresolved l m).modTicket m.ticket fun t =>
        { t with state := .allocated, location := .hall l, bay := some m.dest.bayNo, unresolved := none }).seconds) }).fixed
        = g.fixed := by
      rw [Garage.modLift_fixed _ _ _ (by intro u; rfl)]; simp
    split
    · rw [Garage.reportBay_fixed]; exact h
    · exact h

/-! ### Lifts at rest -/

/-- With no lift READY and both convoy channels IDLE, an event sets off nothing: eligibility stamps and convoy requests
are determined anew, and that is all. -/
theorem settle_resting (e : Ev) (h : e.g.Resting) : settle e = e.modG Garage.determine := by
  obtain ⟨ha, hb, h0, h1⟩ := h
  show settleWith (4095 + 1) e = _
  have da : e.g.determine.liftA = e.g.liftA := by
    simp [Garage.determine, Garage.rerequest, Garage.restamp, Garage.modChan]
  have db : e.g.determine.liftB = e.g.liftB := by
    simp [Garage.determine, Garage.rerequest, Garage.restamp, Garage.modChan]
  have d0 : e.g.determine.chan0.state = e.g.chan0.state := by
    simp [Garage.determine, Garage.rerequest, Garage.restamp, Garage.modChan]
  have d1 : e.g.determine.chan1.state = e.g.chan1.state := by
    simp [Garage.determine, Garage.rerequest, Garage.restamp, Garage.modChan]
  unfold settleWith
  have hn : nextWork 4095 (e.modG Garage.determine) = none := by
    simp [nextWork, holderWork, channelDone, arbitrate, eitherFirst, Garage.lift, Garage.chan, da, db, d0, d1, ha, hb, h0,
      h1]
  simp [hn]

end Sys2Proof.Machine
end

