-- ==== Sys2Proof/Laws/Feedback.lean ====
section
/-! SUPPORT. The frames an event has originated so far never decide what it does: every operation of an event leaves the
blocks behind the ports as the blocks alone determine. -/

namespace Sys2Proof.Machine

variable {a b : Ev}

theorem openHook_blind (n : Nat) (t : Ticket) (h : a.g = b.g) : (openHook n t a).g = (openHook n t b).g := by
  unfold openHook
  rw [h]
  split
  · split
    · simp [h]
    · exact h
  · exact h

theorem assign_blind (r n : Nat) (h : a.g = b.g) : (assign r n a).g = (assign r n b).g := by
  unfold assign
  simp only [Ev.modG_g, h]
  split <;> simp [h]

theorem giveRunner_blind (n : Nat) (h : a.g = b.g) : (giveRunner n a).g = (giveRunner n b).g := by
  unfold giveRunner
  rw [h]
  split
  · exact assign_blind _ _ (by simp [h])
  · simp [h]

theorem freeRunner_blind (r : Nat) (h : a.g = b.g) : (freeRunner r a).g = (freeRunner r b).g := by
  unfold freeRunner
  rw [h]
  split
  · exact assign_blind _ _ (by simp [h])
  · simp [h]

theorem releaseRunner_blind (n : Nat) (h : a.g = b.g) : (releaseRunner n a).g = (releaseRunner n b).g := by
  unfold releaseRunner
  rw [h]
  split
  · exact h
  · dsimp only
    split
    · simp [h]
    · exact freeRunner_blind _ (by simp [h])

theorem enterReady_blind (n : Nat) (loc : Location) (h : a.g = b.g) : (enterReady n loc a).g = (enterReady n loc b).g := by
  have h1 : (a.modG fun g => g.becomeReady n loc).g = (b.modG fun g => g.becomeReady n loc).g := by simp [h]
  unfold enterReady
  dsimp only
  rw [h1]
  split
  · exact h1
  · rename_i t _
    have h2 := giveRunner_blind n (openHook_blind n t h1)
    rw [h2]
    split <;> simp [h2]

theorem order_blind (l : Lift) (m : Move) (h : a.g = b.g) : (order l m a).g = (order l m b).g := by
  unfold order
  simp [h]

theorem markBlocked_blind (n k z : Nat) (h : a.g = b.g) : (markBlocked n k z a).g = (markBlocked n k z b).g := by
  unfold markBlocked
  rw [h]
  split
  · exact h
  · split
    · exact h
    · dsimp only
      split <;> simp [h]

theorem buildPlan_blind (l : Lift) (w level : Nat) (h : a.g = b.g) :
    (buildPlan l w level a).1.g = (buildPlan l w level b).1.g ∧ (buildPlan l w level a).2 = (buildPlan l w level b).2 := by
  unfold buildPlan
  rw [h]
  dsimp only
  split
  · exact ⟨by simp [h], rfl⟩
  · split
    · exact ⟨markBlocked_blind _ _ _ h, rfl⟩
    · exact ⟨by simp, rfl⟩

theorem goToLane_blind (l : Lift) (p : Plan) (h : a.g = b.g) : (goToLane l p a).g = (goToLane l p b).g := by
  unfold goToLane
  simp only [Ev.modG_g, h]
  exact order_blind _ _ (by simp [h])

theorem waitForLane_blind (l : Lift) (p : Plan) (h : a.g = b.g) : (waitForLane l p a).g = (waitForLane l p b).g := by
  unfold waitForLane
  simp [h]

theorem passHoldPoint_blind (l : Lift) (p : Plan) (h : a.g = b.g) :
    (passHoldPoint l p a).g = (passHoldPoint l p b).g := by
  unfold passHoldPoint
  rw [h]
  split
  · exact goToLane_blind _ _ h
  · exact waitForLane_blind _ _ h

theorem suspend_blind (l : Lift) (p : Plan) (h : a.g = b.g) : (suspend l p a).g = (suspend l p b).g := by
  unfold suspend
  simp [h]

theorem atHoldPoint_blind (l : Lift) (p : Plan) (h : a.g = b.g) : (atHoldPoint l p a).g = (atHoldPoint l p b).g := by
  unfold atHoldPoint
  rw [h]
  split
  · simp [h]
  · split
    · split
      · exact passHoldPoint_blind _ _ (by simp [h])
      · exact suspend_blind _ _ h
    · exact passHoldPoint_blind _ _ h

theorem planStep_blind (l : Lift) (p : Plan) (h : a.g = b.g) : (planStep l p a).g = (planStep l p b).g := by
  unfold planStep
  split
  · rw [h]; exact order_blind _ _ h
  · exact atHoldPoint_blind _ _ h

theorem reorderMove_blind (l : Lift) (m : Move) (h : a.g = b.g) : (reorderMove l m a).g = (reorderMove l m b).g := by
  unfold reorderMove
  exact order_blind _ _ (by simp [h])

theorem grant_blind (l : Lift) (x : Bid) (h : a.g = b.g) : (grant l x a).g = (grant l x b).g := by
  unfold grant
  split
  · unfold grantPark
    rw [h]
    split
    · simp [h]
    · exact order_blind _ _ (by simp [h])
  · unfold grantChannel
    simp [h]
  · unfold grantContinuation
    exact goToLane_blind _ _ (by simp [h])
  · rename_i n _
    have k := buildPlan_blind l n x.level h
    unfold grantEntry
    dsimp only
    rw [k.2]
    split
    · simp [k.1]
    · exact k.1

theorem endBlock_blind (l : Lift) (c : Chan) (h : a.g = b.g) : (endBlock l c a).g = (endBlock l c b).g := by
  unfold endBlock
  simp [h]

theorem blockStep_blind (l : Lift) (c : Chan) (h : a.g = b.g) : (blockStep l c a).g = (blockStep l c b).g := by
  unfold blockStep
  rw [h]
  dsimp only
  split
  · exact endBlock_blind _ _ h
  · split
    · exact endBlock_blind _ _ h
    · rename_i n _
      split
      · exact endBlock_blind _ _ h
      · have k := buildPlan_blind l n (b.g.chan c).level h
        rw [k.2]
        split
        · simp [k.1]
        · exact k.1

/-! ### What an event sets off -/

theorem holderWork_blind (l : Lift) (h : a.g = b.g) : (holderWork l a).map Ev.g = (holderWork l b).map Ev.g := by
  unfold holderWork
  rw [h]
  dsimp only
  split
  · split
    · rfl
    · split
      · simp [reorderMove_blind _ _ h]
      · simp [planStep_blind _ _ h]
      · split
        · simp [blockStep_blind _ _ h]
        · simp [h]
  · rfl

theorem channelDone_blind (c : Chan) (h : a.g = b.g) : (channelDone c a).map Ev.g = (channelDone c b).map Ev.g := by
  unfold channelDone
  rw [h]
  dsimp only
  split
  · split <;> simp [h]
  · rfl

theorem arbitrate_blind (l : Lift) (h : a.g = b.g) : (arbitrate l a).map Ev.g = (arbitrate l b).map Ev.g := by
  unfold arbitrate
  rw [h]
  dsimp only
  split
  · cases bestBid (b.g.bids l) <;> simp [grant_blind _ _ h]
  · rfl

theorem eitherFirst_blind (first : Bool) {x x' y y' : Option Ev} (hx : x.map Ev.g = x'.map Ev.g)
    (hy : y.map Ev.g = y'.map Ev.g) : (eitherFirst first x y).map Ev.g = (eitherFirst first x' y').map Ev.g := by
  cases x <;> cases x' <;> cases y <;> cases y' <;> simp_all [eitherFirst]
  split <;> simp_all

theorem firstWork_blind {x x' y y' : Option Ev} (hx : x.map Ev.g = x'.map Ev.g) (hy : y.map Ev.g = y'.map Ev.g) :
    (match x with | some u => some u | none => y).map Ev.g
      = (match x' with | some u => some u | none => y').map Ev.g := by
  cases x <;> cases x' <;> simp_all

theorem nextWork_blind (k : Nat) (h : a.g = b.g) : (nextWork k a).map Ev.g = (nextWork k b).map Ev.g := by
  unfold nextWork
  rw [h]
  exact firstWork_blind (eitherFirst_blind _ (holderWork_blind _ h) (holderWork_blind _ h))
    (firstWork_blind (eitherFirst_blind _ (channelDone_blind _ h) (channelDone_blind _ h))
      (eitherFirst_blind _ (arbitrate_blind _ h) (arbitrate_blind _ h)))

theorem settleWith_blind (k : Nat) (h : a.g = b.g) : (settleWith k a).g = (settleWith k b).g := by
  induction k generalizing a b with
  | zero => exact h
  | succ k ih =>
    have h1 : (a.modG Garage.determine).g = (b.modG Garage.determine).g := by simp [h]
    have h2 := nextWork_blind k h1
    unfold settleWith
    dsimp only
    revert h2
    cases nextWork k (a.modG Garage.determine) <;> cases nextWork k (b.modG Garage.determine) <;> intro h2 <;>
      simp only [Option.map_some, Option.map_none, Option.some.injEq, reduceCtorEq] at h2
    · exact h1
    · exact ih h2

/-- What an event sets off depends on what it has left of the blocks behind the ports, not on its frames. -/
theorem settle_g (e : Ev) : (settle e).g = e.g.afterwards := settleWith_blind _ rfl

end Sys2Proof.Machine
end

