-- ==== Sys2Proof/Laws/Lines.lean ====
section
/-! SUPPORT. What queueing, sending, and the end of an exchange can change on the lines: one lemma per operation. -/

namespace Sys2Proof.Machine

/-! ### Ports -/

@[simp] theorem Line.port_s (ln : Line) : ln.port .s = ln.s := rfl
@[simp] theorem Line.port_g (ln : Line) : ln.port .g = ln.g := rfl
@[simp] theorem State.port_s (s : State) : s.port .s = s.line.s := rfl
@[simp] theorem State.port_g (s : State) : s.port .g = s.line.g := rfl

/-- What it says of a port that a station is polled on it. -/
theorem PortState.polled_cases {ps : PortState} {st : Station} (h : ps.polled = some st) :
    ps.awaiting = true ∧ ∃ v, ps.visit = some v ∧ v.removed = false ∧ ps.station v.station = some st := by
  unfold PortState.polled at h
  split at h
  · rename_i v hv
    split at h
    · rename_i ha
      rw [Bool.and_eq_true, Bool.not_eq_true'] at ha
      exact ⟨ha.1, v, hv, ha.2, h⟩
    · cases h
  · cases h

theorem PortState.polled_awaiting {ps : PortState} {st : Station} (h : ps.polled = some st) : ps.awaiting = true :=
  (polled_cases h).1

/-- No station is polled once the station of the visit has been removed (R4). -/
theorem PortState.polled_removed {ps : PortState} {v : Visit} (hv : ps.visit = some v) (hr : v.removed = true) :
    ps.polled = none := by
  unfold PortState.polled
  rw [hv]
  simp [hr]

/-! ### Queueing -/

/-- Joining the own queues changes the own queues and the notice drop tally, nothing else. -/
structure QueuesOnly (a b : Line) : Prop where
  eq : b = { a with
    s := { a.s with ownQueue := b.s.ownQueue }
    g := { a.g with ownQueue := b.g.ownQueue }
    noticeDrops := b.noticeDrops }

theorem QueuesOnly.refl (a : Line) : QueuesOnly a a := ⟨rfl⟩

theorem QueuesOnly.trans {a b c : Line} (h : QueuesOnly a b) (k : QueuesOnly b c) : QueuesOnly a c := by
  refine ⟨?_⟩
  rw [k.eq, h.eq]

theorem Line.dropNotice_queuesOnly (ln : Line) : QueuesOnly ln ln.dropNotice := ⟨rfl⟩

theorem Line.enqueue_queuesOnly (ln : Line) (p : Port) (q : QFrame) : QueuesOnly ln (ln.enqueue p q) := by
  refine ⟨?_⟩
  unfold Line.enqueue
  cases p <;> (repeat' split) <;> rfl

theorem Line.sendTo_queuesOnly (ln : Line) (n : Nat) (o : Out) : QueuesOnly ln (ln.sendTo n o) := by
  unfold Line.sendTo
  split
  · exact ln.enqueue_queuesOnly _ _
  · exact ln.dropNotice_queuesOnly

theorem Line.queueOut_queuesOnly (ln : Line) (o : Out) : QueuesOnly ln (ln.queueOut o) := by
  unfold Line.queueOut
  split
  · exact ln.enqueue_queuesOnly _ _
  · exact ln.sendTo_queuesOnly _ _
  · split
    · exact ln.sendTo_queuesOnly _ _
    · exact ln.dropNotice_queuesOnly

/-- The frames of an event join the own queues and change nothing else. -/
theorem Line.queueAll_queuesOnly (outs : List Out) (ln : Line) : QueuesOnly ln (outs.foldl Line.queueOut ln) := by
  induction outs generalizing ln with
  | nil => exact .refl ln
  | cons o rest ih => exact (ln.queueOut_queuesOnly o).trans (ih _)

/-! ### A frame in an own queue stays on its way -/

theorem dropOldestAlert_mem {qs : List QFrame} {q : QFrame} (hq : q ∈ qs) (hk : q.frame.kind ≠ Kind.alert) :
    q ∈ dropOldestAlert qs := by
  induction qs with
  | nil => cases hq
  | cons x rest ih =>
    unfold dropOldestAlert
    rcases List.mem_cons.mp hq with rfl | hq
    · simp [hk]
    · split
      · exact hq
      · exact List.mem_cons_of_mem _ (ih hq)

theorem Line.enqueue_keeps {ln : Line} {p : Port} {q x : QFrame} (hx : x ∈ ln.s.ownQueue)
    (hk : x.frame.kind ≠ Kind.alert ∨ ln.s.ownQueue.length < 48) : x ∈ (ln.enqueue p q).s.ownQueue := by
  unfold Line.enqueue
  cases p
  · split
    · dsimp only
      split
      · exact List.mem_append_left _ hx
      · rename_i h
        rcases hk with hk | hk
        · exact List.mem_append_left _ (dropOldestAlert_mem hx hk)
        · exact absurd hk h
    · exact hx
  · split <;> exact hx

theorem Line.queueOut_keeps {ln : Line} {o : Out} {x : QFrame} (hx : x ∈ ln.s.ownQueue)
    (hk : x.frame.kind ≠ Kind.alert ∨ ln.s.ownQueue.length < 48) : x ∈ (ln.queueOut o).s.ownQueue := by
  unfold Line.queueOut Line.sendTo
  (repeat' split) <;> first | exact Line.enqueue_keeps hx hk | exact hx

theorem Line.queueAll_keeps {outs : List Out} {ln : Line} {x : QFrame} (hx : x ∈ ln.s.ownQueue)
    (hk : x.frame.kind ≠ Kind.alert) : x ∈ (outs.foldl Line.queueOut ln).s.ownQueue := by
  induction outs generalizing ln with
  | nil => exact hx
  | cons o rest ih => exact ih (Line.queueOut_keeps hx (.inl hk))

/-- One more frame makes an own queue at most one longer. -/
theorem Line.enqueue_length (ln : Line) (p : Port) (q : QFrame) :
    (ln.enqueue p q).s.ownQueue.length ≤ ln.s.ownQueue.length + 1 := by
  have hd : ∀ qs : List QFrame, (dropOldestAlert qs).length ≤ qs.length := by
    intro qs
    induction qs with
    | nil => simp [dropOldestAlert]
    | cons x rest ih =>
      unfold dropOldestAlert
      split
      · simp
      · simpa using ih
  unfold Line.enqueue
  cases p
  · split
    · dsimp only
      split
      · simp
      · simpa [Line.dropNotice] using hd _
    · simp [Line.dropNotice]
  · split <;> simp [Line.dropNotice]

theorem Line.queueOut_length (ln : Line) (o : Out) :
    (ln.queueOut o).s.ownQueue.length ≤ ln.s.ownQueue.length + 1 := by
  unfold Line.queueOut Line.sendTo
  (repeat' split) <;> first | exact ln.enqueue_length _ _ | exact Nat.le_succ _

/-- A REPLY for a station of Port S joins the queue when it has room (R13, R14). -/
theorem Line.enqueue_reply {ln : Line} {q : QFrame} (h : ln.s.hasRoom) : q ∈ (ln.enqueue .s q).s.ownQueue := by
  unfold Line.enqueue
  have ht : ln.takes .s q.frame.kind = true := by
    unfold Line.takes holdsAlert
    rcases h with h | ⟨x, hx, hk⟩
    · simp [Config.ownCapacityS, h]
    · simp only [Bool.or_eq_true]
      exact .inr (List.any_eq_true.mpr ⟨x, hx, by simpa using hk⟩)
  simp only [ht, if_true]
  split <;> simp [Line.dropNotice]

/-- An ALERT that joins a queue with room for it leaves it with room for other frames. -/
theorem Line.enqueue_room {ln : Line} {p : Port} {q : QFrame} (hk : q.frame.kind = Kind.alert) (h : ln.s.hasRoom) :
    (ln.enqueue p q).s.hasRoom := by
  cases p
  · exact .inr ⟨q, Line.enqueue_reply h, hk⟩
  · unfold Line.enqueue
    split <;> exact h

theorem Line.queueOut_room {ln : Line} {o : Out} (hk : o.kind = Kind.alert) (h : ln.s.hasRoom) :
    (ln.queueOut o).s.hasRoom := by
  unfold Line.queueOut Line.sendTo
  (repeat' split) <;> first | exact Line.enqueue_room hk h | exact h

theorem Line.queueAll_room {outs : List Out} {ln : Line} (hk : ∀ o ∈ outs, o.kind = Kind.alert) (h : ln.s.hasRoom) :
    (outs.foldl Line.queueOut ln).s.hasRoom := by
  induction outs generalizing ln with
  | nil => exact h
  | cons o rest ih =>
    exact ih (fun x hx => hk x (List.mem_cons_of_mem _ hx)) (Line.queueOut_room (hk o List.mem_cons_self) h)

theorem Line.queueAll_length (outs : List Out) (ln : Line) :
    (outs.foldl Line.queueOut ln).s.ownQueue.length ≤ ln.s.ownQueue.length + outs.length := by
  induction outs generalizing ln with
  | nil => simp
  | cons o rest ih =>
    have := ih (ln.queueOut o)
    have := ln.queueOut_length o
    simp only [List.foldl_cons, List.length_cons]
    omega

theorem Line.queueAll_keeps_short {outs : List Out} {ln : Line} {x : QFrame} (hx : x ∈ ln.s.ownQueue)
    (hk : ln.s.ownQueue.length + outs.length ≤ 48) : x ∈ (outs.foldl Line.queueOut ln).s.ownQueue := by
  induction outs generalizing ln with
  | nil => exact hx
  | cons o rest ih =>
    simp only [List.length_cons] at hk
    refine ih (Line.queueOut_keeps hx (.inr (by omega))) ?_
    have := ln.queueOut_length o
    omega

/-! ### Sending -/

/-- Choosing a frame takes it from the head of a queue of the port. -/
theorem PortState.chooseFrame_shape {ps ps' : PortState} {q : QFrame} (h : ps.chooseFrame = some (q, ps')) :
    (∃ rest, ps.ownQueue = q :: rest ∧ ∃ k, ps' = { ps with ownQueue := rest, passOver := k }) ∨
      ∃ t rest, ps.transitQueue = t :: rest ∧ q = ⟨t, .plain⟩ ∧ ps' = { ps with transitQueue := rest, passOver := 0 } := by
  unfold PortState.chooseFrame at h
  split at h
  · cases h
  · rename_i ht; cases h; exact .inr ⟨_, _, ht, rfl, rfl⟩
  · rename_i ho _; cases h; exact .inl ⟨_, ho, ps.passOver, rfl⟩
  · rename_i ho ht
    split at h
    · cases h; exact .inr ⟨_, _, ht, rfl, rfl⟩
    · cases h; exact .inl ⟨_, ho, _, rfl⟩

/-- What sending leaves alone. -/
structure SendsOnly (a b : PortState) : Prop where
  same : SamePort a b
  stations : b.stations = a.stations
  awaiting : b.awaiting = a.awaiting
  visit : b.visit = a.visit
  pollPos : b.pollPos = a.pollPos
  holds : ∀ q, a.holds q → b.holds q
  forwards : ∀ f, a.forwards f → b.forwards f

theorem SamePort.refl (a : PortState) : SamePort a a := ⟨rfl, rfl, rfl, rfl, List.suffix_refl _⟩

theorem SamePort.trans {a b c : PortState} (h : SamePort a b) (k : SamePort b c) : SamePort a c :=
  ⟨k.settings.trans h.settings, k.mode.trans h.mode, k.faultTally.trans h.faultTally, k.dropTally.trans h.dropTally,
    k.transit.trans h.transit⟩

theorem SameLines.refl (a : Line) : SameLines a a := ⟨.refl _, .refl _, rfl, rfl⟩

theorem SameLines.trans {a b c : Line} (h : SameLines a b) (k : SameLines b c) : SameLines a c :=
  ⟨h.s.trans k.s, h.g.trans k.g, k.passTable.trans h.passTable, k.lineDueG.trans h.lineDueG⟩

theorem SendsOnly.refl (a : PortState) : SendsOnly a a := ⟨.refl a, rfl, rfl, rfl, rfl, fun _ h => h, fun _ h => h⟩

theorem PortState.carries_iff (ps : PortState) (f : Frame) : ps.carries f ↔ ∃ q, ps.holds q ∧ q.frame = f := by
  constructor
  · rintro (⟨q, h, k⟩ | ⟨q, h, k⟩)
    · exact ⟨q, .inl h, k⟩
    · exact ⟨q, .inr h, k⟩
  · rintro ⟨q, h | h, k⟩
    · exact .inl ⟨q, h, k⟩
    · exact .inr ⟨q, h, k⟩

/-- Beginning the next frame: the queues give one up, and every frame of the port's own is still on its way. -/
theorem PortState.sendNext_sendsOnly (ps : PortState) (hold : Bool) : SendsOnly ps (ps.sendNext hold) := by
  unfold PortState.sendNext
  split
  · rename_i hc
    have hs : ps.sending = none := by
      simp only [PortState.canSend, Bool.and_eq_true, beq_iff_eq] at hc
      exact hc.1.1.2
    split
    · exact ⟨⟨rfl, rfl, rfl, rfl, List.suffix_refl _⟩, rfl, rfl, rfl, rfl, fun _ h => h, fun _ h => h⟩
    · rename_i q ps' h
      rcases PortState.chooseFrame_shape h with ⟨rest, ho, k, rfl⟩ | ⟨t, rest, ht, rfl, rfl⟩
      · refine ⟨⟨rfl, rfl, rfl, rfl, List.suffix_refl _⟩, rfl, rfl, rfl, rfl, fun x hx => ?_, fun f hf => ?_⟩
        · rcases hx with hx | hx
          · rw [hs] at hx; cases hx
          · rw [ho] at hx
            rcases List.mem_cons.mp hx with rfl | hx
            · exact .inl rfl
            · exact .inr hx
        · rcases hf with hf | hf
          · rw [hs] at hf; cases hf
          · exact .inr hf
      · refine ⟨⟨rfl, rfl, rfl, rfl, ?_⟩, rfl, rfl, rfl, rfl, fun x hx => ?_, fun f hf => ?_⟩
        · rw [ht]; exact List.suffix_cons _ _
        · rcases hx with hx | h
          · rw [hs] at hx; cases hx
          · exact .inr h
        · rcases hf with hf | hf
          · rw [hs] at hf; cases hf
          · rw [ht] at hf
            rcases List.mem_cons.mp hf with rfl | hf
            · exact .inl rfl
            · exact .inr hf
  · exact .refl ps

/-! ### Visits -/

/-- What the end of a visit leaves alone: all but the poll position, the cycle mark and the visit. -/
structure PollsOnly (a b : PortState) : Prop where
  eq : b = { a with pollPos := b.pollPos, cyclePolled := b.cyclePolled, visit := b.visit }

theorem PortState.advance_pollsOnly (ps : PortState) : PollsOnly ps ps.advance := by
  refine ⟨?_⟩
  unfold PortState.advance
  split <;> rfl

theorem PortState.endVisit_pollsOnly (ps : PortState) : PollsOnly ps ps.endVisit := by
  refine ⟨?_⟩
  unfold PortState.endVisit
  split
  · rfl
  · dsimp only
    split
    · rw [(PortState.advance_pollsOnly _).eq]
    · rfl

theorem PortState.cutVisit_pollsOnly (ps : PortState) : PollsOnly ps ps.cutVisit := by
  unfold PortState.cutVisit
  split
  · exact ⟨rfl⟩
  · split
    · exact ⟨rfl⟩
    · exact ps.endVisit_pollsOnly

theorem PollsOnly.same {a b : PortState} (h : PollsOnly a b) : SamePort a b := by
  rw [h.eq]; exact ⟨rfl, rfl, rfl, rfl, List.suffix_refl _⟩

/-! ### The whole of a port's part in an event's end -/

/-- What the end of an event leaves alone on a port. -/
structure Quiet (a b : PortState) : Prop where
  same : SamePort a b
  stations : b.stations = a.stations
  awaiting : b.awaiting = a.awaiting
  holds : ∀ q, a.holds q → b.holds q
  forwards : ∀ f, a.forwards f → b.forwards f

theorem Quiet.refl (a : PortState) : Quiet a a := ⟨.refl a, rfl, rfl, fun _ h => h, fun _ h => h⟩

theorem Quiet.carries {a b : PortState} (h : Quiet a b) (f : Frame) (hf : a.carries f) : b.carries f := by
  rw [PortState.carries_iff] at *
  obtain ⟨q, hq, e⟩ := hf
  exact ⟨q, h.holds q hq, e⟩

theorem Quiet.trans {a b c : PortState} (h : Quiet a b) (k : Quiet b c) : Quiet a c :=
  ⟨h.same.trans k.same, k.stations.trans h.stations, k.awaiting.trans h.awaiting, fun f hf => k.holds f (h.holds f hf),
    fun f hf => k.forwards f (h.forwards f hf)⟩

theorem SendsOnly.quiet {a b : PortState} (h : SendsOnly a b) : Quiet a b := 
  ⟨h.same, h.stations, h.awaiting, h.holds, h.forwards⟩

theorem PollsOnly.quiet {a b : PortState} (h : PollsOnly a b) : Quiet a b := by
  rw [h.eq]; exact ⟨⟨rfl, rfl, rfl, rfl, List.suffix_refl _⟩, rfl, rfl, fun _ h => h, fun _ h => h⟩

/-- Two states that differ on the lines alone, and there by polls and sends alone. -/
structure LineQuiet (s t : State) : Prop where
  powered : t.powered = s.powered
  storeHeld : t.storeHeld = s.storeHeld
  garage : t.garage = s.garage
  pending : t.pending = s.pending
  onS : Quiet s.line.s t.line.s
  onG : Quiet s.line.g t.line.g
  passTable : t.line.passTable = s.line.passTable
  notices : t.line.noticeDrops = s.line.noticeDrops
  due : t.line.lineDueG = s.line.lineDueG

theorem LineQuiet.refl (s : State) : LineQuiet s s := ⟨rfl, rfl, rfl, rfl, .refl _, .refl _, rfl, rfl, rfl⟩

theorem LineQuiet.trans {s t u : State} (h : LineQuiet s t) (k : LineQuiet t u) : LineQuiet s u :=
  ⟨k.powered.trans h.powered, k.storeHeld.trans h.storeHeld, k.garage.trans h.garage, k.pending.trans h.pending,
    h.onS.trans k.onS, h.onG.trans k.onG, k.passTable.trans h.passTable, k.notices.trans h.notices, k.due.trans h.due⟩

theorem State.modPort_lineQuiet (s : State) (p : Port) (f : PortState → PortState) (h : ∀ ps, Quiet ps (f ps)) :
    LineQuiet s (s.modPort p f) := by
  cases p
  · exact ⟨rfl, rfl, rfl, rfl, h _, .refl _, rfl, rfl, rfl⟩
  · exact ⟨rfl, rfl, rfl, rfl, .refl _, h _, rfl, rfl, rfl⟩

theorem PortState.enterHold_quiet (ps : PortState) : Quiet ps ps.enterHold :=
  ps.cutVisit_pollsOnly.quiet.trans
    ⟨⟨rfl, rfl, rfl, rfl, List.suffix_refl _⟩, rfl, rfl, fun _ h => h, fun _ h => h⟩

/-- A hold cuts visits and turns, nothing else (R6, R18). -/
theorem State.enterHold_lineQuiet (s : State) : LineQuiet s s.enterHold := by
  unfold State.enterHold
  split
  · exact (s.modPort_lineQuiet .s _ PortState.enterHold_quiet).trans
      (State.modPort_lineQuiet _ .g _ PortState.enterHold_quiet)
  · exact .refl s

theorem State.sendNext_lineQuiet (s : State) (p : Port) : LineQuiet s (s.sendNext p) :=
  s.enterHold_lineQuiet.trans (State.modPort_lineQuiet _ p _ fun ps => (ps.sendNext_sendsOnly _).quiet)

theorem State.beginTurn_lineQuiet (s : State) (p : Port) : LineQuiet s (s.beginTurn p) :=
  (s.modPort_lineQuiet p (fun ps => { ps with turnLeft := 2 }) fun _ =>
    ⟨⟨rfl, rfl, rfl, rfl, List.suffix_refl _⟩, rfl, rfl, fun _ h => h, fun _ h => h⟩).trans (State.sendNext_lineQuiet _ p)

/-- What poll hold brings about after an event: visits cut and frames begun, nothing else (R17, R18). -/
theorem State.underHold_lineQuiet (s : State) : LineQuiet s s.underHold := by
  unfold State.underHold
  split
  · exact (s.sendNext_lineQuiet .s).trans (State.sendNext_lineQuiet _ .g)
  · exact .refl s

/-! ### The end of an exchange -/

/-- A port with no answer awaited. -/
def PortState.deaf (ps : PortState) : PortState := { ps with awaiting := false }

/-- A port whose visit goes on or ends. -/
theorem PortState.visitOver_quiet (ps : PortState) (again : Bool) : Quiet ps (if again then ps else ps.endVisit) := by
  split
  · exact .refl _
  · exact ps.endVisit_pollsOnly.quiet

/-- The end of an exchange on Port S is the end of its wait, then polls and sends. -/
theorem State.finishExchange_s (s : State) (more : Bool) (h : s.line.s.awaiting = true) :
    LineQuiet { s with line := { s.line with s := s.line.s.deaf } } (s.finishExchange .s more) := by
  unfold State.finishExchange
  simp only [State.port_s, h, if_true, State.applyDue]
  refine LineQuiet.trans ?_ (State.beginTurn_lineQuiet _ _)
  exact ⟨rfl, rfl, rfl, rfl, PortState.visitOver_quiet _ _, .refl _, rfl, rfl, rfl⟩

/-- The end of an exchange on Port G with no settings waiting is the end of its wait, then polls and sends. -/
theorem State.finishExchange_g (s : State) (more : Bool) (h : s.line.g.awaiting = true) (hd : s.line.lineDueG = []) :
    LineQuiet { s with line := { s.line with g := s.line.g.deaf } } (s.finishExchange .g more) := by
  unfold State.finishExchange
  simp only [State.port_g, h, if_true]
  refine LineQuiet.trans ?_ (State.beginTurn_lineQuiet _ _)
  simp only [State.applyDue, State.modPort, Line.modPort, hd, List.foldl_nil]
  exact ⟨rfl, rfl, rfl, rfl, .refl _, PortState.visitOver_quiet _ _, rfl, rfl, hd.symm ▸ rfl⟩

end Sys2Proof.Machine
end

