-- ==== Sys2Proof/Laws/Frames.lean ====
section
/-! SUPPORT. What an accepted frame of a station does, from the end of its exchange to the frames it leaves on their way:
one lemma for Port S and one for Port G, cited by every statement about a frame. -/

namespace Sys2Proof.Machine

/-! ### An event's effects -/


theorem State.run_queuesOnly (s : State) (f : Ev → Ev) : QueuesOnly s.line (s.run f).line :=
  Line.queueAll_queuesOnly _ _

theorem QueuesOnly.sameLines {a b : Line} (h : QueuesOnly a b) : SameLines a b := by
  rw [h.eq]
  exact ⟨⟨rfl, rfl, rfl, rfl, List.suffix_refl _⟩, ⟨rfl, rfl, rfl, rfl, List.suffix_refl _⟩, rfl, rfl⟩

theorem QueuesOnly.stations_s {a b : Line} (h : QueuesOnly a b) : b.s.stations = a.s.stations := by rw [h.eq]
theorem QueuesOnly.stations_g {a b : Line} (h : QueuesOnly a b) : b.g.stations = a.g.stations := by rw [h.eq]
theorem QueuesOnly.awaiting_s {a b : Line} (h : QueuesOnly a b) : b.s.awaiting = a.s.awaiting := by rw [h.eq]
theorem QueuesOnly.awaiting_g {a b : Line} (h : QueuesOnly a b) : b.g.awaiting = a.g.awaiting := by rw [h.eq]
theorem QueuesOnly.due {a b : Line} (h : QueuesOnly a b) : b.lineDueG = a.lineDueG := by rw [h.eq]

theorem LineQuiet.sameLines {s t : State} (h : LineQuiet s t) : SameLines s.line t.line :=
  ⟨h.onS.same, h.onG.same, h.passTable, h.due⟩

/-- The part reacts to a command with a next state. -/
theorem State.react_next (s : State) (f : State → State) (h : s.powered = true) :
    s.react f = .next (f s).underHold := by simp [State.react, h]

/-! ### A station is heard (R8, R120) -/

theorem State.heard_pending (s : State) (p : Port) (st : Station) (a : Bool) : (s.heard p st a).pending = s.pending := by
  cases p <;> rfl

theorem State.heard_powered (s : State) (p : Port) (st : Station) (a : Bool) : (s.heard p st a).powered = s.powered := by
  cases p <;> rfl

theorem State.heard_storeHeld (s : State) (p : Port) (st : Station) (a : Bool) :
    (s.heard p st a).storeHeld = s.storeHeld := by cases p <;> rfl

/-- The event of being heard: STATION_BACK, and the lift unit. -/
def heardEv (p : Port) (st : Station) (a : Bool) (e : Ev) : Ev :=
  let e := if st.poll == .silent then e.alert AlertKind.stationBack (w8 (portCode p) ++ w8 st.number) else e
  match roleLift st.role with
  | some l => e.modG fun g => g.modLift l fun u => u.answered (st.poll == .silent) a
  | none => e

theorem heardEv_out (p : Port) (st : Station) (a : Bool) (e : Ev) :
    (heardEv p st a e).out = if st.poll == .silent then
      (e.alert AlertKind.stationBack (w8 (portCode p) ++ w8 st.number)).out else e.out := by
  unfold heardEv
  dsimp only
  split <;> split <;> rfl

theorem State.heard_garage_eq (s : State) (p : Port) (st : Station) (a : Bool) :
    (s.heard p st a).garage = (heardEv p st a ⟨s.garage, []⟩).g := by cases p <;> rfl

/-- A station of no lift leaves the blocks behind the ports as they were when it is heard. -/
theorem State.heard_garage (s : State) (p : Port) (st : Station) (a : Bool) (h : roleLift st.role = none) :
    (s.heard p st a).garage = s.garage := by
  rw [State.heard_garage_eq]
  unfold heardEv
  simp only [h]
  split <;> rfl

/-- A lift's station that answers with an accepted answer is heard by its lift unit. -/
theorem State.heard_garage_lift (s : State) (p : Port) (st : Station) (l : Lift) (h : roleLift st.role = some l) :
    (s.heard p st true).garage = s.garage.heardLift l st := by
  rw [State.heard_garage_eq]
  unfold heardEv Garage.heardLift
  obtain ⟨n, role, poll, m, k⟩ := st
  simp only [h]
  cases poll <;> simp [LiftUnit.answered]

/-- The line after a station of a port is heard, before the frames of the event are queued. -/
theorem State.heard_line_s (s : State) (st : Station) (a : Bool) :
    QueuesOnly { s.line with s := { s.line.s with stations := s.line.s.answeredBy st } } (s.heard .s st a).line := by
  have h := State.run_queuesOnly
    (s.modPort .s fun ps => ps.modStation st.number fun x =>
      { x with misses := 0, poll := .active, skips := if st.poll == .silent then 0 else x.skips }) (heardEv .s st a)
  have e : (s.modPort .s fun ps => ps.modStation st.number fun x =>
      { x with misses := 0, poll := .active, skips := if st.poll == .silent then 0 else x.skips }).line =
      { s.line with s := { s.line.s with stations := s.line.s.answeredBy st } } := by
    simp only [State.modPort, Line.modPort, PortState.modStation, PortState.answeredBy, beq_iff_eq]
  rw [e] at h
  exact h

theorem State.heard_line_g (s : State) (st : Station) (a : Bool) :
    QueuesOnly { s.line with g := { s.line.g with stations := s.line.g.answeredBy st } } (s.heard .g st a).line := by
  have h := State.run_queuesOnly
    (s.modPort .g fun ps => ps.modStation st.number fun x =>
      { x with misses := 0, poll := .active, skips := if st.poll == .silent then 0 else x.skips }) (heardEv .g st a)
  have e : (s.modPort .g fun ps => ps.modStation st.number fun x =>
      { x with misses := 0, poll := .active, skips := if st.poll == .silent then 0 else x.skips }).line =
      { s.line with g := { s.line.g with stations := s.line.g.answeredBy st } } := by
    simp only [State.modPort, Line.modPort, PortState.modStation, PortState.answeredBy, beq_iff_eq]
  rw [e] at h
  exact h

/-- Being heard leaves room for an answer where there was room. -/
theorem State.heard_room (s : State) (p : Port) (st : Station) (a : Bool) (h : s.line.s.hasRoom) :
    (s.heard p st a).line.s.hasRoom := by
  have e : (s.heard p st a).line = ((heardEv p st a ⟨s.garage, []⟩).out).foldl Line.queueOut
      (s.modPort p fun ps => ps.modStation st.number fun x =>
      { x with misses := 0, poll := .active, skips := if st.poll == .silent then 0 else x.skips }).line := by
    cases p <;> rfl
  rw [e]
  refine Line.queueAll_room ?_ (by cases p <;> exact h)
  intro o ho
  rw [heardEv_out] at ho
  split at ho
  · simp only [Ev.alert_out, List.nil_append, List.mem_singleton] at ho
    rw [ho]
  · cases ho

/-- Being heard makes Port S's own queue at most one longer. -/
theorem State.heard_length (s : State) (p : Port) (st : Station) (a : Bool) :
    (s.heard p st a).line.s.ownQueue.length ≤ s.line.s.ownQueue.length + 1 := by
  have e : (s.heard p st a).line = ((heardEv p st a ⟨s.garage, []⟩).out).foldl Line.queueOut
      (s.modPort p fun ps => ps.modStation st.number fun x =>
      { x with misses := 0, poll := .active, skips := if st.poll == .silent then 0 else x.skips }).line := by
    cases p <;> rfl
  rw [e]
  refine (Line.queueAll_length _ _).trans ?_
  have h1 : (heardEv p st a ⟨s.garage, []⟩).out.length ≤ 1 := by
    rw [heardEv_out]; split <;> simp
  have h2 : (s.modPort p fun ps => ps.modStation st.number fun x =>
      { x with misses := 0, poll := .active, skips := if st.poll == .silent then 0 else x.skips }).line.s.ownQueue
      = s.line.s.ownQueue := by cases p <;> rfl
  rw [h2]
  omega

/-! ### The frames of an event, queued -/

/-- A frame that an event of a caller of Port S answers with joins Port S's own queue when there is room, whatever the
event originates after it. -/
theorem State.run_answers (s : State) (f : Ev → Ev) (n : Nat) (kind : Byte) (payload : List Byte) (m : Mark)
    (more : List Out) (hout : (f ⟨s.garage, []⟩).out = ⟨.reply .s n, kind, payload, m⟩ :: more)
    (hk : kind ≠ Kind.alert) (h : s.line.s.hasRoom) :
    ⟨originated n kind payload, m⟩ ∈ (s.run f).line.s.ownQueue := by
  have e : (s.run f).line = (f ⟨s.garage, []⟩).out.foldl Line.queueOut s.line := rfl
  rw [e, hout, List.foldl_cons]
  exact Line.queueAll_keeps (Line.enqueue_reply h) hk

/-- An ALERT of an event joins Port S's own queue when the office station is there and the queue has room for every frame
of the event. -/
theorem State.run_alerts (s : State) (f : Ev → Ev) (n now kind : Nat) (args : List Byte) (before after : List Out)
    (hout : (f ⟨s.garage, []⟩).out
      = before ++ ⟨.role .office, Kind.alert, w8 kind ++ w32 now ++ args, .plain⟩ :: after)
    (hn : s.line.stationOfRole .office = some n) (hs : s.line.s.hasStation n = true)
    (h : s.line.s.ownQueue.length + (before.length + after.length + 1) ≤ 48) :
    ∃ q ∈ (s.run f).line.s.ownQueue, q.frame = alertFrame n now kind args := by
  refine ⟨⟨alertFrame n now kind args, .plain⟩, ?_, rfl⟩
  have e : (s.run f).line = (f ⟨s.garage, []⟩).out.foldl Line.queueOut s.line := rfl
  rw [e, hout, List.foldl_append, List.foldl_cons]
  have hq := Line.queueAll_queuesOnly before s.line
  have hl := Line.queueAll_length before s.line
  generalize before.foldl Line.queueOut s.line = ln at hq hl
  have hn' : ln.stationOfRole .office = some n := by
    rw [← hn]; unfold Line.stationOfRole; rw [hq.stations_s, hq.stations_g]
  have hs' : ln.s.hasStation n = true := by
    rw [← hs]; unfold PortState.hasStation; rw [hq.stations_s]
  have hlen := ln.queueOut_length ⟨.role .office, Kind.alert, w8 kind ++ w32 now ++ args, .plain⟩
  refine Line.queueAll_keeps_short ?_ (by omega)
  unfold Line.queueOut
  simp only [hn']
  unfold Line.sendTo Line.reaches
  simp only [hs', if_true]
  exact Line.enqueue_reply (.inl (by omega))

/-! ### The whole of a frame, on Port S -/

/-- What is left after an exchange on Port S has ended, from the state the frame's block has left. -/
theorem State.ended_s (s u : State) (st : Station) (more : Bool) (hline : SameLines s.line u.line)
    (hst : u.line.s.stations = s.line.s.answeredBy st) (hg : u.line.g.stations = s.line.g.stations)
    (hw : u.line.s.awaiting = true) (hpw : u.powered = s.powered) (hsh : u.storeHeld = s.storeHeld)
    (hpd : u.pending = s.pending) :
    HeardS s (u.finishExchange .s more).underHold st ∧ (u.finishExchange .s more).underHold.garage = u.garage ∧
      ∀ f, u.line.s.carries f → (u.finishExchange .s more).underHold.line.s.carries f := by
  have q := (u.finishExchange_s more hw).trans (State.underHold_lineQuiet _)
  refine ⟨⟨⟨q.powered.trans hpw, q.storeHeld.trans hsh, q.pending.trans hpd, ?_⟩, q.onS.awaiting, ?_, ?_⟩,
    q.garage, fun f hf => q.onS.carries f hf⟩
  · refine hline.trans (SameLines.trans ?_ q.sameLines)
    exact ⟨⟨rfl, rfl, rfl, rfl, List.suffix_refl _⟩, .refl _, rfl, rfl⟩
  · rw [q.onS.stations]; exact hst
  · rw [q.onG.stations]; exact hg

/-- What being heard leaves of the lines, on Port S. -/
theorem State.heard_s (s : State) (st : Station) (a : Bool) :
    SameLines s.line (s.heard .s st a).line ∧ (s.heard .s st a).line.s.stations = s.line.s.answeredBy st ∧
      (s.heard .s st a).line.g = { s.line.g with ownQueue := (s.heard .s st a).line.g.ownQueue } ∧
      (s.heard .s st a).line.s.awaiting = s.line.s.awaiting ∧ (s.heard .s st a).line.s.visit = s.line.s.visit := by
  have h := s.heard_line_s st a
  generalize (s.heard .s st a).line = ln at h
  rw [h.eq]
  exact ⟨⟨⟨rfl, rfl, rfl, rfl, List.suffix_refl _⟩, ⟨rfl, rfl, rfl, rfl, List.suffix_refl _⟩, rfl, rfl⟩, rfl, rfl, rfl, rfl⟩

/-- What being heard leaves of the lines, on Port G. -/
theorem State.heard_g (s : State) (st : Station) (a : Bool) :
    SameLines s.line (s.heard .g st a).line ∧ (s.heard .g st a).line.g.stations = s.line.g.answeredBy st ∧
      (s.heard .g st a).line.s = { s.line.s with ownQueue := (s.heard .g st a).line.s.ownQueue } ∧
      (s.heard .g st a).line.g.awaiting = s.line.g.awaiting ∧ (s.heard .g st a).line.g.visit = s.line.g.visit := by
  have h := s.heard_line_g st a
  generalize (s.heard .g st a).line = ln at h
  rw [h.eq]
  exact ⟨⟨⟨rfl, rfl, rfl, rfl, List.suffix_refl _⟩, ⟨rfl, rfl, rfl, rfl, List.suffix_refl _⟩, rfl, rfl⟩, rfl, rfl, rfl, rfl⟩

/-- An answer changes neither the role nor the number of any station. -/
theorem PortState.answeredBy_role (ps : PortState) (st : Station) (r : Role) :
    ((ps.answeredBy st).find? fun x => x.role == r).map Station.number
      = (ps.stations.find? fun x => x.role == r).map Station.number := by
  unfold PortState.answeredBy
  generalize ps.stations = l
  induction l with
  | nil => rfl
  | cons x rest ih =>
    simp only [List.map_cons, List.find?_cons]
    by_cases h : x.number = st.number <;> simp only [h, if_true, if_false] <;> cases x.role == r <;>
      first | exact ih | simp [h]

/-- The office station is found as before once a station of Port S has answered. -/
theorem State.heard_office (s : State) (st : Station) (a : Bool) (r : Role) :
    (s.heard .s st a).line.stationOfRole r = s.line.stationOfRole r := by
  have h := s.heard_s st a
  unfold Line.stationOfRole
  rw [h.2.1, h.2.2.1]
  simp only [List.find?_append]
  rw [Option.map_or, Option.map_or, PortState.answeredBy_role]

/-- The office station is found as before once a station of Port G has answered. -/
theorem State.heard_office_g (s : State) (st : Station) (a : Bool) (r : Role) :
    (s.heard .g st a).line.stationOfRole r = s.line.stationOfRole r := by
  have h := s.heard_g st a
  unfold Line.stationOfRole
  rw [h.2.1, h.2.2.1]
  simp only [List.find?_append]
  rw [Option.map_or, Option.map_or, PortState.answeredBy_role]

theorem State.heard_hasStation (s : State) (st : Station) (a : Bool) (n : Nat) :
    (s.heard .s st a).line.s.hasStation n = s.line.s.hasStation n := by
  have h := s.heard_s st a
  unfold PortState.hasStation
  rw [h.2.1]
  simp only [PortState.answeredBy, List.any_map]
  congr 1
  funext x
  simp only [Function.comp]
  split <;> rfl

/-- An event run between the hearing of a station of Port S and the end of its exchange: the blocks behind the ports are
as the event leaves them, its answer and its alerts are on their way, and the lines are otherwise as they were. -/
theorem State.event_s (s : State) (st : Station) (more : Bool) (f : Ev → Ev) (ask : Asking s .s st)
    (hl : roleLift st.role = none) :
    HeardS s (((s.heard .s st true).run f).finishExchange .s more).underHold st ∧
      (((s.heard .s st true).run f).finishExchange .s more).underHold.garage = (f ⟨s.garage, []⟩).g ∧
      (∀ n kind payload m outs, (f ⟨s.garage, []⟩).out = ⟨.reply .s n, kind, payload, m⟩ :: outs →
        kind ≠ Kind.alert → s.line.s.hasRoom →
        (((s.heard .s st true).run f).finishExchange .s more).underHold.line.s.carries (originated n kind payload)) ∧
      ∀ n now kind args before after,
        (f ⟨s.garage, []⟩).out = before ++ ⟨.role .office, Kind.alert, w8 kind ++ w32 now ++ args, .plain⟩ :: after →
        before.length + after.length ≤ 2 → OfficeHears s n →
        (((s.heard .s st true).run f).finishExchange .s more).underHold.line.s.carries (alertFrame n now kind args) := by
  have hh := s.heard_s st true
  have hr := State.run_queuesOnly (s.heard .s st true) f
  have hgar := s.heard_garage .s st true hl
  obtain ⟨a, b, c⟩ := State.ended_s s ((s.heard .s st true).run f) st more (hh.1.trans hr.sameLines)
    (hr.stations_s.trans hh.2.1) (by rw [hr.stations_g, hh.2.2.1])
    (by rw [hr.awaiting_s, hh.2.2.2.1]; exact PortState.polled_awaiting ask.2)
    (by rw [State.run_powered, State.heard_powered]) (by rw [State.run_storeHeld, State.heard_storeHeld])
    (by rw [State.run_pending, State.heard_pending])
  refine ⟨a, ?_, ?_, ?_⟩
  · rw [b, State.run_garage, hgar]
  · intro n kind payload m outs hout hk hroom
    exact c _ (.inr ⟨_, State.run_answers _ f n kind payload m outs (by rw [hgar]; exact hout) hk
      (s.heard_room .s st true hroom), rfl⟩)
  · intro n now kind args before after hout hlen ho
    have hlen' := s.heard_length .s st true
    have := ho.2.2
    exact c _ (.inr (State.run_alerts _ f n now kind args before after (by rw [hgar]; exact hout)
      (by rw [State.heard_office]; exact ho.1) (by rw [State.heard_hasStation]; exact ho.2.1) (by omega)))

/-- An event run between the hearing of a lift's station and the end of its exchange on Port G, with no settings for that
port waiting. -/
theorem State.event_g (s : State) (st : Station) (l : Lift) (more : Bool) (f : Ev → Ev) (ask : Asking s .g st)
    (hl : roleLift st.role = some l) (hd : s.line.lineDueG = []) :
    HeardG s (((s.heard .g st true).run f).finishExchange .g more).underHold st ∧
      (((s.heard .g st true).run f).finishExchange .g more).underHold.garage = (f ⟨s.garage.heardLift l st, []⟩).g ∧
      ∀ n now kind args before after,
        (f ⟨s.garage.heardLift l st, []⟩).out
          = before ++ ⟨.role .office, Kind.alert, w8 kind ++ w32 now ++ args, .plain⟩ :: after →
        before.length + after.length ≤ 2 → OfficeHears s n →
        (((s.heard .g st true).run f).finishExchange .g more).underHold.line.s.carries (alertFrame n now kind args) := by
  have hh := s.heard_g st true
  have hr := State.run_queuesOnly (s.heard .g st true) f
  have hgar := s.heard_garage_lift .g st l hl
  have hw : ((s.heard .g st true).run f).line.g.awaiting = true := by
    rw [hr.awaiting_g, hh.2.2.2.1]; exact PortState.polled_awaiting ask.2
  have hdue : ((s.heard .g st true).run f).line.lineDueG = [] := by rw [hr.due, hh.1.lineDueG, hd]
  have q := (State.finishExchange_g _ more hw hdue).trans (State.underHold_lineQuiet _)
  have deaf : SameLines ((s.heard .g st true).run f).line
      { ((s.heard .g st true).run f).line with g := ((s.heard .g st true).run f).line.g.deaf } :=
    ⟨.refl _, ⟨rfl, rfl, rfl, rfl, List.suffix_refl _⟩, rfl, rfl⟩
  have same := (hh.1.trans hr.sameLines).trans (deaf.trans q.sameLines)
  refine ⟨⟨⟨?_, ?_, ?_, same⟩, q.onG.awaiting, ?_, ?_⟩, ?_, ?_⟩
  · rw [q.powered, State.run_powered, State.heard_powered]
  · rw [q.storeHeld, State.run_storeHeld, State.heard_storeHeld]
  · rw [q.pending, State.run_pending, State.heard_pending]
  · rw [q.onG.stations]; exact hr.stations_g.trans hh.2.1
  · rw [q.onS.stations]; exact (hr.stations_s.trans (by rw [hh.2.2.1]))
  · rw [q.garage, State.run_garage, hgar]
  · intro n now kind args before after hout hlen ho
    have hlen' := s.heard_length .g st true
    have := ho.2.2
    refine q.onS.carries _ (.inr (State.run_alerts _ f n now kind args before after (by rw [hgar]; exact hout) ?_ ?_
      (by omega)))
    · rw [State.heard_office_g]; exact ho.1
    · refine Eq.trans ?_ ho.2.1
      unfold PortState.hasStation
      rw [hh.2.2.1]

/-! ### Frame commands -/

/-- A frame to the part on Port S that passes the gates runs its block, when the block is an event of the blocks behind
the ports. -/
theorem State.frame_s (s : State) (st : Station) (kind flags : Byte) (pl : List Byte) (f : Caller → List Byte → Ev → Ev)
    (ask : Asking s .s st) (hl : roleLift st.role = none) (hp : permits st.role kind = true)
    (hm : takenIn s.garage.mode kind = true) (hw : wellShaped kind pl = true) (h48 : pl.length ≤ 48) :
    s.frame .s kind flags pl (evBody f)
      = .next (((s.heard .s st true).run fun e => f ⟨.s, st.number, st.role⟩ pl e).finishExchange .s
          (moreFlag flags)).underHold := by
  have hgar := s.heard_garage .s st true hl
  have hn : ¬ 48 < pl.length := by omega
  unfold State.frame
  rw [State.react_next _ _ ask.1]
  unfold State.receive State.dataFrame State.judge
  have ha : s.line.s.awaiting = true := PortState.polled_awaiting ask.2
  have hq : s.line.s.polled = some st := ask.2
  simp [ha, hq, hn, hgar, hp, hm, hw, evBody]

/-- A block whose effects may leave work for the lifts is an event followed by that work. -/
theorem workBody_eq (f : Caller → List Byte → Ev → Ev) : workBody f = evBody fun c pl e => settle (f c pl e) := rfl

@[simp] theorem Garage.heardLift_mode (g : Garage) (l : Lift) (st : Station) : (g.heardLift l st).mode = g.mode := by
  cases l <;> rfl

/-- A frame of a lift's station to the part on Port G that passes the gates runs its block. -/
theorem State.frame_g (s : State) (st : Station) (l : Lift) (kind flags : Byte) (pl : List Byte)
    (f : Caller → List Byte → Ev → Ev) (ask : Asking s .g st) (hl : roleLift st.role = some l)
    (hp : permits st.role kind = true) (hm : takenIn s.garage.mode kind = true) (hw : wellShaped kind pl = true)
    (h48 : pl.length ≤ 48) :
    s.frame .g kind flags pl (evBody f)
      = .next (((s.heard .g st true).run fun e => f ⟨.g, st.number, st.role⟩ pl e).finishExchange .g
          (moreFlag flags)).underHold := by
  have hgar := s.heard_garage_lift .g st l hl
  have hn : ¬ 48 < pl.length := by omega
  unfold State.frame
  rw [State.react_next _ _ ask.1]
  unfold State.receive State.dataFrame State.judge
  have ha : s.line.g.awaiting = true := PortState.polled_awaiting ask.2
  have hq : s.line.g.polled = some st := ask.2
  simp [ha, hq, hn, hgar, hp, hm, hw, evBody]

end Sys2Proof.Machine
end

