-- ==== Sys2Proof/Laws/Sends.lean ====
section
/-! SUPPORT. A frame that an event originates is on its way once the event is over, or its loss has been counted. -/

namespace Sys2Proof.Machine

theorem tallyUp_le (n : Nat) : n ≤ tallyUp n := by unfold tallyUp; split <;> omega

theorem tallyUp_lt {n : Nat} (h : n < 65535) : n < tallyUp n := by unfold tallyUp Config.max16; split <;> omega

/-! ### The notice drop tally never falls -/

theorem Line.enqueue_notices (ln : Line) (p : Port) (q : QFrame) : ln.noticeDrops ≤ (ln.enqueue p q).noticeDrops := by
  unfold Line.enqueue
  cases p <;> (repeat' split) <;> first | exact Nat.le_refl _ | exact tallyUp_le _

theorem Line.sendTo_notices (ln : Line) (n : Nat) (o : Out) : ln.noticeDrops ≤ (ln.sendTo n o).noticeDrops := by
  unfold Line.sendTo
  split
  · exact ln.enqueue_notices _ _
  · exact tallyUp_le _

theorem Line.queueOut_notices (ln : Line) (o : Out) : ln.noticeDrops ≤ (ln.queueOut o).noticeDrops := by
  unfold Line.queueOut
  split
  · exact ln.enqueue_notices _ _
  · exact ln.sendTo_notices _ _
  · split
    · exact ln.sendTo_notices _ _
    · exact tallyUp_le _

theorem Line.queueAll_notices (outs : List Out) (ln : Line) :
    ln.noticeDrops ≤ (outs.foldl Line.queueOut ln).noticeDrops := by
  induction outs generalizing ln with
  | nil => exact Nat.le_refl _
  | cons o rest ih => exact (ln.queueOut_notices o).trans (ih _)

theorem State.run_notices (s : State) (f : Ev → Ev) : s.line.noticeDrops ≤ (s.run f).line.noticeDrops :=
  Line.queueAll_notices _ _

/-! ### Queued, or counted as lost -/

/-- A frame waits in an own queue for a station that `P` admits, or more losses are counted than `d`, or the tally stood at
its top. -/
def Line.queuedOrLost (ln : Line) (P : Port → Nat → Prop) (d : Nat) (kind : Byte) (payload : List Byte) : Prop :=
  (∃ p n m, P p n ∧ (⟨originated n kind payload, m⟩ : QFrame) ∈ (ln.port p).ownQueue) ∨ d < ln.noticeDrops ∨ 65535 ≤ d

section
variable {ln ln' : Line} {P : Port → Nat → Prop} {d : Nat} {kind : Byte} {payload : List Byte}

theorem Line.lost (hd : d ≤ ln.noticeDrops) (h : ln'.noticeDrops = tallyUp ln.noticeDrops) :
    ln'.queuedOrLost P d kind payload := by
  by_cases h1 : 65535 ≤ d
  · exact .inr (.inr h1)
  · refine .inr (.inl ?_)
    rw [h]
    by_cases h2 : ln.noticeDrops < 65535
    · have := tallyUp_lt h2; omega
    · have := tallyUp_le ln.noticeDrops; omega

/-- A frame offered to an own queue is there, or counted as lost. -/
theorem Line.enqueue_queued {p : Port} {n : Nat} {m : Mark} (hP : P p n) (hd : d ≤ ln.noticeDrops) :
    (ln.enqueue p ⟨originated n kind payload, m⟩).queuedOrLost P d kind payload := by
  unfold Line.enqueue
  split
  · cases p
    · dsimp only
      split
      · exact .inl ⟨.s, n, m, hP, by simp [Line.port]⟩
      · exact .inl ⟨.s, n, m, hP, by simp [Line.port, Line.dropNotice]⟩
    · exact .inl ⟨.g, n, m, hP, by simp [Line.port]⟩
  · exact Line.lost hd rfl

/-- A frame for the station with a role is queued for the station that has it, on the port that serves it, or counted. -/
theorem Line.queueOut_queued {o : Out} {r : Role} (ho : o.dest = .role r)
    (hP : ∀ p n, ln.stationOfRole r = some n → ln.reaches n = some p → P p n) (hd : d ≤ ln.noticeDrops) :
    (ln.queueOut o).queuedOrLost P d o.kind o.payload := by
  unfold Line.queueOut
  rw [ho]
  dsimp only
  split
  · rename_i n hn
    unfold Line.sendTo
    split
    · rename_i p hp
      exact Line.enqueue_queued (hP p n hn hp) hd
    · exact Line.lost hd rfl
  · exact Line.lost hd rfl

/-- A frame that waits stays, or its loss is counted, when another is offered. -/
theorem Line.enqueue_stays {p : Port} {q : QFrame} (hd : d ≤ ln.noticeDrops) (h : ln.queuedOrLost P d kind payload) :
    (ln.enqueue p q).queuedOrLost P d kind payload := by
  rcases h with ⟨p', n, m, hP, h⟩ | h | h
  · unfold Line.enqueue
    split
    · cases p
      · dsimp only
        split
        · refine .inl ⟨p', n, m, hP, ?_⟩
          cases p'
          · exact List.mem_append_left _ h
          · exact h
        · exact Line.lost hd rfl
      · refine .inl ⟨p', n, m, hP, ?_⟩
        cases p'
        · exact h
        · exact List.mem_append_left _ h
    · exact Line.lost hd rfl
  · exact .inr (.inl (Nat.lt_of_lt_of_le h (ln.enqueue_notices p q)))
  · exact .inr (.inr h)

theorem Line.queueOut_stays {o : Out} (hd : d ≤ ln.noticeDrops) (h : ln.queuedOrLost P d kind payload) :
    (ln.queueOut o).queuedOrLost P d kind payload := by
  unfold Line.queueOut Line.sendTo
  (repeat' split) <;> first | exact Line.enqueue_stays hd h | exact Line.lost hd rfl

theorem Line.queueAll_stays {outs : List Out} (hd : d ≤ ln.noticeDrops) (h : ln.queuedOrLost P d kind payload) :
    (outs.foldl Line.queueOut ln).queuedOrLost P d kind payload := by
  induction outs generalizing ln with
  | nil => exact h
  | cons o rest ih => exact ih (hd.trans (ln.queueOut_notices o)) (Line.queueOut_stays hd h)

/-- Queueing moves no station. -/
theorem QueuesOnly.places (h : QueuesOnly ln ln') :
    (∀ r, ln'.stationOfRole r = ln.stationOfRole r) ∧ ∀ n, ln'.reaches n = ln.reaches n := by
  rw [h.eq]; exact ⟨fun _ => rfl, fun _ => rfl⟩

/-- Every frame of an event for the station with a role is queued, or its loss counted, when the event's frames have joined
the queues. -/
theorem Line.queueAll_queued {outs : List Out} {o : Out} {r : Role} (ho : o ∈ outs) (hr : o.dest = .role r)
    (hP : ∀ p n, ln.stationOfRole r = some n → ln.reaches n = some p → P p n) (hd : d ≤ ln.noticeDrops) :
    (outs.foldl Line.queueOut ln).queuedOrLost P d o.kind o.payload := by
  induction outs generalizing ln with
  | nil => cases ho
  | cons x rest ih =>
    rcases List.mem_cons.mp ho with rfl | ho
    · rw [List.foldl_cons]
      exact Line.queueAll_stays (hd.trans (ln.queueOut_notices o)) (Line.queueOut_queued hr hP hd)
    · have k := (ln.queueOut_queuesOnly x).places
      exact ih ho (fun p n h1 h2 => hP p n (k.1 r ▸ h1) (k.2 n ▸ h2)) (hd.trans (ln.queueOut_notices x))

/-- What is queued, or counted, before an exchange ends is on its way, or counted, after it. -/
theorem LineQuiet.sends {u t : State} (h : LineQuiet u t) {s : State} {r : Role}
    (k : u.line.queuedOrLost (s.line.Serves r) s.line.noticeDrops kind payload) : Sends s t r kind payload := by
  rcases k with ⟨p, n, m, hP, k⟩ | k | k
  · refine .inl ⟨p, n, hP, ?_⟩
    cases p
    · exact h.onS.carries _ (.inr ⟨_, k, rfl⟩)
    · exact h.onG.carries _ (.inr ⟨_, k, rfl⟩)
  · exact .inr (.inl (by rw [h.notices]; exact k))
  · exact .inr (.inr k)

end

/-! ### The station of a role -/

theorem Line.hasStation_of {ps : PortState} {st : Station} (h : st ∈ ps.stations) : ps.hasStation st.number = true :=
  List.any_eq_true.mpr ⟨st, h, by simp⟩

/-- The station found for a role, and the port that reaches it, serve the role: tables as R3 lets them be have it on a port
that may have the role. -/
theorem Line.serves_of {ln : Line} {r : Role} {p : Port} {n : Nat} (hn : ln.stationOfRole r = some n)
    (hp : ln.reaches n = some p) : ln.Serves r p n := by
  refine ⟨hn, hp, fun ok => ?_⟩
  obtain ⟨st, hf, rfl⟩ := Option.map_eq_some_iff.mp hn
  have hr : st.role = r := by simpa using List.find?_some hf
  rcases List.mem_append.mp (List.mem_of_find?_eq_some hf) with hs | hg
  · have : p = .s := by
      unfold Line.reaches at hp
      rw [if_pos (Line.hasStation_of hs)] at hp
      exact (Option.some.inj hp).symm
    rw [this, ← hr]
    exact ok.s.roles st hs
  · have hno : ln.s.hasStation st.number = false := by
      rw [Bool.eq_false_iff]
      intro hy
      obtain ⟨x, hx, hxn⟩ := List.any_eq_true.mp hy
      have hd := ok.distinct
      rw [List.map_append, List.nodup_append] at hd
      exact hd.2.2 _ (List.mem_map_of_mem hx) _ (List.mem_map_of_mem hg) (by simpa using hxn)
    have : p = .g := by
      unfold Line.reaches at hp
      rw [hno] at hp
      simp only [Bool.false_eq_true, if_false] at hp
      split at hp
      · exact (Option.some.inj hp).symm
      · cases hp
    rw [this, ← hr]
    exact ok.g.roles st hg

/-- A change of stations that keeps numbers and roles moves no role. -/
theorem Line.modStation_places (ln : Line) (p : Port) (n : Nat) (f : Station → Station)
    (h : ∀ st, (f st).number = st.number ∧ (f st).role = st.role) :
    (∀ r, (ln.modPort p fun ps => ps.modStation n f).stationOfRole r = ln.stationOfRole r)
      ∧ ∀ m, (ln.modPort p fun ps => ps.modStation n f).reaches m = ln.reaches m := by
  have one : ∀ (q : Station → Bool), (∀ st, q (f st) = q st) → ∀ l : List Station,
      ((l.map fun st => if st.number = n then f st else st).find? q).map Station.number
        = (l.find? q).map Station.number := by
    intro q hq l
    induction l with
    | nil => rfl
    | cons a rest ih =>
      simp only [List.map_cons, List.find?_cons]
      by_cases ha : a.number = n <;> simp only [ha, if_true, if_false, hq] <;> cases q a <;>
        simp_all [(h a).1]
  have many : ∀ (m : Nat) (l : List Station),
      (l.map fun st => if st.number = n then f st else st).any (fun st => st.number == m)
        = l.any fun st => st.number == m := by
    intro m l
    induction l with
    | nil => rfl
    | cons a rest ih =>
      simp only [List.map_cons, List.any_cons, ih]
      split <;> simp [(h a).1]
  constructor
  · intro r
    unfold Line.stationOfRole
    have hq : ∀ st, ((f st).role == r) = (st.role == r) := fun st => by rw [(h st).2]
    cases p
    · simp only [Line.modPort, PortState.modStation, List.find?_append, Option.map_or, one (fun st => st.role == r) hq]
    · simp only [Line.modPort, PortState.modStation, List.find?_append, Option.map_or, one (fun st => st.role == r) hq]
  · intro m
    unfold Line.reaches PortState.hasStation
    cases p <;> simp [Line.modPort, PortState.modStation, many]

theorem State.heard_notices (s : State) (p : Port) (st : Station) (a : Bool) :
    s.line.noticeDrops ≤ (s.heard p st a).line.noticeDrops := by
  refine Nat.le_trans ?_ (State.run_notices _ _)
  cases p <;> exact Nat.le_refl _

theorem State.heard_places (s : State) (p : Port) (st : Station) (a : Bool) :
    (∀ r, (s.heard p st a).line.stationOfRole r = s.line.stationOfRole r)
      ∧ ∀ n, (s.heard p st a).line.reaches n = s.line.reaches n := by
  let f : Station → Station := fun x =>
    { x with misses := 0, poll := .active, skips := if st.poll == .silent then 0 else x.skips }
  have k := s.line.modStation_places p st.number f fun x => ⟨rfl, rfl⟩
  have q : QueuesOnly (s.line.modPort p fun ps => ps.modStation st.number f) (s.heard p st a).line :=
    (State.run_queuesOnly (s.modPort p fun ps => ps.modStation st.number f) _)
  exact ⟨fun r => (q.places.1 r).trans (k.1 r), fun n => (q.places.2 n).trans (k.2 n)⟩

/-- Every frame of an event of a station of Port S for the station with a role is on its way, or its loss counted, once the
exchange has ended. -/
theorem State.event_sends_s (s : State) (st : Station) (more : Bool) (f : Ev → Ev) (ask : Asking s .s st)
    (hl : roleLift st.role = none) (o : Out) (ho : o ∈ (f ⟨s.garage, []⟩).out) {r : Role} (hr : o.dest = .role r) :
    Sends s (((s.heard .s st true).run f).finishExchange .s more).underHold r o.kind o.payload := by
  have hh := s.heard_s st true
  have hq := State.run_queuesOnly (s.heard .s st true) f
  have hw : ((s.heard .s st true).run f).line.s.awaiting = true := by
    rw [hq.awaiting_s, hh.2.2.2.1]; exact PortState.polled_awaiting ask.2
  refine ((State.finishExchange_s _ more hw).trans (State.underHold_lineQuiet _)).sends ?_
  have e : ((s.heard .s st true).run f).line = (f ⟨s.garage, []⟩).out.foldl Line.queueOut (s.heard .s st true).line := by
    rw [← s.heard_garage .s st true hl]; rfl
  have hp := s.heard_places .s st true
  have k := Line.queueAll_queued (P := s.line.Serves r) ho hr
    (fun p n h1 h2 => Line.serves_of (hp.1 r ▸ h1) (hp.2 n ▸ h2)) (s.heard_notices .s st true)
  rw [← e] at k
  rcases k with ⟨p, n, m, hP, k⟩ | k | k
  · exact .inl ⟨p, n, m, hP, by cases p <;> exact k⟩
  · exact .inr (.inl k)
  · exact .inr (.inr k)

/-- Every frame of an event of a lift's station for the station with a role is on its way, or its loss counted, once the
exchange has ended. -/
theorem State.event_sends_g (s : State) (st : Station) (l : Lift) (more : Bool) (f : Ev → Ev) (ask : Asking s .g st)
    (hl : roleLift st.role = some l) (hd : s.line.lineDueG = []) (o : Out)
    (ho : o ∈ (f ⟨s.garage.heardLift l st, []⟩).out) {r : Role} (hr : o.dest = .role r) :
    Sends s (((s.heard .g st true).run f).finishExchange .g more).underHold r o.kind o.payload := by
  have hh := s.heard_g st true
  have hq := State.run_queuesOnly (s.heard .g st true) f
  have hw : ((s.heard .g st true).run f).line.g.awaiting = true := by
    rw [hq.awaiting_g, hh.2.2.2.1]; exact PortState.polled_awaiting ask.2
  have hdue : ((s.heard .g st true).run f).line.lineDueG = [] := by rw [hq.due, hh.1.lineDueG, hd]
  refine ((State.finishExchange_g _ more hw hdue).trans (State.underHold_lineQuiet _)).sends ?_
  have e : ((s.heard .g st true).run f).line
      = (f ⟨s.garage.heardLift l st, []⟩).out.foldl Line.queueOut (s.heard .g st true).line := by
    rw [← s.heard_garage_lift .g st l hl]; rfl
  have hp := s.heard_places .g st true
  have k := Line.queueAll_queued (P := s.line.Serves r) ho hr
    (fun p n h1 h2 => Line.serves_of (hp.1 r ▸ h1) (hp.2 n ▸ h2)) (s.heard_notices .g st true)
  rw [← e] at k
  rcases k with ⟨p, n, m, hP, k⟩ | k | k
  · exact .inl ⟨p, n, m, hP, by cases p <;> exact k⟩
  · exact .inr (.inl k)
  · exact .inr (.inr k)

end Sys2Proof.Machine
end

