-- ==== Sys2Proof/Laws/Commands.lean ====
section
/-! SUPPORT. What a frame command comes to, from what its block does with it: one lemma for each way of answering. -/

namespace Sys2Proof.Machine

/-- A REPLY to a station of Port S, before it is queued. -/
def replyOut (st : Station) (kind : Byte) (r : Result) (detail : List Byte) : Out :=
  ⟨.reply .s st.number, Kind.reply, kind :: BitVec.ofNat 8 r.code :: detail, .plain⟩

/-- An ALERT with the second count of the event, before it is queued. -/
def alertOut (now kind : Nat) (args : List Byte) : Out :=
  ⟨.role .office, Kind.alert, w8 kind ++ w32 now ++ args, .plain⟩

/-- The gates of mode and length, for a kind of fixed length whose payload carries no code to check. -/
theorem Passes.of_length {s : State} {kind : Byte} {pl : List Byte} {n : Nat} (h : pl.length = n)
    (hm : takenIn s.garage.mode kind = true) (hc : countedLength kind pl = none) (hf : fixedLength kind = n)
    (hk : (kind == Kind.liftStatus || kind == Kind.moveFault || kind == Kind.moveRefused) = false) (hn : n ≤ 48) :
    Passes s kind pl := by
  simp only [Bool.or_eq_false_iff] at hk
  refine ⟨hm, ?_, by omega⟩
  unfold wellShaped
  rw [hc, hf, hk.1.1, hk.1.2, hk.2]
  simp [h]

/-- A kind that both modes take. -/
theorem takenIn_both {kind : Byte} (m : Mode) (h : (serviceKinds ++ commissioningKinds).contains kind = false) :
    takenIn m kind = true := by
  rw [List.contains_eq_any_beq, List.any_append, Bool.or_eq_false_iff] at h
  unfold takenIn
  cases m <;> simp only [List.contains_eq_any_beq, h.1, h.2] <;> rfl

/-- Everything a frame of a station of Port S does, from the event `e` that its block makes of it. -/
structure ComesTo (o : Host.Outcome State Fault Refusal) (s : State) (st : Station) (e : Ev) (t : State) : Prop where
  next : o = .next t
  garage : t.garage = e.g
  heard : HeardS s t st
  answers : ∀ n kind payload m more, e.out = ⟨.reply .s n, kind, payload, m⟩ :: more → kind ≠ Kind.alert →
    s.line.s.hasRoom → t.line.s.carries (originated n kind payload)
  sends : ∀ x ∈ e.out, ∀ r, x.dest = .role r → Sends s t r x.kind x.payload
  tells : ∀ now kind args before after,
    e.out = before ++ ⟨.role .office, Kind.alert, w8 kind ++ w32 now ++ args, .plain⟩ :: after →
    before.length + after.length ≤ 2 → ∀ n, OfficeHears s n → t.line.s.carries (alertFrame n now kind args)

/-- A frame that passes the gates comes to the event that its block makes of it. -/
theorem State.frame_comes (s : State) (st : Station) (r : Role) (kind flags : Byte) (pl : List Byte)
    (f : Caller → List Byte → Ev → Ev) (ask : AskedBy s st r) (hl : roleLift r = none) (hp : permits r kind = true)
    (hg : Passes s kind pl) :
    ∃ t, ComesTo (s.frame .s kind flags pl (evBody f)) s st (f ⟨.s, st.number, st.role⟩ pl ⟨s.garage, []⟩) t := by
  obtain ⟨ask, rfl⟩ := ask
  have k := s.event_s st (moreFlag flags) (fun e => f ⟨.s, st.number, st.role⟩ pl e) ask hl
  exact ⟨_, s.frame_s st kind flags pl f ask hl hp hg.mode hg.shape hg.fits, k.2.1, k.1, k.2.2.1,
    fun x hx r hr => s.event_sends_s st (moreFlag flags) _ ask hl x hx hr,
    fun now kind args before after h1 h2 n h3 => k.2.2.2 n now kind args before after h1 h2 h3⟩

/-- A request that its block answers first of all. -/
theorem Replies.of_event {s : State} {st : Station} {r : Role} {kind flags : Byte} {pl : List Byte}
    {f : Caller → List Byte → Ev → Ev} (ask : AskedBy s st r) (hl : roleLift r = none) (hp : permits r kind = true)
    (hg : Passes s kind pl) {g : Garage} {k : Byte} {res : Result} {detail : List Byte} {more : List Out}
    (h : f ⟨.s, st.number, st.role⟩ pl ⟨s.garage, []⟩ = ⟨g, replyOut st k res detail :: more⟩) :
    Replies (s.frame .s kind flags pl (evBody f)) s st g k res detail := by
  obtain ⟨t, c⟩ := s.frame_comes st r kind flags pl f ask hl hp hg
  rw [h] at c
  exact ⟨t, c.next, c.garage, c.heard, fun room => c.answers _ _ _ _ _ rfl (by decide) room⟩

/-- The work that an event sets off adds frames after those of the event. -/
theorem settle_out (e : Ev) : ∃ more, (settle e).out = e.out ++ more := by
  obtain ⟨more, h⟩ := (settle_works e).out
  exact ⟨more, h.symm⟩

theorem settle_eq (e : Ev) : ∃ more, settle e = ⟨e.g.afterwards, e.out ++ more⟩ := by
  obtain ⟨more, h⟩ := settle_out e
  exact ⟨more, by rw [← settle_g, ← h]⟩

/-- A request that its block answers first of all, and whose effects may leave work for the lifts. -/
theorem Replies.of_work {s : State} {st : Station} {r : Role} {kind flags : Byte} {pl : List Byte}
    {f : Caller → List Byte → Ev → Ev} (ask : AskedBy s st r) (hl : roleLift r = none) (hp : permits r kind = true)
    (hg : Passes s kind pl) {g : Garage} {k : Byte} {res : Result} {detail : List Byte} {more : List Out}
    (h : f ⟨.s, st.number, st.role⟩ pl ⟨s.garage, []⟩ = ⟨g, replyOut st k res detail :: more⟩) :
    Replies (s.frame .s kind flags pl (workBody f)) s st g.afterwards k res detail := by
  obtain ⟨rest, hs⟩ := settle_eq ⟨g, replyOut st k res detail :: more⟩
  rw [workBody_eq]
  exact Replies.of_event ask hl hp hg (more := more ++ rest) (by rw [h, hs]; rfl)

/-- A frame of a station of Port S whose effects may leave work for the lifts comes to the event and that work. -/
theorem State.work_comes (s : State) (st : Station) (r : Role) (kind flags : Byte) (pl : List Byte)
    (f : Caller → List Byte → Ev → Ev) (ask : AskedBy s st r) (hl : roleLift r = none) (hp : permits r kind = true)
    (hg : Passes s kind pl) :
    ∃ t more, ComesTo (s.frame .s kind flags pl (workBody f)) s st
      ⟨(f ⟨.s, st.number, st.role⟩ pl ⟨s.garage, []⟩).g.afterwards,
        (f ⟨.s, st.number, st.role⟩ pl ⟨s.garage, []⟩).out ++ more⟩ t := by
  obtain ⟨rest, hs⟩ := settle_eq (f ⟨.s, st.number, st.role⟩ pl ⟨s.garage, []⟩)
  rw [workBody_eq]
  obtain ⟨t, c⟩ := s.frame_comes st r kind flags pl (fun c pl e => settle (f c pl e)) ask hl hp hg
  rw [hs] at c
  exact ⟨t, rest, c⟩

/-- A report of a station of Port S that only alerts. -/
theorem NotesS.of_event {s : State} {st : Station} {r : Role} {kind flags : Byte} {pl : List Byte}
    {f : Caller → List Byte → Ev → Ev} (ask : AskedBy s st r) (hl : roleLift r = none) (hp : permits r kind = true)
    (hg : Passes s kind pl) {g : Garage} {a : Nat} {args : List Byte}
    (h : f ⟨.s, st.number, st.role⟩ pl ⟨s.garage, []⟩ = ⟨g, [alertOut s.garage.seconds a args]⟩) :
    NotesS (s.frame .s kind flags pl (evBody f)) s st g [(a, args)] := by
  obtain ⟨t, c⟩ := s.frame_comes st r kind flags pl f ask hl hp hg
  rw [h] at c
  refine ⟨t, c.next, c.garage, c.heard, ?_⟩
  intro x hx n hn
  rw [List.mem_singleton.mp hx]
  exact c.tells s.garage.seconds a args [] [] rfl (by simp) n hn

/-- A report of a station of Port S that nobody is told of. -/
theorem NotesS.of_quiet {s : State} {st : Station} {r : Role} {kind flags : Byte} {pl : List Byte}
    {f : Caller → List Byte → Ev → Ev} (ask : AskedBy s st r) (hl : roleLift r = none) (hp : permits r kind = true)
    (hg : Passes s kind pl) {g : Garage}
    (h : (f ⟨.s, st.number, st.role⟩ pl ⟨s.garage, []⟩).g = g) :
    NotesS (s.frame .s kind flags pl (evBody f)) s st g [] := by
  obtain ⟨t, c⟩ := s.frame_comes st r kind flags pl f ask hl hp hg
  exact ⟨t, c.next, c.garage.trans h, c.heard, fun _ hx => nomatch hx⟩

/-- A report of a lift's station. -/
theorem NotesG.of_lift {s : State} {st : Station} {l : Lift} {kind flags : Byte} {pl : List Byte}
    {f : Lift → List Byte → Ev → Ev} (ask : ReportedBy s st l) (hp : permits (liftRole l) kind = true)
    (hg : Passes s kind pl) {g : Garage} {alerts : List (Nat × List Byte)}
    (h : (f l pl ⟨s.garage.heardLift l st, []⟩).g = g)
    (ha : ∀ a ∈ alerts, alertOut s.garage.seconds a.1 a.2 ∈ (f l pl ⟨s.garage.heardLift l st, []⟩).out) :
    NotesG (s.frame .g kind flags pl (liftBody f)) s st g alerts := by
  obtain ⟨ask, role, due⟩ := ask
  have hl : roleLift st.role = some l := by rw [role]; cases l <;> rfl
  have e : (liftBody f : Body) = evBody fun c pl e => settle (match roleLift c.role with | some l => f l pl e | none => e) :=
    rfl
  obtain ⟨rest, hs⟩ := settle_eq (f l pl ⟨s.garage.heardLift l st, []⟩)
  have k := s.event_g st l (moreFlag flags)
    (fun e => settle (match roleLift st.role with | some l => f l pl e | none => e)) ask hl due
  have n := s.event_sends_g st l (moreFlag flags)
    (fun e => settle (match roleLift st.role with | some l => f l pl e | none => e)) ask hl due
  simp only [hl] at k n
  refine ⟨_, ?_, ?_, k.1, ?_⟩
  · rw [e, s.frame_g st l kind flags pl _ ask hl (by rw [role]; exact hp) hg.mode hg.shape hg.fits]
    simp only [hl]
  · rw [k.2.1, settle_g, h]
  · intro a hm
    have := n (alertOut s.garage.seconds a.1 a.2) (by rw [hs]; exact List.mem_append_left _ (ha a hm)) rfl
    exact this

end Sys2Proof.Machine
end

