-- ==== Sys2Proof/Laws/Tables.lean ====
section
/-! SUPPORT. Tables under their operations, tickets, hooks and bays under theirs, and the frames that the parts of an
event add after those before them. -/

namespace Sys2Proof.Machine

/-! ### Tables -/

theorem find_adjust {α : Type} (t : Table α) (n m : Nat) (f : α → α) :
    (t.adjust n f).find m = if m = n then (t.find m).map f else t.find m := by
  induction t with
  | nil => simp [Table.adjust, Table.find]
  | cons kv rest ih =>
    obtain ⟨k, v⟩ := kv
    simp only [Table.adjust, List.map_cons] at *
    by_cases hk : k = n
    · subst hk
      by_cases hm : k = m
      · subst hm; simp [Table.find]
      · simp only [if_true, Table.find, hm, if_false, ih]
    · simp only [hk, if_false, Table.find, ih]
      by_cases hm : k = m
      · subst hm; simp [hk]
      · simp [hm]

theorem findKey_none {α : Type} (t : Table α) (q : α → Bool) : t.findKey q = none ↔ ∀ x ∈ t, q x.2 = false := by
  induction t with
  | nil => simp [Table.findKey]
  | cons kv rest ih =>
    obtain ⟨k, v⟩ := kv
    simp only [Table.findKey]
    split <;> simp_all

theorem findKey_tag {g : Garage} {tag : Nat} (h : ∀ x ∈ g.tickets, x.2.tag ≠ tag) :
    (g.tickets.findKey fun t => t.tag == tag) = none := by
  rw [findKey_none]; simpa using h

/-! ### Bays under a reservation (R29) -/

@[simp] theorem reserve_stack (g : Garage) (b n : Nat) : (g.reserve b n).stackRecs = g.stackRecs := rfl
@[simp] theorem reserve_zone (g : Garage) (b n : Nat) : (g.reserve b n).zoneRecs = g.zoneRecs := rfl

theorem reserve_bay (g : Garage) (b n m : Nat) :
    (g.reserve b n).bay m = if m = b then (g.bay m).map fun x => { x with occ := .reserved n } else g.bay m := by
  show Table.find (g.bayRecs.adjust b fun x => { x with occ := .reserved n }) m = _
  rw [find_adjust]; rfl

theorem reserve_lift (g : Garage) (b n m : Nat) : (g.reserve b n).liftOfBay m = g.liftOfBay m := by
  unfold Garage.liftOfBay
  rw [reserve_bay]
  by_cases h : m = b
  · rw [if_pos h]; cases g.bay m <;> rfl
  · rw [if_neg h]; rfl


/-! ### Records under their operations -/

theorem find_adjust_self {α : Type} (t : Table α) (n : Nat) (f : α → α) :
    (t.adjust n f).find n = (t.find n).map f := by rw [find_adjust, if_pos rfl]

theorem find_adjust_ne {α : Type} (t : Table α) {n m : Nat} (f : α → α) (h : m ≠ n) :
    (t.adjust n f).find m = t.find m := by rw [find_adjust, if_neg h]

theorem ticket_modTicket (g : Garage) (n : Nat) (f : Ticket → Ticket) : (g.modTicket n f).ticket n = (g.ticket n).map f :=
  find_adjust_self g.tickets n f

theorem ticket_modTicket_ne (g : Garage) {n m : Nat} (f : Ticket → Ticket) (h : m ≠ n) :
    (g.modTicket n f).ticket m = g.ticket m :=
  find_adjust_ne g.tickets f h

theorem hook_modHook (g : Garage) (n : Nat) (f : Hook → Hook) : (g.modHook n f).hooks.find n = (g.hooks.find n).map f :=
  find_adjust_self g.hooks n f

theorem bay_modBay (g : Garage) (n : Nat) (f : Bay → Bay) : (g.modBay n f).bay n = (g.bay n).map f :=
  find_adjust_self g.bayRecs n f

/-! ### Frames added by the parts of an event -/

/-- An operation of an event adds frames after those of the event, and its garage does not depend on them. -/
theorem adds {f : Ev → Ev} (hw : ∀ e, Works e (f e)) (hb : ∀ a b : Ev, a.g = b.g → (f a).g = (f b).g) (g : Garage)
    (out : List Out) :
    ∃ more, f ⟨g, out⟩ = ⟨(f ⟨g, []⟩).g, out ++ more⟩ := by
  obtain ⟨more, h⟩ := (hw ⟨g, out⟩).out
  exact ⟨more, by rw [← hb ⟨g, out⟩ ⟨g, []⟩ rfl, h]⟩

theorem enterReady_adds (n : Nat) (loc : Location) (g : Garage) (out : List Out) :
    ∃ more, enterReady n loc ⟨g, out⟩ = ⟨(enterReady n loc ⟨g, []⟩).g, out ++ more⟩ :=
  adds (enterReady_works n loc) (fun _ _ h => enterReady_blind n loc h) g out

theorem releaseRunner_adds (n : Nat) (g : Garage) (out : List Out) :
    ∃ more, releaseRunner n ⟨g, out⟩ = ⟨(releaseRunner n ⟨g, []⟩).g, out ++ more⟩ :=
  adds (releaseRunner_works n) (fun _ _ h => releaseRunner_blind n h) g out

theorem closeMapping_adds (t : Ticket) (g : Garage) (out : List Out) :
    ∃ more, closeMapping t ⟨g, out⟩ = ⟨(closeMapping t ⟨g, []⟩).g, out ++ more⟩ := by
  unfold closeMapping
  dsimp only
  split
  · exact ⟨[], by simp⟩
  · split <;> first | exact ⟨[_], rfl⟩ | (refine ⟨[], ?_⟩; simp only [Ev.modG, List.append_nil])

theorem closeMapping_tickets (t : Ticket) (e : Ev) : (closeMapping t e).g.tickets = e.g.tickets := by
  unfold closeMapping
  dsimp only
  split
  · rfl
  · split <;> rfl

theorem closeMapping_seconds (t : Ticket) (e : Ev) : (closeMapping t e).g.seconds = e.g.seconds := by
  unfold closeMapping
  dsimp only
  split
  · rfl
  · split <;> rfl

end Sys2Proof.Machine
end

