-- ==== Sys2Proof/Laws/Plans.lean ====
section
/-! SUPPORT. What the release of a bay, the end of a plan and the return of a target can do, said once for each. -/

namespace Sys2Proof.Machine

/-! ### Tables and ordered lists -/

theorem find_mapAll {α : Type} (t : Table α) (n : Nat) (f : α → α) : (t.mapAll f).find n = (t.find n).map f := by
  induction t with
  | nil => rfl
  | cons kv rest ih =>
    obtain ⟨k, v⟩ := kv
    simp only [Table.mapAll, List.map_cons, Table.find] at *
    split <;> simp_all

theorem mem_insertBy {α : Type} (key : α → Nat) (x y : α) (t : List α) : y ∈ insertBy key x t ↔ y = x ∨ y ∈ t := by
  induction t with
  | nil => simp [insertBy]
  | cons z rest ih =>
    simp only [insertBy]
    split
    · simp
    · simp [ih]; tauto

/-! ### The release of a bay (R29, R31) -/

/-- A release changes bays, and of tickets at most the BLOCKED mark of queued ones. -/
structure Releases (g k : Garage) : Prop where
  rest : ∃ bays tickets, k = { g with bayRecs := bays, tickets := tickets }
  ticket : ∀ n, ∃ mark : Ticket → Bool,
    k.ticket n = (g.ticket n).map (fun x => { x with blocked := mark x }) ∧
      ∀ x, x.state ≠ .queued → mark x = x.blocked

theorem Releases.refl (g : Garage) : Releases g g :=
  ⟨⟨g.bayRecs, g.tickets, rfl⟩, fun n => ⟨Ticket.blocked, by cases g.ticket n <;> rfl, fun _ _ => rfl⟩⟩

theorem Releases.trans {a b c : Garage} (h : Releases a b) (k : Releases b c) : Releases a c := by
  obtain ⟨⟨b1, t1, rfl⟩, h2⟩ := h
  obtain ⟨⟨b2, t2, rfl⟩, k2⟩ := k
  refine ⟨⟨b2, t2, rfl⟩, fun n => ?_⟩
  obtain ⟨m, e, q⟩ := h2 n
  obtain ⟨m', e', q'⟩ := k2 n
  refine ⟨fun x => m' { x with blocked := m x }, ?_, fun x hx => ?_⟩
  · rw [e', e, Option.map_map]; rfl
  · exact (show m' { x with blocked := m x } = m x from q' _ hx).trans (q x hx)

theorem zoneReport_releases (g : Garage) (z : Nat) : Releases g (g.zoneReport z) := by
  refine ⟨⟨g.bayRecs, _, rfl⟩, fun n => ?_⟩
  refine ⟨fun x : Ticket => (match x.bay.bind g.bay with
    | some b => if x.state = TicketState.queued ∧ g.zoneNoOf b = some z then { x with blocked := false } else x
    | none => x).blocked, ?_, fun x hx => ?_⟩
  · unfold Garage.zoneReport Garage.ticket
    rw [find_mapAll]
    cases Table.find g.tickets n with
    | none => rfl
    | some x =>
      simp only [Option.map_some]
      cases x.bay.bind g.bay with
      | none => rfl
      | some b => dsimp only; split <;> rfl
  · dsimp only; split <;> simp [hx]

theorem reportBay_releases (g : Garage) (b : Bay) : Releases g (g.reportBay b) := by
  unfold Garage.reportBay; split
  · exact zoneReport_releases g _
  · exact .refl g

theorem bays_releases (g : Garage) (bays : Table Bay) : Releases g { g with bayRecs := bays } :=
  ⟨⟨bays, g.tickets, rfl⟩, (Releases.refl g).ticket⟩

theorem bayFreed_releases (g : Garage) (n : Nat) : Releases g (g.bayFreed n) := by
  unfold Garage.bayFreed; split
  · exact .refl g
  · split <;>
      exact .trans (bays_releases g _) (reportBay_releases _ _)

/-- A release changes nothing but bays and BLOCKED marks. -/
theorem release_releases (g : Garage) (n t : Nat) : Releases g (g.release n t) := by
  unfold Garage.release; split
  · exact .refl g
  · split
    · exact .trans (bays_releases g _) (bayFreed_releases _ _)
    · exact .refl g

/-- The occupancy of a loaded bay. -/
theorem reportBay_occ (g : Garage) (b : Bay) (m : Nat) : ((g.reportBay b).bay m).map Bay.occ = (g.bay m).map Bay.occ := by
  unfold Garage.reportBay; split <;> rfl

theorem returnDeeper_occ (g : Garage) (b : Bay) (m : Nat) :
    ((g.returnDeeper b).bay m).map Bay.occ = (g.bay m).map Bay.occ := by
  unfold Garage.returnDeeper Garage.bay
  rw [find_mapAll]
  cases Table.find g.bayRecs m with
  | none => rfl
  | some d => simp only [Option.map_some]; split <;> rfl

theorem modBay_occ (g : Garage) (n m : Nat) (f : Bay → Bay) (h : ∀ b, (f b).occ = b.occ) :
    ((g.modBay n f).bay m).map Bay.occ = (g.bay m).map Bay.occ := by
  refine (congrArg (Option.map Bay.occ) (find_adjust g.bayRecs n m f)).trans ?_
  show Option.map _ (if m = n then Option.map f (g.bay m) else g.bay m) = _
  split
  · cases g.bay m <;> simp [h]
  · rfl

theorem bayFreed_occ (g : Garage) (n m : Nat) : ((g.bayFreed n).bay m).map Bay.occ = (g.bay m).map Bay.occ := by
  unfold Garage.bayFreed; split
  · rfl
  · rw [reportBay_occ, returnDeeper_occ]
    split
    · exact modBay_occ g n m _ fun _ => rfl
    · rfl

/-- A bay reserved for the ticket becomes FREE; every other bay's occupancy stands (R29). -/
theorem release_occ (g : Garage) (n t m : Nat) :
    ((g.release n t).bay m).map Bay.occ =
      if m = n ∧ (g.bay m).map Bay.occ = some (.reserved t) then some .free else (g.bay m).map Bay.occ := by
  unfold Garage.release
  by_cases hm : m = n
  · subst hm
    cases hb : g.bay m with
    | none => simp [hb]
    | some b =>
      by_cases ho : b.occ = .reserved t
      · simp only [ho, if_true, bayFreed_occ, Option.map_some, and_self]
        rw [bay_modBay, hb]; rfl
      · simp [ho, hb]
  · simp only [hm, false_and, if_false]
    split
    · rfl
    · split
      · rw [bayFreed_occ]; unfold Garage.bay Garage.modBay; rw [find_adjust_ne _ _ hm]
      · rfl

/-! ### The end of a plan (R115, R126, R139) -/

/-- The relocations of a plan that are not completed give up their bays. -/
def Garage.releaseRelocs (g : Garage) (rs : List Reloc) : Garage :=
  rs.foldl (fun g r => if r.done then g else g.release r.dest r.blocker) g

theorem releaseRelocs_releases (rs : List Reloc) (g : Garage) : Releases g (g.releaseRelocs rs) := by
  induction rs generalizing g with
  | nil => exact .refl g
  | cons r rs ih =>
    refine .trans ?_ (ih _)
    dsimp only
    split
    · exact .refl g
    · exact release_releases g _ _

/-- A bay stands unless a relocation not completed holds it, which makes it FREE. -/
theorem releaseRelocs_occ (rs : List Reloc) (g : Garage) (m : Nat) :
    ((g.releaseRelocs rs).bay m).map Bay.occ =
      if ∃ r ∈ rs, r.done = false ∧ m = r.dest ∧ (g.bay m).map Bay.occ = some (.reserved r.blocker) then some .free
      else (g.bay m).map Bay.occ := by
  induction rs generalizing g with
  | nil => simp [Garage.releaseRelocs]
  | cons r rs ih =>
    show ((Garage.releaseRelocs (if r.done then g else g.release r.dest r.blocker) rs).bay m).map Bay.occ = _
    rw [ih]
    cases hd : r.done with
    | true => simp [hd]
    | false =>
      simp only [Bool.false_eq_true, if_false, release_occ]
      by_cases h : m = r.dest ∧ (g.bay m).map Bay.occ = some (.reserved r.blocker)
      · rw [if_pos h]
        refine (ite_self _).trans (Eq.symm ?_)
        apply if_pos
        exact ⟨r, List.mem_cons_self, hd, h⟩
      · rw [if_neg h]
        congr 1
        simp only [List.mem_cons, eq_iff_iff]
        constructor
        · rintro ⟨q, hq, e⟩; exact ⟨q, .inr hq, e⟩
        · rintro ⟨q, rfl | hq, e⟩
          · exact absurd e.2 h
          · exact ⟨q, hq, e⟩

/-- The end of a plan is the release of its bays, then a change of its lift alone. -/
theorem endPlan_eq (g : Garage) (l : Lift) (p : Plan) :
    ∃ f : LiftUnit → LiftUnit, g.endPlan l p = (g.releaseRelocs p.relocs).modLift l f ∧
      ∀ u, (f u).plan = if u.plan.map Plan.target = some p.target then none else u.plan := by
  unfold Garage.endPlan
  show ∃ f : LiftUnit → LiftUnit, Garage.modLift (if p.slot then (g.releaseRelocs p.relocs).freeSlot l else _) l _ = _ ∧ _
  cases p.slot
  · exact ⟨_, rfl, fun u => by split <;> rfl⟩
  · refine ⟨fun u => (fun u : LiftUnit =>
      if (u.plan.map Plan.target) = some p.target then
        { u with plan := none, reorder := none, tenure := if u.tenure = some .plan then none else u.tenure }
      else { u with waiting := u.waiting.filter fun w => w.target != p.target })
        (LiftUnit.stampWaiting (g.releaseRelocs p.relocs).seconds { u with reserved := u.reserved - 1 }), ?_, fun u => ?_⟩
    · unfold Garage.freeSlot; cases l <;> rfl
    · dsimp only [LiftUnit.stampWaiting]; split <;> rfl

theorem endPlan_occ (g : Garage) (l : Lift) (p : Plan) (m : Nat) :
    ((g.endPlan l p).bay m).map Bay.occ =
      if ∃ r ∈ p.relocs, r.done = false ∧ m = r.dest ∧ (g.bay m).map Bay.occ = some (.reserved r.blocker) then some .free
      else (g.bay m).map Bay.occ := by
  obtain ⟨f, e, -⟩ := endPlan_eq g l p
  rw [e, ← releaseRelocs_occ]; cases l <;> rfl

theorem endPlan_ticket (g : Garage) (l : Lift) (p : Plan) (n : Nat) :
    ∃ mark : Ticket → Bool, (g.endPlan l p).ticket n = (g.ticket n).map (fun x => { x with blocked := mark x }) ∧
      ∀ x, x.state ≠ .queued → mark x = x.blocked := by
  obtain ⟨f, e, -⟩ := endPlan_eq g l p
  obtain ⟨mark, h, q⟩ := (releaseRelocs_releases p.relocs g).ticket n
  exact ⟨mark, by rw [← h, e]; cases l <;> rfl, q⟩

theorem endPlan_lists (g : Garage) (l : Lift) (p : Plan) :
    (g.endPlan l p).queue = g.queue ∧ ∀ c, (g.endPlan l p).chan c = g.chan c := by
  obtain ⟨f, e, -⟩ := endPlan_eq g l p
  obtain ⟨b, t, h⟩ := (releaseRelocs_releases p.relocs g).rest
  rw [e, h]; exact ⟨by cases l <;> rfl, fun c => by cases l <;> cases c <;> rfl⟩

theorem endPlan_plan (g : Garage) (l : Lift) (p q : Plan) (h : (g.lift l).plan = some q) (ht : q.target = p.target) :
    ((g.endPlan l p).lift l).plan = none := by
  obtain ⟨f, e, hf⟩ := endPlan_eq g l p
  obtain ⟨b, t, h2⟩ := (releaseRelocs_releases p.relocs g).rest
  rw [e, Garage.modLift_lift, hf, h2]
  show (if ((g.lift l).plan.map Plan.target) = some p.target then none else (g.lift l).plan) = none
  rw [h, if_pos (by simp [ht])]

/-! ### The return of a target (R105) -/

theorem returnTarget_bay (g : Garage) (n m : Nat) : (g.returnTarget n).bay m = g.bay m := by
  unfold Garage.returnTarget Garage.modChan; (repeat' split) <;> rfl

theorem returnTarget_lift (g : Garage) (n : Nat) (l : Lift) : (g.returnTarget n).lift l = g.lift l := by
  unfold Garage.returnTarget Garage.modChan; (repeat' split) <;> cases l <;> rfl

/-- No other ticket changes. -/
theorem returnTarget_other (g : Garage) {n m : Nat} (h : m ≠ n) : (g.returnTarget n).ticket m = g.ticket m := by
  unfold Garage.returnTarget
  split
  · rfl
  · split
    · exact ticket_modTicket_ne (g.dequeue n) _ h
    · split
      · unfold Garage.ticket Garage.modTicket
        rw [Garage.modChan_tickets, find_adjust_ne _ _ h]
      · unfold Garage.ticket Garage.modTicket
        rw [find_adjust_ne _ _ h]

/-- Nothing but the target enters the queue or a convoy list. -/
theorem returnTarget_lists (g : Garage) {n m : Nat} (h : m ≠ n) :
    ((∀ e ∈ g.queue, e.ticket ≠ m) → ∀ e ∈ (g.returnTarget n).queue, e.ticket ≠ m) ∧
      ∀ c, m ∉ (g.chan c).list → m ∉ ((g.returnTarget n).chan c).list := by
  unfold Garage.returnTarget
  split
  · exact ⟨id, fun _ => id⟩
  · split
    · refine ⟨fun hq e he => ?_, fun c hc => ?_⟩
      · exact hq e (List.mem_filter.mp he).1
      · cases c <;> exact fun hm => hc (List.mem_filter.mp hm).1
    · split
      · rename_i d hd
        refine ⟨fun hq e he => hq e (by cases d <;> exact he), fun c hc hm => ?_⟩
        cases c <;> cases d <;> first
          | exact hc hm
          | (rcases (mem_insertBy _ _ _ _).mp hm with rfl | hm
             · exact h rfl
             · exact hc hm)
      · refine ⟨fun hq e he => ?_, fun c hc hm => hc (by cases c <;> exact hm)⟩
        rcases (mem_insertBy _ _ _ _).mp he with rfl | he
        · exact fun hm => h hm.symm
        · exact hq e he

/-- A target with the cancel mark becomes PARKED. -/
theorem returnTarget_cancelled (g : Garage) (n : Nat) (t : Ticket) (h : g.ticket n = some t) (hc : t.cancelMark = true) :
    ((g.returnTarget n).ticket n).map Ticket.state = some .parked ∧
      ((g.returnTarget n).ticket n).map Ticket.place = some false := by
  unfold Garage.returnTarget
  simp only [h, hc, if_true]
  unfold Garage.becomeParked
  rw [ticket_modTicket, show (g.dequeue n).ticket n = some t from h]
  exact ⟨rfl, rfl⟩

/-- A target of the queue is QUEUED again, and in the queue. -/
theorem returnTarget_queue (g : Garage) (n : Nat) (t : Ticket) (h : g.ticket n = some t) (hc : t.cancelMark = false)
    (hv : t.convoy = none) :
    (g.returnTarget n).ticket n = some { t with
      state := .queued, phase := none, blocked := false, hold := t.hold && !t.resumePending, resumePending := false } ∧
      ⟨n, none⟩ ∈ (g.returnTarget n).queue := by
  unfold Garage.returnTarget
  simp only [h, hc, hv, Bool.false_eq_true, if_false]
  refine ⟨?_, (mem_insertBy _ _ _ _).mpr (.inl rfl)⟩
  unfold Garage.ticket Garage.modTicket
  rw [find_adjust_self, show Table.find g.tickets n = some t from h]; simp [hc, hv]

/-- A target of a channel is QUEUED again, and in its list. -/
theorem returnTarget_convoy (g : Garage) (n : Nat) (t : Ticket) (c : Chan) (h : g.ticket n = some t)
    (hc : t.cancelMark = false) (hv : t.convoy = some c) :
    (g.returnTarget n).ticket n = some { t with state := .queued, phase := none, blocked := false } ∧
      n ∈ ((g.returnTarget n).chan c).list := by
  unfold Garage.returnTarget
  simp only [h, hc, Bool.false_eq_true, if_false]
  constructor
  · unfold Garage.ticket Garage.modTicket
    rw [hv]; dsimp only
    rw [Garage.modChan_tickets, find_adjust_self, show Table.find g.tickets n = some t from h]; simp [hc, hv]
  · rw [hv]; cases c <;> exact (mem_insertBy _ _ _ _).mpr (.inl rfl)

/-! ### Lifts and channels apart -/

theorem lift_modChan (g : Garage) (c : Chan) (f : Channel → Channel) (l : Lift) : (g.modChan c f).lift l = g.lift l := by
  cases c <;> cases l <;> rfl

theorem chan_modLift (g : Garage) (c : Chan) (f : LiftUnit → LiftUnit) (l : Lift) : (g.modLift l f).chan c = g.chan c := by
  cases c <;> cases l <;> rfl

theorem modLift_modLift (g : Garage) (l : Lift) (f h : LiftUnit → LiftUnit) :
    (g.modLift l f).modLift l h = g.modLift l (h ∘ f) := by cases l <;> rfl

theorem modChan_modChan (g : Garage) (c : Chan) (f h : Channel → Channel) :
    (g.modChan c f).modChan c h = g.modChan c (h ∘ f) := by cases c <;> rfl

/-- Two changes of a lift unit are one when they agree on the unit that is there. -/
theorem modLift_congr (g : Garage) (l : Lift) {f h : LiftUnit → LiftUnit} (e : f (g.lift l) = h (g.lift l)) :
    g.modLift l f = g.modLift l h := by
  cases l
  · show { g with liftA := f g.liftA } = { g with liftA := h g.liftA }; rw [show f g.liftA = h g.liftA from e]
  · show { g with liftB := f g.liftB } = { g with liftB := h g.liftB }; rw [show f g.liftB = h g.liftB from e]

/-- Two changes of a channel are one when they agree on the channel that is there. -/
theorem modChan_congr (g : Garage) (c : Chan) {f h : Channel → Channel} (e : f (g.chan c) = h (g.chan c)) :
    g.modChan c f = g.modChan c h := by
  cases c
  · show { g with chan0 := f g.chan0 } = { g with chan0 := h g.chan0 }; rw [show f g.chan0 = h g.chan0 from e]
  · show { g with chan1 := f g.chan1 } = { g with chan1 := h g.chan1 }; rw [show f g.chan1 = h g.chan1 from e]

/-! ### Building a plan -/

/-- Placing the blockers reserves bays and does nothing else. -/
theorem placeBlockers_bays (zone ex : Nat) (L : List (Nat × Nat)) : ∀ g g' rs,
    Garage.placeBlockers g zone ex L = .ok (g', rs) → ∃ b, g' = { g with bayRecs := b } := by
  induction L with
  | nil => intro g g' rs h; cases h; exact ⟨_, rfl⟩
  | cons x L ih =>
    obtain ⟨n, t⟩ := x
    intro g g' rs h
    simp only [Garage.placeBlockers] at h
    split at h
    · cases h
    · split at h
      · cases h
      · split at h
        · cases h
        · split at h
          · rename_i g1 r1 hh
            cases h
            obtain ⟨b, e⟩ := ih _ _ _ hh
            exact ⟨b, e⟩
          · cases h

/-- Building a plan leaves the block of every channel alone. -/
theorem buildPlan_blockLevel (l : Lift) (n level : Nat) (e : Ev) (c : Chan) :
    ((buildPlan l n level e).1.g.chan c).blockLevel = (e.g.chan c).blockLevel := by
  unfold buildPlan
  dsimp only
  split
  · cases c <;> rfl
  · split
    · unfold markBlocked
      split
      · rfl
      · split
        · rfl
        · dsimp only; split <;> cases c <;> rfl
    · rename_i h
      obtain ⟨b, rfl⟩ := placeBlockers_bays _ _ _ _ _ _ h
      cases c <;> cases l <;> rfl

end Sys2Proof.Machine
end

