-- ==== Sys2Proof/Laws/Orders.lean ====
section
/-! SUPPORT. Lists in rising order of a key, tables in rising order, the dealing anew of numbers, and the timers that are
due. -/

namespace Sys2Proof.Machine

/-! ### Lists in rising order -/

theorem insertBy_perm {α : Type} (key : α → Nat) (x : α) (l : List α) : (insertBy key x l).Perm (x :: l) := by
  induction l with
  | nil => exact List.Perm.refl _
  | cons y r ih =>
    simp only [insertBy]; split
    · exact List.Perm.refl _
    · exact (List.Perm.cons y ih).trans (List.Perm.swap x y r)

theorem sortBy_perm {α : Type} (key : α → Nat) (l : List α) : (sortBy key l).Perm l := by
  induction l with
  | nil => exact List.Perm.refl _
  | cons x r ih => exact (insertBy_perm key x _).trans (List.Perm.cons x ih)

theorem mem_sortBy {α : Type} (key : α → Nat) (y : α) (l : List α) : y ∈ sortBy key l ↔ y ∈ l := (sortBy_perm key l).mem_iff

theorem insertBy_sorted {α : Type} (key : α → Nat) (x : α) (l : List α) (h : l.Pairwise fun a b => key a ≤ key b) :
    (insertBy key x l).Pairwise fun a b => key a ≤ key b := by
  induction l with
  | nil => simp [insertBy]
  | cons y r ih =>
    simp only [insertBy]
    have h1 := List.pairwise_cons.mp h
    split
    · rename_i hk
      refine List.pairwise_cons.mpr ⟨fun z hz => ?_, h⟩
      rcases List.mem_cons.mp hz with rfl | hz
      · omega
      · have := h1.1 z hz; omega
    · rename_i hk
      refine List.pairwise_cons.mpr ⟨fun z hz => ?_, ih h1.2⟩
      rcases (mem_insertBy _ _ _ _).mp hz with rfl | hz
      · omega
      · exact h1.1 z hz

/-- What `sortBy` gives: a rearrangement (`sortBy_perm`) in rising order of the key. -/
theorem sortBy_sorted {α : Type} (key : α → Nat) (l : List α) : (sortBy key l).Pairwise fun a b => key a ≤ key b := by
  induction l with
  | nil => exact List.Pairwise.nil
  | cons x r ih => exact insertBy_sorted key x _ ih

/-! ### Tables in rising order -/

theorem rising_cons {α : Type} {kv : Nat × α} {r : Table α} (h : Table.rising (kv :: r) = true) :
    (∀ x ∈ r, kv.1 < x.1) ∧ Table.rising r = true := by
  simp only [Table.rising, Bool.and_eq_true, List.all_eq_true, decide_eq_true_eq] at h
  exact h

/-- In a table in rising order, what stands under a number is what is found there. -/
theorem find_rising {α : Type} {t : Table α} (h : t.rising = true) (n : Nat) (v : α) : t.find n = some v ↔ (n, v) ∈ t := by
  induction t with
  | nil => simp [Table.find]
  | cons kv r ih =>
    obtain ⟨h1, h2⟩ := rising_cons h
    obtain ⟨k, w⟩ := kv
    simp only [Table.find]
    split
    · rename_i hk; subst hk
      simp only [Option.some.injEq, List.mem_cons, Prod.mk.injEq, true_and]
      constructor
      · intro e; exact .inl e.symm
      · rintro (e | e)
        · exact e.symm
        · have := h1 _ e; simp at this
    · rename_i hk
      rw [ih h2]
      simp only [List.mem_cons, Prod.mk.injEq]
      constructor
      · exact .inr
      · rintro (e | e)
        · exact absurd e.1.symm hk
        · exact e

theorem mem_of_find {α : Type} {t : Table α} {n : Nat} {v : α} (h : t.find n = some v) : ∃ w, (n, w) ∈ t := by
  induction t with
  | nil => cases h
  | cons kv r ih =>
    obtain ⟨k, w⟩ := kv
    simp only [Table.find] at h
    split at h
    · rename_i hk; subst hk; exact ⟨w, by simp⟩
    · obtain ⟨w', hw⟩ := ih h; exact ⟨w', by simp [hw]⟩

/-! ### Numbers dealt anew (R65, R99) -/

/-- Renumbering touches only the tickets of the list, each by its place in it. -/
theorem renumber_spec (f : Nat → Ticket → Ticket) (l : List Nat) : ∀ (k : Nat) (g : Garage), l.Nodup →
    (∃ tk, Garage.renumber g f k l = { g with tickets := tk }) ∧
    ∀ n, (Garage.renumber g f k l).ticket n = (g.ticket n).map fun t =>
      match l.findIdx? fun m => m == n with | some i => f (k + i) t | none => t := by
  induction l with
  | nil => intro k g _; exact ⟨⟨_, rfl⟩, fun n => by simp [Garage.renumber]⟩
  | cons a r ih =>
    intro k g hnd
    obtain ⟨h1, h2⟩ := List.nodup_cons.mp hnd
    obtain ⟨⟨tk, e⟩, i2⟩ := ih (k + 1) (g.modTicket a (f k)) h2
    refine ⟨⟨tk, e⟩, fun n => ?_⟩
    show (Garage.renumber (g.modTicket a (f k)) f (k + 1) r).ticket n = _
    rw [i2]
    simp only [List.findIdx?_cons, beq_iff_eq]
    by_cases han : a = n
    · subst han
      have : (r.findIdx? fun m => m == a) = none := by
        rw [List.findIdx?_eq_none_iff]; intro x hx; simp; rintro rfl; exact h1 hx
      rw [ticket_modTicket, this]
      cases g.ticket a <;> simp
    · rw [ticket_modTicket_ne _ _ (Ne.symm han), if_neg han]
      cases g.ticket n with
      | none => rfl
      | some t =>
        simp only [Option.map_some]
        cases r.findIdx? fun m => m == n with
        | none => rfl
        | some i => simp only [Option.map_some]; rw [show k + 1 + i = k + (i + 1) by omega]

/-! ### Timers (R179) -/

/-- An expiry is the timer's own event where the timer stands at 0, and nothing otherwise. -/
theorem expire_cases (s : State) (d : Due) :
    (s.garage.remaining d = some 0 ∧ s.expire d = s.run (expires d)) ∨
      (s.garage.remaining d ≠ some 0 ∧ s.expire d = s) := by
  unfold State.expire
  split <;> simp_all

/-- The timers that are due are those that stand at 0, and no others. -/
theorem mem_due (g : Garage) (d : Due) : d ∈ g.due ↔ g.remaining d = some 0 := by
  unfold Garage.due
  rw [List.mem_filter]
  simp only [beq_iff_eq, and_iff_right_iff_imp]
  intro h
  unfold Garage.timers
  cases d with
  | move l => cases l <;> simp
  | pickup r =>
    obtain ⟨x, x1, x2⟩ := Option.bind_eq_some_iff.mp h
    obtain ⟨w, hw⟩ := mem_of_find x1
    simp only [List.mem_append, List.mem_map]
    exact .inl (.inr ⟨_, hw, rfl⟩)
  | hold n =>
    obtain ⟨x, x1, x2⟩ := Option.bind_eq_some_iff.mp h
    obtain ⟨w, hw⟩ := mem_of_find x1
    simp only [List.mem_append, List.mem_map]
    exact .inr ⟨_, hw, rfl⟩

/-- The expiries that a tick takes are those of the timers that stand at 0. -/
theorem mem_dueOrder (g : Garage) (d : Due) : d ∈ g.dueOrder ↔ g.remaining d = some 0 := by
  unfold Garage.dueOrder
  rw [mem_sortBy, mem_due]

/-- The expiry of a timer that is due comes before the other due ones, and none is lost. -/
theorem mem_dueFirst {g : Garage} {d : Due} (h : g.remaining d = some 0) (x : Due) :
    x ∈ d :: g.dueOrder.filter (· ≠ d) ↔ g.remaining x = some 0 := by
  rw [List.mem_cons, List.mem_filter, mem_dueOrder]
  constructor
  · rintro (rfl | ⟨h, -⟩) <;> assumption
  · intro hx
    by_cases e : x = d
    · exact .inl e
    · exact .inr ⟨hx, by simpa using e⟩

end Sys2Proof.Machine
end

