-- ==== Sys2Proof/Tests/Slice0.lean ====
section
/-! SUPPORT. Tests: ill-formed commands refused, the manual's worked examples, and for every statement with hypotheses a
state and operands that meet them. -/

namespace Sys2Proof.Tests

open Sys2Proof Sys2Proof.Machine

/-! ### Well-formedness -/

theorem test_illformed_long_payload : (Instr.arrival .s 0 (List.replicate 49 0)).wellFormed = false := by decide
theorem test_illformed_transit_payload : (Instr.transit .s ⟨3, 2, 0x90, 0, List.replicate 49 0⟩).wellFormed = false := by
  decide
theorem test_illformed_transit_to_part : (Instr.transit .s ⟨127, 2, 0x90, 0, []⟩).wellFormed = false := by decide
theorem test_illformed_transit_empty : (Instr.transit .s ⟨3, 2, 0x02, 0, []⟩).wellFormed = false := by decide
theorem test_illformed_unknown_empty : (Instr.unknownKind .s 0x02 0 []).wellFormed = false := by decide
theorem test_illformed_runner_low : (Instr.pickupTimerExpiry 0).wellFormed = false := by decide
theorem test_illformed_runner_high : (Instr.pickupTimerExpiry 33).wellFormed = false := by decide
theorem test_illformed_ticket_low : (Instr.holdTimerExpiry 0).wellFormed = false := by decide
theorem test_illformed_ticket_high : (Instr.holdTimerExpiry 65536).wellFormed = false := by decide
theorem test_wellformed_longest : (Instr.arrival .s 0 (List.replicate 48 0)).wellFormed = true := by decide
theorem test_wellformed_edges :
    (Instr.pickupTimerExpiry 32).wellFormed = true ∧ (Instr.holdTimerExpiry 65535).wellFormed = true := by decide

/-! ### A forecourt in SERVICE, with a ticket in each state -/

/-- A ticket record with everything else as an ARRIVAL leaves it; its number is its tag less 1000, its hook its number. -/
def record (n : Nat) (state : TicketState) (loc : Location) (bay : Option Nat) : Ticket where
  tag := 1000 + n
  cls := .s
  defaultPriority := 3
  arrivalMinute := 0
  estimate := 240
  podium := 2
  state := state
  location := loc
  bay := bay
  unresolved := none
  hook := n
  outOfRange := false
  keyStatus := .normal
  seq := none
  priority := none
  convoy := none
  hold := false
  resumePending := false
  phase := none
  cancelMark := false
  blocked := false
  runner := none
  readySeq := none
  measure := none
  relocations := 0
  place := false
  holdTimer := none

/-- A STANDARD PARK bay in service. -/
def place (stack position : Nat) (occ : Occupancy) : Bay := ⟨stack, position, false, false, false, .inService, occ⟩

/-- Two zones, four stacks, a ticket in each state, a hook in each state, runners, and lifts that are NOT_READY. -/
def garage : Garage := { Garage.reset with
  mode := .service
  zoneRecs := [(0, ⟨.a, 0, 4⟩), (1, ⟨.b, 1, 2⟩)]
  stackRecs := [(0, ⟨0, 3⟩), (1, ⟨1, 1⟩), (2, ⟨1, 2⟩), (3, ⟨0, 3⟩)]
  bayRecs := [(0, place 0 1 (.reserved 1)), (1, place 0 2 (.occupied 5)), (2, place 0 3 (.occupied 3)),
    (3, place 1 1 .free), (4, place 2 1 .free), (5, place 2 2 (.reserved 2)),
    (6, place 3 1 (.occupied 6)), (7, place 3 2 (.occupied 7)), (8, place 3 3 .free)]
  tickets := [(1, record 1 .allocated (.hall .a) (some 0)), (2, record 2 .parking (.hall .b) (some 5)),
    (3, record 3 .parked (.bay 2) (some 2)), (4, record 4 .overflow .lot none),
    (5, { record 5 .queued (.bay 1) (some 1) with seq := some 11, hold := true, place := true }),
    (6, { record 6 .retrieving (.bay 6) (some 6) with seq := some 12, hold := true, place := true }),
    (7, { record 7 .held (.bay 7) (some 7) with seq := some 13, hold := true, place := true, holdTimer := some 1 }),
    (8, { record 8 .ready (.lane .a) none with readySeq := some 2, runner := some 2 }),
    (9, { record 9 .outbound .withRunner none with readySeq := some 1, runner := some 3 }),
    (10, record 10 .check .unknown none)]
  readyCounter := 3
  cabinetSize := 14
  rangeA := some (1, 5)
  rangeB := some (6, 12)
  rangeO := some (13, 14)
  hooks := [(1, ⟨.reserved, some 1, none⟩), (2, ⟨.held, some 2, some 1002⟩), (3, ⟨.released, some 3, some 1003⟩),
    (4, ⟨.out, some 4, none⟩), (5, ⟨.mishung, some 5, some 7777⟩), (6, ⟨.held, some 6, some 1006⟩),
    (7, ⟨.held, some 7, some 1007⟩), (8, ⟨.held, some 8, some 1008⟩), (9, ⟨.out, some 9, none⟩),
    (10, ⟨.held, some 10, some 1010⟩), (11, ⟨.free, none, none⟩), (12, ⟨.stray, none, some 8888⟩),
    (13, ⟨.disabled, none, none⟩), (14, ⟨.free, none, none⟩)]
  queue := [⟨5, some 0⟩]
  requestCounter := 14
  liftA := { LiftUnit.reset with state := .notReady, lane := [8] }
  liftB := { LiftUnit.reset with state := .notReady }
  runners := [(1, ⟨.free, none, none⟩), (2, ⟨.assigned, some 8, some 1⟩), (3, ⟨.offPending, some 9, none⟩),
    (4, ⟨.off, none, none⟩), (5, ⟨.offPending, some 8, some 9⟩)]
  freeList := [1] }

/-- A station as LOAD_STATIONS leaves it. -/
def station (n : Nat) (r : Role) : Station := ⟨n, r, .active, 0, 0⟩

/-- The forecourt: the office 1, a podium 2, the desk 3, the cabinet 4, the runner base 5, the lifts 6 and 7. -/
def fore : State := { State.reset with
  line := { Line.reset with
    s := { Line.reset.s with
      stations := [station 1 .office, station 2 .podium, station 3 .desk, station 4 .cabinet, station 5 .runnerBase] }
    g := { Line.reset.g with mode := .running, stations := [station 6 .liftA, station 7 .liftB] } }
  garage := garage }

/-- A state whose port awaits an answer of a station. -/
def asking (p : Port) (n : Nat) (s : State) : State :=
  s.modPort p fun ps => { ps with visit := some (Visit.first n), awaiting := true }

/-- A frame an own queue may hold. -/
def note (kind : Byte) : QFrame := ⟨originated 1 kind [], .plain⟩

/-- A state whose Port S holds that many frames of its own. -/
def holding (n : Nat) (kind : Byte) (s : State) : State :=
  s.modPort .s fun ps => { ps with ownQueue := List.replicate n (note kind) }

/-- The forecourt with its garage changed, as one of its stations answers. -/
def asked (p : Port) (n : Nat) (f : Garage → Garage) : State := asking p n { fore with garage := f fore.garage }

/-- The forecourt as the office answers, its garage changed. -/
abbrev office (f : Garage → Garage) : State := asked .s 1 f

/-- The forecourt as the podium answers, its garage changed. -/
abbrev podium (f : Garage → Garage) : State := asked .s 2 f

/-- The forecourt as lift A's station answers, its garage changed. -/
abbrev liftA (f : Garage → Garage) : State := asked .g 6 f

/-- The characters of a payload. -/
def chars (l : List Nat) : List Byte := l.map (BitVec.ofNat 8)

theorem office_asks (f : Garage → Garage) : AskedBy (office f) (station 1 .office) .office := ⟨⟨rfl, rfl⟩, rfl⟩
theorem podium_asks (f : Garage → Garage) : AskedBy (podium f) (station 2 .podium) .podium := ⟨⟨rfl, rfl⟩, rfl⟩
theorem desk_asks (f : Garage → Garage) : AskedBy (asked .s 3 f) (station 3 .desk) .desk := ⟨⟨rfl, rfl⟩, rfl⟩
theorem cabinet_asks (f : Garage → Garage) : AskedBy (asked .s 4 f) (station 4 .cabinet) .cabinet := ⟨⟨rfl, rfl⟩, rfl⟩
theorem runner_base_asks (f : Garage → Garage) : AskedBy (asked .s 5 f) (station 5 .runnerBase) .runnerBase :=
  ⟨⟨rfl, rfl⟩, rfl⟩
theorem lift_a_reports (f : Garage → Garage) : ReportedBy (liftA f) (station 6 .liftA) .a := ⟨⟨rfl, rfl⟩, rfl, rfl⟩
theorem lift_b_reports (f : Garage → Garage) : ReportedBy (asked .g 7 f) (station 7 .liftB) .b := ⟨⟨rfl, rfl⟩, rfl, rfl⟩

/-! ### The manual's worked examples -/

/-- Section 11's example: podium 42's RETRIEVE of ticket 5201, to its payload. -/
theorem test_retrieve_frame :
    frameBody ⟨127, 42, Kind.retrieve, 0, chars [0x51, 0x14, 0, 1]⟩
      = chars [0xC5, 0x7F, 0x2A, 0x11, 0, 4, 0x51, 0x14, 0, 1] := by decide

/-- Section 11's example: the REPLY that podium 42 gets. -/
theorem test_retrieve_reply :
    frameBody (replyFrame (station 42 .podium) Kind.retrieve .taken
        (w16 5201 ++ w8 (ticketStateCode .queued) ++ w32 300 ++ w8 3 ++ wFlag true ++ w8 62))
      = chars [0xC5, 0x2A, 0x7F, 0x80, 0, 0x0C, 0x11, 0, 0x51, 0x14, 4, 0x2C, 1, 0, 0, 3, 1, 0x3E] := by decide

/-- R191's check over the nine digits: its register, taps and order are those of CRC-16/MCRF4XX, whose published check
value this is. -/
theorem test_check_value : checkOf (chars [0x31, 0x32, 0x33, 0x34, 0x35, 0x36, 0x37, 0x38, 0x39]) = 0x6F91 := by decide +kernel

/-- Section 1.7's example: 38,400 bit/s from P 0 and D 160, at 11 bits a character. -/
theorem test_rate_example :
    referenceClock / cyclesPerBit ⟨0, 160, .even, 64⟩ = 38400 ∧ bitsPerChar .even = 11 := by decide

/-- The state after a command. -/
def after (c : Instr) (s : State) : State :=
  match exec c s with
  | .next t => t
  | _ => s

/-- Section 1.7's example: SET_LINE with a window of 90 is answered TAKEN with 64. -/
theorem test_set_line_example :
    (after (.setLine .s 0 (chars [1, 0, 160, 1, 90, 1])) (asking .s 1 State.reset)).line.s.sending.map QFrame.frame
      = some (replyFrame (station 1 .office) Kind.setLine .taken (chars [1, 0, 160, 1, 64, 1])) := by decide

/-- Section 3.8, case 1: bay 80 with 12 against bay 25 with 42. -/
def caseOne : Garage := { Garage.reset with
  minute := 480
  zoneRecs := [(1, ⟨.a, 0, 4⟩), (5, ⟨.b, 0, 2⟩)]
  stackRecs := [(12, ⟨1, 3⟩), (40, ⟨5, 1⟩), (60, ⟨1, 3⟩), (61, ⟨5, 3⟩), (62, ⟨5, 2⟩)]
  bayRecs := [(24, place 12 1 .free), (25, place 12 2 .free), (26, place 12 3 (.occupied 1)),
    (60, place 60 1 (.occupied 2)), (61, place 60 2 (.occupied 3)), (62, place 60 3 (.occupied 4)),
    (63, place 61 1 (.occupied 5)), (64, place 61 2 (.occupied 6)), (65, place 61 3 (.occupied 7)),
    (66, place 62 1 (.reserved 9)), (67, place 62 2 (.occupied 8)), (80, place 40 1 .free)]
  tickets := [(1, { record 1 .parked (.bay 26) (some 26) with estimate := 600 }),
    (2, record 2 .queued (.bay 60) (some 60)), (3, record 3 .queued (.bay 61) (some 61)),
    (4, record 4 .queued (.bay 62) (some 62)), (5, record 5 .queued (.bay 63) (some 63)),
    (6, record 6 .queued (.bay 64) (some 64)), (7, record 7 .queued (.bay 65) (some 65)),
    (8, record 8 .retrieving (.bay 67) (some 67)), (9, record 9 .parking (.hall .b) (some 66))]
  liftB := { LiftUnit.reset with
    state := .moving
    parkRequest := some (9, 0)
    inFlight := some ⟨1, .park, 9, 1009, .hall .b, .bay 66, none⟩ } }

theorem test_allocation_case_one : caseOne.choose .everywhere .s 660 = some (80, 12) := by decide
theorem test_allocation_case_one_other_lift : caseOne.choose (.onLift .a) .s 660 = some (25, 42) := by decide

/-- Section 3.8, case 2: the two blockers' bays, with 9 and then with 16. -/
def caseTwo (occ105 : Occupancy) : Garage := { Garage.reset with
  minute := 600
  zoneRecs := [(3, ⟨.b, 2, 6⟩)]
  stackRecs := [(50, ⟨3, 3⟩), (51, ⟨3, 2⟩), (52, ⟨3, 1⟩), (53, ⟨3, 3⟩), (54, ⟨3, 2⟩)]
  bayRecs := [(100, place 50 1 (.occupied 3)), (101, place 50 2 (.occupied 2)), (102, place 50 3 (.occupied 1)),
    (103, place 51 1 .free), (104, place 51 2 (.occupied 4)),
    (105, ⟨52, 1, false, true, true, .inService, occ105⟩),
    (106, place 53 1 .free), (107, place 53 2 .free), (108, place 53 3 .free),
    (109, place 54 1 .free), (110, place 54 2 (.reserved 5))]
  tickets := [(1, record 1 .queued (.bay 102) (some 102)), (2, record 2 .parked (.bay 101) (some 101)),
    (3, record 3 .parked (.bay 100) (some 100)),
    (4, { record 4 .parked (.bay 104) (some 104) with estimate := 650 }), (5, record 5 .parking (.hall .b) (some 110))] }

theorem test_allocation_case_two :
    (caseTwo .free).choose (.relocation 3 50) .s 700 = some (105, 9) ∧
      (caseTwo (.reserved 3)).choose (.relocation 3 50) .e 900 = some (108, 16) := by decide

/-! ### What the hypotheses of the statements are met by

One theorem for each statement that has hypotheses: its name is that of the statement, and its parts are the clauses. -/

theorem test_meets_StepRunsFront :
    ({ fore with pending := [.tick, .warmStart] } : State).pending = .tick :: [.warmStart] ∧ fore.pending = [] := by decide

/-- A port of the forecourt with everything within its bounds at the top of its range. -/
def brim : PortState := { fore.line.s with
  ownQueue := List.replicate 48 (note Kind.alert)
  transitQueue := List.replicate 16 (originated 2 0x90 [])
  passOver := 2
  faultTally := 65535
  visit := some ⟨2, 4, false, pollFrame 2, true⟩
  awaiting := true }

theorem test_meets_LinesStaySound :
    ({ fore with line := { fore.line with s := brim } } : State).line.Sound ∧
      ∃ t, step { fore with line := { fore.line with s := brim }, pending := [.frameDiscarded .s] } = .next t := by
  refine ⟨⟨⟨by decide, by decide, by decide, by decide, by decide, by decide, ?_, fun _ _ _ => rfl,
    fun _ => ⟨rfl, rfl, by decide⟩, fun h => absurd rfl h⟩, ⟨by decide, by decide, by decide, by decide, by decide,
    by decide, ?_, fun _ h => (by cases h), fun h => (by cases h), fun h => absurd rfl h⟩, by decide, by decide⟩, _, rfl⟩
  · intro v h
    cases h
    exact ⟨by decide, fun h => (by cases h)⟩
  · intro v h
    cases h

theorem test_meets_TablesStaySound : fore.line.TablesSound ∧ ∃ t, step { fore with pending := [.warmStart] } = .next t :=
  ⟨⟨⟨by decide, by decide, by decide, by decide⟩, ⟨by decide, by decide, by decide, by decide⟩, by decide⟩, _, rfl⟩

/-- Line settings at the edges of their ranges. -/
def edges : LineSettings := ⟨7, 240, .odd, 4⟩

theorem test_meets_LineSettingsStayInRange :
    ({ fore.line with lineDueG := [⟨.g, edges, true⟩] } : Line).SettingsInRange ∧
      ∃ t, step { fore with pending := [.frameSent .s] } = .next t := by
  refine ⟨⟨⟨⟨by decide, by decide, by decide, by decide⟩, fun q h => (by cases h), fun q h => (by cases h)⟩,
    ⟨⟨by decide, by decide, by decide, by decide⟩, fun q h => (by cases h), fun q h => (by cases h)⟩, fun r h => ?_⟩, _, rfl⟩
  cases List.mem_singleton.mp h
  exact ⟨by decide, by decide, by decide, by decide⟩

theorem test_meets_SettingsStayInRange :
    ({ garage with
        weights := ⟨15, 0, 15, 0, 15, 0⟩, limits := ⟨30, 2879, 2880, 64⟩, movePeriod := 900, pickupPeriod := 30
        holdPeriod := 7200, seconds := 4294967295, minute := 4294967295, secsIntoMinute := 59 } : Garage).SettingsInRange ∧
      ∃ t, step { fore with pending := [.tick] } = .next t :=
  ⟨⟨⟨by decide, by decide, by decide, by decide, by decide, by decide⟩, ⟨by decide, by decide, by decide, by decide,
    by decide⟩, by decide, by decide, by decide, by decide, by decide, by decide, by decide, by decide, by decide,
    by decide, by decide, by decide⟩, _, rfl⟩

/-- Lift A as it moves with service-off pending, and lift B taken OUT with a move in doubt. -/
def working : Garage := { garage with
  liftA := { garage.liftA with
    state := .moving, serviceOn := false, offPending := true, moveTimer := some 1, nextNumber := 255
    inFlight := some ⟨254, .park, 1, 1001, .hall .a, .bay 0, none⟩, tenure := some (.channel .c0) }
  liftB := { garage.liftB with
    state := .out, serviceOn := false, unresolved := some ⟨9, .park, 10, 1010, .hall .b, .bay 5, none⟩ } }

theorem test_meets_LiftsStaySound :
    working.LiftsSound ∧ ∃ t, step { liftA (fun _ => working) with pending := [.liftStatus .g 0 [1]] } = .next t :=
  ⟨⟨⟨by decide, by decide, by decide, by decide, by decide, by decide, by decide⟩,
    ⟨by decide, by decide, by decide, by decide, by decide, by decide, by decide⟩⟩, _, rfl⟩

theorem test_meets_AnswerRoundTrip :
    ((chars (List.replicate 48 255)).length = 48 ∧ permits .podium Kind.arrival = true ∧
      frameCommand .s Kind.arrival 1 [] = some (.arrival .s 1 [])) ∧
    (permits .podium Kind.setLine = false ∧ Kind.setLine ≠ Kind.empty) ∧
    ((⟨126, 1, 0xFF, 0, []⟩ : Frame).src.toNat = 1 ∧ (⟨126, 1, 0xFF, 0, []⟩ : Frame).dest ≠ 127 ∧
      (⟨126, 1, 0xFF, 0, []⟩ : Frame).kind ≠ Kind.empty) := by decide

theorem test_meets_ReceiveChecks :
    let ps := (podium id).port .s
    let f : Frame := ⟨127, 2, Kind.cancel, 0, [1, 0]⟩
    let low : List RxChar := (frameChars f).map fun b => ⟨b, true, false⟩
    (low.map RxChar.data = frameChars f ∧ ∃ c ∈ low, parityFault .even c = true ∨ stopFault c = true) ∧
    (([⟨0xC5, true, true⟩] : List RxChar).any (parityFault .even) = true) ∧
    ([0, 0] ≠ checkChars (frameBody f)) ∧ ((0xC4 : Byte) ≠ 0xC5) ∧
    (6 ≤ (chars [0xC5, 127, 2, 0x10, 0, 49]).length ∧ 48 < ((chars [0xC5, 127, 2, 0x10, 0, 49]).getD 5 0).toNat) ∧
    (0 < 9 ∧ 9 < f.payload.length + 8) ∧ f.src.toNat ≠ 3 ∧
    (ps.awaiting = true ∧ ps.visit = some (Visit.first 2) ∧ ps.polled = some (station 2 .podium)) ∧
    ((fore.port .s).awaiting = false ∧
      ((fore.modPort .s fun ps => { ps with sending := some ⟨f, .plain⟩ }).port .s).sending = some ⟨f, .plain⟩) := by
  decide +kernel

/-- A forecourt whose station at Port S's poll position has that poll state and skip count. -/
def atStation (poll : PollState) (skips pos : Nat) (polled : Bool) : State :=
  fore.modPort .s fun ps => { ps with
    stations := ps.stations.map fun st => { st with poll := poll, skips := skips }
    pollPos := pos
    cyclePolled := polled }

theorem test_meets_PollVisits :
    (∀ s ∈ [fore, atStation .silent 3 4 true, atStation .silent 2 0 false, atStation .silent 2 4 true,
        atStation .silent 2 4 false, atStation .active 0 5 false],
      s.powered = true ∧ s.line.pollHold = false ∧ (s.port .s).mode = .running ∧ (s.port .s).sending = none ∧
        (s.port .s).awaiting = false ∧ (s.port .s).visit = none) ∧
    ((fore.modPort .s fun ps => { ps with visit := some ⟨2, 3, false, pollFrame 2, false⟩ }).port .s).visit
      = some ⟨2, 3, false, pollFrame 2, false⟩ ∧
    (fore.port .s).stations[(fore.port .s).pollPos]? = some (station 1 .office) ∧
    ((atStation .silent 3 4 true).port .s).stations[4]? = some ⟨5, .runnerBase, .silent, 0, 3⟩ ∧
    ((atStation .silent 2 0 false).port .s).stations[0]? = some ⟨1, .office, .silent, 0, 2⟩ ∧
    ((atStation .silent 2 4 true).port .s).stations[4]? = some ⟨5, .runnerBase, .silent, 0, 2⟩ ∧
    ((atStation .silent 2 4 false).port .s).cyclePolled = false ∧
    ((atStation .active 0 5 false).port .s).stations[5]? = none ∧
    32 < (holding 33 Kind.reply fore).line.s.ownQueue.length ∧ (State.reset.port .g).mode ≠ .running ∧
    ((office id).port .s).awaiting = true ∧ ((office id).line.s.ownQueue.length ≤ 32) := by decide

/-- The forecourt as a station of Port S with that miss count and poll state is asked. -/
def asks (misses : Nat) (poll : PollState) : State :=
  (asking .s 2 fore).modPort .s fun ps => { ps with
    stations := ps.stations.map fun st => { st with misses := misses, poll := poll } }

theorem test_meets_MissCharged :
    Asking (asks 1 .active) .s ⟨2, .podium, .active, 1, 0⟩ ∧ Asking (asks 2 .active) .s ⟨2, .podium, .active, 2, 0⟩ ∧
    Asking (asks 3 .silent) .s ⟨2, .podium, .silent, 3, 0⟩ ∧ NothingDue (liftA id) .g ∧
    Asking (liftA id) .g (station 6 .liftA) :=
  ⟨⟨rfl, rfl⟩, ⟨rfl, rfl⟩, ⟨rfl, rfl⟩, fun _ => rfl, ⟨rfl, rfl⟩⟩

theorem test_meets_AnswersHeard :
    Asking (asks 3 .silent) .s ⟨2, .podium, .silent, 3, 0⟩ ∧ NothingDue (asks 3 .silent) .s ∧
      Asking (asks 2 .active) .s ⟨2, .podium, .active, 2, 0⟩ := ⟨⟨rfl, rfl⟩, fun _ => rfl, ⟨rfl, rfl⟩⟩

/-- Lift A's station removed during its exchange and loaded again before its end. -/
def loadedAgain : State :=
  (liftA id).modPort .g fun ps => (ps.reload [station 7 .liftB]).reload [station 7 .liftB, station 6 .liftA]

/-- R4: the miss and the answer of a station removed during its exchange are discarded, though it has been loaded again;
the poll position, which the removal has moved on, stays. -/
theorem test_removed_station_is_neither_charged_nor_heard :
    ∀ c ∈ [Instr.miss .g, .empty .g, .frameDiscarded .g, .sourceMismatch .g, .liftStatus .g 1 [3]],
      (match exec c loadedAgain with
        | .next t => some ((t.port .g).stations, (t.port .g).visit, (t.port .g).pollPos, (t.port .g).faultTally,
            t.garage.liftA.readiness)
        | _ => none) = some ([station 7 .liftB, station 6 .liftA], none, 0, 0, loadedAgain.garage.liftA.readiness) := by
  decide +kernel

theorem test_meets_AnswersOutOfPlace :
    (fore.powered = true ∧ (fore.port .s).awaiting = false ∧ fore.line.pollHold = false) ∧
    (((asking .s 99 fore).port .s).awaiting = true ∧ NothingDue (asking .s 99 fore) .s ∧
      ∀ x ∈ ((asking .s 99 fore).port .s).stations, x.number ≠ 99) ∧
    ((loadedAgain.port .g).awaiting = true ∧ NothingDue loadedAgain .g ∧
      ((loadedAgain.port .g).visit.map Visit.removed) = some true) ∧
    (Asking (podium id) .s (station 2 .podium) ∧ NothingDue (podium id) .s ∧
      48 < (chars (List.replicate 49 0)).length ∧
      frameCommand .s Kind.arrival 0 (chars (List.replicate 49 0)) = some (.arrival .s 0 (chars (List.replicate 49 0)))) ∧
    (({ fore with powered := false } : State).powered = false ∧ ∀ b, Instr.tick ≠ .powerUp b) :=
  ⟨by decide, ⟨rfl, fun _ => rfl, by decide⟩, ⟨rfl, fun _ => rfl, by decide⟩,
    ⟨⟨rfl, rfl⟩, fun _ => rfl, by decide, rfl⟩, rfl, fun _ h => (by cases h)⟩

/-- Port G as it sends a MOVE_ORDER for lift A's move 7. -/
def ordering : State := fore.modPort .g fun ps => { ps with
  sending := some ⟨originated 6 Kind.moveOrder [], .moveOrder .a 7⟩ }

theorem test_meets_BreakAndReturn :
    (ordering.powered = true ∧ ordering.line.lineDueG = [] ∧ (ordering.port .g).mode = .running) ∧
    ordering.line.TablesSound ∧
    (ordering.line.stationOfRole .office = some 1 ∧
      ∀ n ∈ [0, 31, 32, 47, 48], (holding n Kind.reply fore).line.s.ownQueue.length = n ∧
        (holding n Kind.reply fore).line.stationOfRole .office = some 1) ∧
    ((holding 48 Kind.alert fore).line.s.ownQueue.any (fun q => q.frame.kind == Kind.alert) = true ∧
      (holding 48 Kind.reply fore).line.s.ownQueue.any (fun q => q.frame.kind == Kind.alert) = false) ∧
    ((State.reset.port .g).mode ≠ .running ∧ State.reset.line.pollHold = false) ∧
    ((fore.modPort .g fun ps => { ps with mode := .lineFault }).port .g).mode = .lineFault :=
  ⟨by decide, ⟨⟨by decide, by decide, by decide, by decide⟩, ⟨by decide, by decide, by decide, by decide⟩, by decide⟩,
    by decide, by decide, by decide, by decide⟩

/-- Port S as it sends a frame of its own, with queues and counts as given. -/
def sends (turn pass own transit : Nat) : State := fore.modPort .s fun ps => { ps with
  sending := some (note Kind.reply)
  turnLeft := turn
  passOver := pass
  ownQueue := List.replicate own (note Kind.reply)
  transitQueue := List.replicate transit (originated 2 0x90 []) }

theorem test_meets_TransmissionEnds :
    (∀ s ∈ [sends 0 0 0 0, sends 1 0 0 0, sends 1 2 32 0, sends 1 2 0 16, sends 2 1 32 16, sends 2 2 32 16],
      s.powered = true ∧ s.line.pollHold = false ∧ (s.port .s).mode = .running ∧ (s.port .s).awaiting = false ∧
        (s.port .s).sending = some (note Kind.reply) ∧ (note Kind.reply).mark = .plain) ∧
    ((sends 0 0 0 0).port .s).turnLeft = 0 ∧
    (0 < ((sends 1 0 0 0).port .s).turnLeft ∧ ((sends 1 0 0 0).port .s).ownQueue = []) ∧
    (((sends 1 2 32 0).port .s).ownQueue = note Kind.reply :: List.replicate 31 (note Kind.reply) ∧
      ((sends 1 2 32 0).port .s).transitQueue = []) ∧
    ((sends 1 2 0 16).port .s).transitQueue = originated 2 0x90 [] :: List.replicate 15 (originated 2 0x90 []) ∧
    ((sends 2 1 32 16).port .s).passOver < 2 ∧ ¬ ((sends 2 2 32 16).port .s).passOver < 2 ∧
    (ordering.powered = true ∧ ordering.line.lineDueG = [] ∧
      ordering.line.g.sending = some ⟨originated 6 Kind.moveOrder [], .moveOrder .a 7⟩) ∧
    fore.line.g.sending = none := by decide

/-- Port S as it sends the reply to a SET_LINE. -/
def replying (r : LineRequest) (s : State) : State := s.modPort .s fun ps => { ps with
  sending := some ⟨originated 1 Kind.reply [], .lineReply r⟩ }

theorem test_meets_LineSettingsTakeEffect :
    (∀ s ∈ [fore, liftA id, State.reset], s.powered = true ∧ s.line.lineDueG = [] ∧
      (replying ⟨.g, edges, false⟩ s).line.s.sending
        = some ⟨originated 1 Kind.reply [], .lineReply ⟨.g, edges, false⟩⟩) ∧
    (replying ⟨.s, edges, true⟩ fore).line.s.sending ≠ none ∧
    (liftA id).line.g.awaiting = true ∧ (fore.line.g.awaiting = false ∧ fore.line.g.sending = none) ∧
    fore.line.g.mode ≠ .disabled ∧ (State.reset.line.g.mode = .disabled ∧ State.reset.line.g.visit = none) ∧
    fore.line.pollHold = false ∧ (fore.garage.chan0.state = .idle ∧ fore.garage.chan1.state = .idle) := by decide

/-- The forecourt as podium 2 answers, with a pass table and frames in Port S's transit queue. -/
def routing (action : PassAction) (transit : Nat) : State :=
  let s := (podium id).modPort .s fun ps => { ps with transitQueue := List.replicate transit (originated 2 0x90 []) }
  { s with line := { s.line with passTable := [⟨none, 3, 0x90, 0x90, .drop⟩, ⟨some 2, 3, 0x91, 0xFF, action⟩] } }

theorem test_meets_TransitRouted :
    let entry (s : State) (f : Frame) := s.line.passTable.find? fun en =>
      (en.source = none || en.source = some 2) && en.dest == f.dest.toNat &&
        decide (en.low ≤ f.kind.toNat) && decide (f.kind.toNat ≤ en.high)
    (∀ s ∈ [routing .pass 15, routing .pass 16, routing .gateA 0], s.powered = true ∧
      (s.port .s).polled = some (station 2 .podium)) ∧
    (routing .pass 0).line.reaches 126 = none ∧ (routing .pass 0).line.reaches 3 = some .s ∧
    entry (routing .pass 0) ⟨3, 2, 0x8F, 0, []⟩ = none ∧
    entry (routing .pass 0) ⟨3, 2, 0x90, 0, []⟩ = some ⟨none, 3, 0x90, 0x90, .drop⟩ ∧
    (entry (routing .gateA 0) ⟨3, 2, 0xFF, 0, []⟩ = some ⟨some 2, 3, 0x91, 0xFF, .gateA⟩ ∧
      (routing .gateA 0).garage.liftA.state ≠ .out) ∧
    (entry (routing .pass 15) ⟨3, 2, 0x91, 0, []⟩ = some ⟨some 2, 3, 0x91, 0xFF, .pass⟩ ∧
      ((routing .pass 15).port .s).transitQueue.length < 16) ∧
    ¬ ((routing .pass 16).port .s).transitQueue.length < 16 := by decide

theorem test_meets_OwnQueueFull :
    let full := { fore.line with s := { fore.line.s with
      ownQueue := note Kind.reply :: note Kind.alert :: List.replicate 46 (note Kind.reply) } }
    let closed (n : Nat) := { fore.line with g := { fore.line.g with ownQueue := List.replicate n (note Kind.reply) } }
    (holding 47 Kind.reply fore).line.s.ownQueue.length < 48 ∧
    (full.s.ownQueue = [note Kind.reply] ++ note Kind.alert :: List.replicate 46 (note Kind.reply) ∧
      48 ≤ full.s.ownQueue.length ∧ ∀ z ∈ [note Kind.reply], z.frame.kind ≠ Kind.alert) ∧
    (48 ≤ (holding 48 Kind.reply fore).line.s.ownQueue.length ∧
      ∀ z ∈ (holding 48 Kind.reply fore).line.s.ownQueue, z.frame.kind ≠ Kind.alert) ∧
    (closed 5).g.ownQueue.length < 6 ∧ 6 ≤ (closed 6).g.ownQueue.length ∧ (closed 7).g.ownQueue.length < 8 ∧
    8 ≤ (closed 8).g.ownQueue.length ∧
    (note Kind.moveOrder).frame.kind = Kind.moveOrder := by decide

theorem test_meets_GatesRefuse :
    Asking (podium id) .s (station 2 .podium) ∧ permits .podium Kind.setLine = false ∧
      frameCommand .s Kind.setLine 0 (chars (List.replicate 48 0)) = some (.setLine .s 0 (chars (List.replicate 48 0))) ∧
      (podium id).line.s.hasRoom ∧ Asking (liftA id) .g (station 6 .liftA) ∧ permits .liftA 0xFF = false ∧
      (liftA id).line.TablesSound ∧ (liftA id).line.g.ownQueue.length < 6 :=
  ⟨⟨rfl, rfl⟩, by decide, rfl, Or.inl (by decide), ⟨rfl, rfl⟩, by decide,
    ⟨⟨by decide, by decide, by decide, by decide⟩, ⟨by decide, by decide, by decide, by decide⟩, by decide⟩, by decide⟩

theorem test_meets_GatesRefuse_mode :
    (frameCommand .s Kind.enterService 0 [] = some (.enterService .s 0 []) ∧
      Asking (office id) .s (station 1 .office) ∧ permits .office Kind.enterService = true ∧
      (office id).garage.mode = .service) ∧
    (frameCommand .s Kind.arrival 0 [] = some (.arrival .s 0 []) ∧
      Asking (podium fun _ => Garage.reset) .s (station 2 .podium) ∧ permits .podium Kind.arrival = true ∧
      (podium fun _ => Garage.reset).garage.mode = .commissioning) ∧ roleLift .office = none ∧ roleLift .podium = none :=
  ⟨⟨rfl, ⟨rfl, rfl⟩, by decide, rfl⟩, ⟨rfl, ⟨rfl, rfl⟩, by decide, rfl⟩, rfl, rfl⟩

theorem test_meets_GatesRefuse_length :
    (frameCommand .s Kind.cancel 0 [1] = some (.cancel .s 0 [1]) ∧ Asking (podium id) .s (station 2 .podium) ∧
      permits .podium Kind.cancel = true ∧ takenIn .service Kind.cancel = true ∧ wellShaped Kind.cancel [1] = false ∧
      Kind.cancel ∉ reportKinds) ∧
    (frameCommand .g Kind.liftStatus 0 [2] = some (.liftStatus .g 0 [2]) ∧ Asking (liftA id) .g (station 6 .liftA) ∧
      permits .liftA Kind.liftStatus = true ∧ takenIn .service Kind.liftStatus = true ∧
      wellShaped Kind.liftStatus [2] = false ∧ Kind.liftStatus ∈ reportKinds ∧ NothingDue (liftA id) .g) ∧
    (∀ x ∈ [(Kind.liftStatus, [2]), (Kind.moveFault, [7, 3]), (Kind.moveRefused, [7, 2])],
      (frameCommand .g x.1 0 x.2).isSome = true ∧ permits .liftA x.1 = true ∧ takenIn .service x.1 = true) ∧
    (([2] : List Byte).length = 1 ∧ 1 < u8 [2] 0 ∧ ([7, 3] : List Byte).length = 2 ∧ 2 < u8 [7, 3] 1 ∧ 1 < u8 [7, 2] 1) :=
  ⟨⟨rfl, ⟨rfl, rfl⟩, by decide, by decide, by decide, by decide⟩,
    ⟨rfl, ⟨rfl, rfl⟩, by decide, by decide, by decide, by decide, fun _ => rfl⟩, by decide, by decide⟩

/-- An ARRIVAL's payload (R196). -/
def arrivalOf (n tag cls prio stay : Nat) : List Byte := w16 n ++ w32 tag ++ w8 cls ++ w8 prio ++ w16 stay

theorem test_meets_ArrivalAnswered :
    let lot (k : Nat) (g : Garage) : Garage := { g with limits := { g.limits with overflowCapacity := k } }
    let g := (podium (lot 2)).garage
    let pl := arrivalOf 65535 4294967295 0 8 0
    (AskedBy (podium (lot 2)) (station 2 .podium) .podium ∧ g.mode = .service ∧ pl.length = 10 ∧ u16 pl 0 ≠ 0 ∧
      u32 pl 2 ≠ 0 ∧ classOf (u8 pl 6) = some .s ∧ g.ticket 65535 = none ∧ (∀ x ∈ g.tickets, x.2.tag ≠ 4294967295) ∧
      g.tickets.length < 320) ∧
    (g.choose .everywhere .s 240 = some (3, 2) ∧ g.bay 3 = some (place 1 1 .free) ∧ g.liftOfBay 3 = some .b ∧
      g.chooseHook (g.rangeFor (some .b)) = some (11, false)) ∧
    (let h := (podium fun g => { g with hooks := g.hooks.take 10 }).garage;
      h.choose .everywhere .s 240 = some (3, 2) ∧ h.chooseHook (h.rangeFor (some .b)) = none) ∧
    (g.choose .everywhere .l 240 = none ∧ g.overflowCount < g.limits.overflowCapacity ∧
      g.chooseHook g.rangeO = some (14, false)) ∧
    ¬ (podium (lot 1)).garage.overflowCount < (podium (lot 1)).garage.limits.overflowCapacity := by
  refine ⟨⟨podium_asks _, ?_⟩, ?_⟩ <;> decide +kernel

theorem test_meets_ArrivalAnswered_turned_away :
    AskedBy (podium id) (station 2 .podium) .podium ∧
    (let g := (podium id).garage;
      g.mode = .service ∧ (arrivalOf 0 0 0 0 0).length = 10 ∧
      u16 (arrivalOf 0 1 0 0 0) 0 = 0 ∧ u32 (arrivalOf 1 0 0 0 0) 2 = 0 ∧ 2 < u8 (arrivalOf 1 1 3 0 0) 6 ∧
      u8 (arrivalOf 1 1 2 0 0) 6 ≤ 2 ∧
      (g.ticket 1 = some (record 1 .allocated (.hall .a) (some 0)) ∧ ∀ x ∈ g.tickets, x.2.tag ≠ 1) ∧
      (g.ticket 20 = none ∧ (g.tickets.findKey fun t => t.tag == 1003) = some 3)) ∧
    320 ≤ (podium fun g => { g with
      tickets := (List.range 320).map fun i => (i + 1, record i .parked .lot none) }).garage.tickets.length :=
  ⟨podium_asks _, by decide, by decide +kernel⟩

theorem test_meets_RetrieveAnswered :
    let f (g : Garage) : Garage := { g with requestCounter := 4294967294 }
    let g := (podium f).garage
    (AskedBy (podium f) (station 2 .podium) .podium ∨ AskedBy (podium f) (station 2 .podium) .desk) ∧
    (g.mode = .service ∧ (chars [3, 0, 0, 0]).length = 4 ∧ u16 (chars [3, 0, 0, 0]) 0 ≠ 0 ∧
      g.ticket (u16 (chars [3, 0, 0, 0]) 0) = some (record 3 .parked (.bay 2) (some 2)) ∧
      g.requestCounter < 4294967295 ∧ g.placesHeld < 64) ∧
    g.ticket (u16 (chars [4, 0, 0, 3]) 0) = some (record 4 .overflow .lot none) :=
  ⟨Or.inl (podium_asks _), by decide, by decide⟩

theorem test_meets_RetrieveAnswered_otherwise :
    (AskedBy (asked .s 3 id) (station 3 .desk) .podium ∨ AskedBy (asked .s 3 id) (station 3 .desk) .desk) ∧
    (let g := (asked .s 3 id).garage;
      g.mode = .service ∧ (chars [0, 0, 0, 0]).length = 4 ∧ u16 (chars [0, 0, 0, 0]) 0 = 0 ∧ g.ticket 65535 = none ∧
      [1, 2, 10, 5, 6, 7, 8, 9].map (fun n => (g.ticket n).map Ticket.state)
        = [some .allocated, some .parking, some .check, some .queued, some .retrieving, some .held, some .ready,
          some .outbound]) ∧
    (let h := (asked .s 3 fun g => { g with tickets := (List.range 65).map fun i =>
        (i + 1, { record i .parked .lot none with place := decide (0 < i) }) }).garage;
      (h.ticket 1).map Ticket.state = some .parked ∧ 64 ≤ h.placesHeld) :=
  ⟨Or.inr (desk_asks _), by decide, by decide +kernel⟩

theorem test_meets_ResumeAndCancel :
    (AskedBy (podium id) (station 2 .podium) .podium ∨ AskedBy (podium id) (station 2 .podium) .desk) ∧
    (let g := (podium id).garage;
      g.mode = .service ∧ (w16 0).length = 2 ∧ u16 (w16 0) 0 = 0 ∧ u16 (w16 65535) 0 ≠ 0 ∧ g.ticket 65535 = none ∧
      (g.ticket 7).map Ticket.state = some .held ∧
      ((g.ticket 6).map fun t => (t.state, t.convoy, t.hold, t.resumePending, t.cancelMark))
        = some (.retrieving, none, true, false, false) ∧
      ((g.ticket 5).map fun t => (t.state, t.convoy, t.hold)) = some (.queued, none, true) ∧
      ((g.ticket 3).map fun t => t.state) = some .parked ∧ ((g.ticket 1).map Ticket.state) = some .allocated ∧
      ¬ (g.liftA.inFlight.bind Move.target = some 6 ∨ g.liftB.inFlight.bind Move.target = some 6)) ∧
    (let h := (podium fun g => { g with
        tickets := (g.tickets.adjust 5 fun t => { t with hold := false }).adjust 6 fun t => { t with cancelMark := true }
        liftA := { g.liftA with
          state := .moving, inFlight := some ⟨7, .final, 6, 1006, .bay 6, .lane .a, some 6⟩ } }).garage;
      ((h.ticket 6).map fun t => (t.state, t.cancelMark)) = some (.retrieving, true) ∧
      ((h.ticket 5).map fun t => (t.state, t.hold)) = some (.queued, false) ∧
      h.liftA.inFlight.bind Move.target = some 6) :=
  ⟨Or.inl (podium_asks _), by decide, by decide⟩

theorem test_meets_HandoverCloses :
    AskedBy (podium id) (station 2 .podium) .podium ∧
    (let g := (podium id).garage;
      g.mode = .service ∧ (w16 0).length = 2 ∧ u16 (w16 0) 0 = 0 ∧ g.ticket 65535 = none ∧
      [8, 9, 3].map (fun n => (g.ticket n).map Ticket.state) = [some .ready, some .outbound, some .parked]) ∧
    ([1, 2, 3, 4, 5].map fun n => (garage.hooks.find (record n .ready .lot none).hook).map fun h => (h.state, h.tag))
      = [some (.reserved, none), some (.held, some 1002), some (.released, some 1003), some (.out, none),
        some (.mishung, some 7777)] := ⟨podium_asks _, by decide, by decide⟩

theorem test_meets_ReParkAnswered :
    let lot (k : Nat) (g : Garage) : Garage := { g with limits := { g.limits with overflowCapacity := k } }
    let full (k : Nat) (g : Garage) : Garage := { lot k g with bayRecs := [] }
    AskedBy (podium id) (station 2 .podium) .podium ∧
    (let g := (podium id).garage;
      g.mode = .service ∧ (chars [9, 0, 0, 0]).length = 4 ∧ u16 (chars [0, 0, 0, 0]) 0 = 0 ∧ g.ticket 65535 = none ∧
      ((g.ticket 3).map Ticket.state) = some .parked ∧ (g.ticket 9).map (fun t => (t.state, t.cls)) = some (.outbound, .s) ∧
      g.choose .everywhere .s 240 = some (3, 2) ∧ g.bay 3 = some (place 1 1 .free) ∧ g.liftOfBay 3 = some .b) ∧
    ((podium (full 2)).garage.choose .everywhere .s 240 = none ∧
      (podium (full 2)).garage.overflowCount < (podium (full 2)).garage.limits.overflowCapacity) ∧
    ((podium (full 1)).garage.choose .everywhere .s 240 = none ∧
      ¬ (podium (full 1)).garage.overflowCount < (podium (full 1)).garage.limits.overflowCapacity) :=
  ⟨podium_asks _, by decide, by decide, by decide⟩

theorem test_meets_ReadyEffects :
    (garage.ticket 6).isSome = true ∧
    ({ garage with readyCounter := 4294967294 } : Garage).readyCounter < 4294967295 ∧
    (garage.freeList = 1 :: [] ∧ (garage.runners.find 1).isSome = true) ∧
    ({ garage with freeList := [] } : Garage).freeList = [] ∧
    ({ record 6 .retrieving (.bay 6) (some 6) with convoy := some .c0 } : Ticket).convoy = some .c0 ∧
    garage.hooks.find 6 = some ⟨.held, some 6, some 1006⟩ := by decide

theorem test_meets_KeyEvents :
    AskedBy (asked .s 4 id) (station 4 .cabinet) .cabinet ∧
    (let g := (asked .s 4 id).garage;
      let key (h tag : Nat) : List Byte := w16 h ++ w32 tag
      (key 1 0).length = 6 ∧ (w16 1).length = 2 ∧ g.hooks.find (u16 (key 15 1) 0) = none ∧ u32 (key 1 0) 2 = 0 ∧
      [11, 2, 3, 5, 12, 13, 1, 4].map (fun h => (g.hooks.find h).map Hook.state)
        = [some .free, some .held, some .released, some .mishung, some .stray, some .disabled, some .reserved,
          some .out] ∧
      ((g.hooks.find 1).bind Hook.ticket = some 1 ∧ (g.ticket 1).map Ticket.tag = some 1001 ∧
        u32 (key 1 1001) 2 = 1001 ∧ u32 (key 1 9999) 2 ≠ 1001) ∧
      ((g.hooks.find 9).bind Hook.ticket = some 9 ∧ (g.ticket 9).map Ticket.state = some .outbound)) :=
  ⟨cabinet_asks _, by decide⟩

theorem test_meets_RunnersSignOnAndOff :
    AskedBy (asked .s 5 id) (station 5 .runnerBase) .runnerBase ∧
    (let g := (asked .s 5 id).garage;
      (chars [0]).length = 1 ∧ u8 (chars [0]) 0 < 1 ∧ 32 < u8 (chars [33]) 0 ∧ u8 (chars [32]) 0 = 32 ∧
      [4, 1, 2, 3, 5].map (fun r => (g.runner r).state) = [.off, .free, .assigned, .offPending, .offPending] ∧
      g.waitList = [] ∧ (g.runner 5).ticket = some 8 ∧ (g.ticket 8).map Ticket.state = some .ready ∧
      (g.runner 3).ticket = some 9 ∧ (g.ticket 9).map Ticket.state = some .outbound ∧ (g.runner 32).state = .off) ∧
    (let h := (asked .s 5 fun g => { g with waitList := [8], freeList := [] }).garage;
      h.waitList = 8 :: [] ∧ (h.ticket 8).isSome = true ∧ h.freeList = []) ∧
    ((garage.ticket 6).bind Ticket.runner = none ∧ (garage.ticket 9).bind Ticket.runner = some 3 ∧
      (garage.runner 3).state = .offPending ∧ (garage.ticket 8).bind Ticket.runner = some 2 ∧
      (garage.runner 2).state ≠ .offPending ∧ garage.waitList = [] ∧ (garage.ticket 10).isSome = true ∧
      ({ garage with waitList := [10] } : Garage).waitList = 10 :: []) :=
  ⟨runner_base_asks _, by decide, by decide, by decide⟩

theorem test_meets_PickupAnswered :
    AskedBy (asked .s 5 id) (station 5 .runnerBase) .runnerBase ∧
    (let g := (asked .s 5 id).garage;
      (chars [2, 8, 0]).length = 3 ∧ u8 (chars [0, 8, 0]) 0 < 1 ∧ 32 < u8 (chars [33, 8, 0]) 0 ∧
      u16 (chars [32, 0, 0]) 1 = 0 ∧ g.ticket (u16 (chars [32, 255, 255]) 1) = none ∧
      ((g.ticket 9).map fun t => (t.state, t.runner)) = some (.outbound, some 3) ∧
      ((g.runner 1).state = .free ∧ ¬ ((g.runner 1).state = .assigned ∨ (g.runner 1).state = .offPending)) ∧
      ((g.runner 2).state = .assigned ∧ (g.runner 2).ticket = some 8 ∧ (g.ticket 8).map Ticket.location = some (.lane .a) ∧
        (g.lift .a).lane.head? = some 8)) ∧
    ((asked .s 5 fun g => { g with liftA := { g.liftA with lane := [4, 8] } }).garage.lift .a).lane.head? ≠ some 8 :=
  ⟨runner_base_asks _, by decide, by decide⟩

theorem test_meets_LiftStatusAndCars :
    ReportedBy (liftA id) (station 6 .liftA) .a ∧
    (let g := (liftA id).garage.heardLift .a (station 6 .liftA);
      let inHall (n : Nat) := g.liftA.hall.map Prod.snd = some n ∨ g.liftB.hall.map Prod.snd = some n
      (chars [1]).length = 1 ∧ u8 (chars [1]) 0 ≤ 1 ∧ (w32 1001).length = 4 ∧ (g.lift .a).hall = none ∧
      (∀ x ∈ g.tickets, x.2.tag ≠ u32 (w32 9999) 0) ∧
      ((g.tickets.findKey fun t => t.tag == u32 (w32 1003) 0) = some 3 ∧ (g.ticket 3).map Ticket.state = some .parked) ∧
      ((g.tickets.findKey fun t => t.tag == u32 (w32 1001) 0) = some 1 ∧ (g.ticket 1).map Ticket.state = some .allocated ∧
        ¬ inHall 1 ∧ ((g.ticket 1).bind Ticket.bay).bind g.liftOfBay = some .a)) ∧
    (liftA fun g => { g with liftA := { g.liftA with hall := some (1002, 2) } }).garage.liftA.hall ≠ none ∧
    (ReportedBy (asked .g 7 id) (station 7 .liftB) .b ∧
      (let g := (asked .g 7 id).garage.heardLift .b (station 7 .liftB);
        ((g.ticket 1).bind Ticket.bay).bind g.liftOfBay ≠ some .b ∧ g.choose (.onLift .b) .s 240 = some (3, 2)) ∧
      ((asked .g 7 fun g => { g with stackRecs := g.stackRecs.take 1 }).garage.heardLift .b (station 7 .liftB)).choose
        (.onLift .b) .s 240 = none) :=
  ⟨lift_a_reports _, by decide, by decide, lift_b_reports _, by decide, by decide⟩

/-- The forecourt's garage with that move in flight on lift A. -/
def moving (m : Move) (off : Bool) (g : Garage) : Garage := { g with
  liftA := { g.liftA with state := .moving, inFlight := some m, offPending := off } }

theorem test_meets_MoveDone :
    let park : Move := ⟨255, .park, 1, 1001, .hall .a, .bay 0, none⟩
    let relocation : Move := ⟨1, .relocation, 5, 1005, .bay 1, .bay 8, some 3⟩
    let final : Move := ⟨7, .final, 6, 1006, .bay 6, .lane .a, some 6⟩
    ReportedBy (liftA (moving park true)) (station 6 .liftA) .a ∧ (w8 255).length = 1 ∧
    (let g := (liftA (moving park true)).garage.heardLift .a (station 6 .liftA);
      (g.lift .a).inFlight = some park ∧ park.number = u8 (w8 255) 0 ∧ (g.lift .a).offPending = true) ∧
    (let g := (liftA (moving relocation false)).garage.heardLift .a (station 6 .liftA);
      (g.lift .a).inFlight = some relocation ∧ relocation.number = u8 (w8 1) 0) ∧
    (let g := (liftA (moving final false)).garage.heardLift .a (station 6 .liftA);
      (g.lift .a).inFlight = some final ∧ final.number = u8 (w8 7) 0) :=
  ⟨lift_a_reports _, by decide, by decide, by decide, by decide⟩

theorem test_meets_MovesNotCompleted :
    let park : Move := ⟨255, .park, 1, 1001, .hall .a, .bay 0, none⟩
    let final : Move := ⟨7, .final, 6, 1006, .bay 6, .lane .a, some 6⟩
    let inFlight (m : Move) (off : Bool) : Prop :=
      let g := (liftA (moving m off)).garage.heardLift .a (station 6 .liftA)
      (g.lift .a).inFlight = some m ∧ (g.lift .a).offPending = off
    ReportedBy (liftA (moving final false)) (station 6 .liftA) .a ∧
    (inFlight park true ∧ inFlight park false ∧ inFlight final false) ∧
    ([0, 1, 2].map fun p => (u8 (w8 7 ++ w8 p) 0, u8 (w8 7 ++ w8 p) 1, (w8 7 ++ w8 p).length))
      = [(7, 0, 2), (7, 1, 2), (7, 2, 2)] ∧
    ((liftA (moving final false)).garage.heardLift .a (station 6 .liftA)).cancelMarked 6 = false ∧
    ((liftA fun g => moving final false (g.modTicket 6 fun t => { t with cancelMark := true })).garage.heardLift .a
      (station 6 .liftA)).cancelMarked 6 = true :=
  ⟨lift_a_reports _, by decide, by decide, by decide, by decide⟩

theorem test_meets_LateReports :
    let lost : Move := ⟨9, .final, 6, 1006, .bay 6, .lane .a, some 6⟩
    let f (last : Option Nat) (g : Garage) : Garage := { g with
      liftA := { g.liftA with state := .faulted, unresolved := some lost, lastResolved := last } }
    ReportedBy (liftA (f none)) (station 6 .liftA) .a ∧
    (let g := (liftA (f (some 8))).garage.heardLift .a (station 6 .liftA);
      (g.lift .a).inFlight = none ∧ (g.lift .a).unresolved = some lost ∧ lost.number = u8 (w8 9 ++ w8 2) 0 ∧
      lost.number ≠ u8 (w8 8) 0 ∧ (g.lift .a).lastResolved = some 8 ∧ (w8 9).length = 1 ∧ (w8 9 ++ w8 2).length = 2 ∧
      u8 (w8 9 ++ w8 2) 1 ≤ 2 ∧ u8 (w8 9 ++ w8 1) 1 ≤ 1) :=
  ⟨lift_a_reports _, by decide⟩

theorem test_meets_SettingsSet :
    AskedBy (office id) (station 1 .office) .office ∧ AskedBy (office fun _ => Garage.reset) (station 1 .office) .office ∧
    (let limits (t1 t2 : Nat) : List Byte := w16 29 ++ w16 t1 ++ w16 t2 ++ w8 65;
      (chars [16, 0, 0, 0, 0, 255]).length = 6 ∧ (limits 2879 2880).length = 7 ∧
      (1 ≤ u16 (limits 2879 2880) 2 ∧ u16 (limits 2879 2880) 2 < u16 (limits 2879 2880) 4 ∧
        u16 (limits 2879 2880) 4 ≤ 2880) ∧
      u16 (limits 0 2880) 2 < 1 ∧ 2880 < u16 (limits 2881 2880) 2 ∧ u16 (limits 2880 0) 4 < 1 ∧
      2880 < u16 (limits 1 2881) 4 ∧ (u16 (limits 2880 2880) 4 ≤ u16 (limits 2880 2880) 2)) ∧
    ((chars [8, 0, 255]).length = 3 ∧ (w16 29 ++ w16 1801 ++ w16 7201).length = 6 ∧ (chars [0, 5]).length = 2 ∧
      (office fun _ => Garage.reset).garage.mode = .commissioning ∧ (chars [1]).length = 1 ∧ u8 (chars [1]) 0 ≤ 1 ∧
      1 < u8 (chars [2]) 0) := ⟨office_asks _, office_asks _, by decide, by decide⟩

theorem test_meets_ClockSet :
    AskedBy (office id) (station 1 .office) .office ∧ (w8 1 ++ w32 4294967295).length = 5 ∧ u8 (w8 1 ++ w32 0) 0 ≠ 0 ∧
      u8 (w8 0 ++ w32 0) 0 = 0 := ⟨office_asks _, by decide⟩

theorem test_meets_GarageLoaded :
    AskedBy (office fun _ => Garage.reset) (station 1 .office) .office ∧
    (office fun _ => Garage.reset).garage.mode = .commissioning ∧
    (let zones := chars [2, 7, 0, 1, 3, 15, 8, 0, 2, 0, 0];
      zones.length = 1 + 5 * u8 zones 0 ∧ 1 ≤ u8 zones 0 ∧ ¬ (7 < u8 zones 1 ∨ (u8 zones 2 = 0 ∧ 1 < u8 zones 3)) ∧
      7 < u8 zones 6) ∧
    (let piles := chars [2, 127, 0, 7, 3, 0, 0, 8, 1];
      piles.length = 1 + 4 * u8 piles 0 ∧ ¬ (127 < u8 piles 1 ∨ (u8 piles 2 = 0 ∧ (7 < u8 piles 3 ∨ u8 piles 4 < 1 ∨
        3 < u8 piles 4))) ∧ (u8 piles 6 = 0 ∧ 7 < u8 piles 7)) ∧
    (u8 (chars [0]) 0 < 1 ∧ (chars [0]).length = 1 + 5 * u8 (chars [0]) 0 ∧
      (chars (9 :: List.replicate 36 0)).length = 1 + 4 * u8 (chars (9 :: List.replicate 36 0)) 0 ∧
      (chars (9 :: List.replicate 45 0)).length ≤ 48) ∧
    (let map (size a b c d e f : Nat) : List Byte := w16 size ++ w16 a ++ w16 b ++ w16 c ++ w16 d ++ w16 e ++ w16 f;
      (map 320 1 320 1 1 320 320).length = 14 ∧ u16 (map 0 1 1 1 1 1 1) 0 < 1 ∧ 320 < u16 (map 321 1 1 1 1 1 1) 0 ∧
      ¬ 1 ≤ u16 (map 1 0 1 1 1 1 1) 2 ∧ ¬ u16 (map 1 1 1 2 1 1 1) 6 ≤ u16 (map 1 1 1 2 1 1 1) 8 ∧
      ¬ u16 (map 1 1 1 1 1 1 321) 12 ≤ 320) := ⟨office_asks _, by decide⟩

/-- A garage in COMMISSIONING that the checks of ENTER_SERVICE pass. -/
def complete (g : Garage) : Garage := { g with
  mode := .commissioning
  tickets := [], rangeA := some (1, 5), rangeB := some (6, 12), rangeO := some (13, 14) }

theorem test_meets_ServiceEnteredAndLeft :
    AskedBy (office complete) (station 1 .office) .office ∧
    ((office complete).garage.mode = .commissioning ∧
      serviceFault (office complete).garage (office complete).line.g.stations = none) ∧
    (let s := office fun g => { complete g with rangeO := none };
      s.garage.mode = .commissioning ∧ serviceFault s.garage s.line.g.stations = some (5, 2)) ∧
    ((office fun g => { g with tickets := [] }).garage.mode = .service ∧
      (office fun g => { g with tickets := [] }).garage.tickets = []) ∧
    ((office id).garage.mode = .service ∧ (office id).garage.tickets ≠ []) :=
  ⟨office_asks _, by decide +kernel, by decide +kernel, by decide, by decide⟩

/-- Each check failing, the ones before it passing; the last three are an unset, a too high and an overlapping range. -/
theorem test_meets_ServiceEnteredAndLeft_checks :
    let g := complete garage
    let parts := fore.line.g.stations
    serviceFault { g with stackRecs := g.stackRecs.drop 1 } parts = some (1, 0) ∧
    serviceFault { g with bayRecs := g.bayRecs ++ [(9, place 127 1 .free)] } parts = some (1, 127) ∧
    serviceFault { g with zoneRecs := g.zoneRecs.take 1 } parts = some (2, 1) ∧
    serviceFault g (parts.take 1) = some (3, 1) ∧
    serviceFault { g with bayRecs := g.bayRecs.map fun x => (x.1, { x.2 with swap := true }) } parts = some (4, 0) ∧
    serviceFault { g with rangeA := none } parts = some (5, 0) ∧
    serviceFault { g with rangeB := some (6, 15) } parts = some (5, 1) ∧
    serviceFault { g with rangeO := some (12, 14) } parts = some (5, 2) := by
  refine ⟨?_, ?_, ?_, ?_, ?_, ?_, ?_, ?_⟩ <;> decide +kernel

/-- The forecourt as the office answers, bay 0 with that service state and bay 1 behind it with that one. -/
abbrev closing (front back : ServiceState) : State := office fun g =>
  (g.modBay 0 fun b => { b with service := front }).modBay 1 fun b => { b with service := back }

theorem test_meets_BayAndHookService :
    AskedBy (office id) (station 1 .office) .office ∧
    (let g (front back : ServiceState) := (closing front back).garage
      let b := (g .inService .out).bay 1;
      (w16 0 ++ w8 1).length = 3 ∧ 255 < u16 (w16 256 ++ w8 0) 0 ∧ 1 < u8 (w16 255 ++ w8 2) 2 ∧
      (office id).garage.bay 255 = none ∧ u8 (w16 1 ++ w8 0) 2 = 0 ∧ u8 (w16 1 ++ w8 1) 2 = 1 ∧
      (b = some { place 0 2 (.occupied 5) with service := .out } ∧
        (∃ x ∈ (g .out .out).front (place 0 2 .free), x.2.service = .out ∨ x.2.service = .outPending) ∧
        ¬ (∃ x ∈ (g .inService .out).front (place 0 2 .free), x.2.service = .out ∨ x.2.service = .outPending) ∧
        (∃ x ∈ (g .inService .out).front (place 0 2 .free), x.2.occ ≠ .free) ∧
        ¬ (∃ x ∈ (g .inService .out).front (place 1 1 .free), x.2.occ ≠ .free)) ∧
      [ServiceState.inService, .outPending, .out, .returnPending].map (fun v => ((g .inService v).bay 1).map Bay.service)
        = [some .inService, some .outPending, some .out, some .returnPending]) ∧
    (let g := (office id).garage;
      g.hooks.find (u16 (w16 15 ++ w8 0) 0) = none ∧ 1 < u8 (w16 1 ++ w8 2) 2 ∧
      [11, 13, 1].map (fun h => (g.hooks.find h).map Hook.state) = [some .free, some .disabled, some .reserved]) :=
  ⟨office_asks _, by decide, by decide⟩

/-- Bay 0 reserved and OUT_PENDING, bay 1 behind it occupied, bay 4 free with bay 5 RETURN_PENDING behind it. -/
theorem test_meets_BayAndHookService_freed :
    let g := garage.modBay 0 fun b => { b with service := .outPending }
    let h := garage.modBay 1 fun b => { b with service := .returnPending }
    g.bay 255 = none ∧ (g.bay 0).map Bay.occ = some (.reserved 1) ∧ (g.bay 1).map Bay.occ = some (.occupied 5) ∧
    (((g.release 0 1).bay 0).map Bay.service = some .out ∧ ((h.release 0 1).bay 1).map Bay.service = some .inService) ∧
    ((h.vacate 2 3).bay 1).map Bay.service = some .returnPending ∧
    (((g.modTicket 5 fun t => { t with blocked := true }).release 0 1).ticket 5).map Ticket.blocked = some false := by
  decide

theorem test_meets_LiftServiceAndResolve :
    let lost : Move := ⟨9, .final, 6, 1006, .bay 6, .lane .a, some 6⟩
    let lift (st : LiftState) (m : Option Move) : LiftUnit := ((office fun g => { g with
      liftA := { g.liftA with state := st, unresolved := m } }).garage.lift .a)
    AskedBy (office id) (station 1 .office) .office ∧ (chars [2, 0]).length = 2 ∧ 1 < u8 (chars [2, 0]) 0 ∧
    (u8 (chars [1, 2]) 0 ≤ 1 ∧ 1 < u8 (chars [1, 2]) 1) ∧ u8 (chars [0, 1]) 0 = liftCode .a ∧
    u8 (chars [1, 1]) 0 = liftCode .b ∧ u8 (chars [0, 0]) 1 = 0 ∧ u8 (chars [0, 1]) 1 = 1 ∧
    (lift .moving none).state = .moving ∧ (lift .out none).state = .out ∧
    ((lift .ready none).state ≠ .moving ∧ (lift .ready none).state ≠ .out ∧ (lift .ready none).state ≠ .faulted) ∧
    ((lift .faulted (some lost)).state = .faulted ∧ (lift .faulted (some lost)).unresolved = some lost) ∧
    ((office id).line.g.mode ≠ .disabled ∧
      ∃ x ∈ (office id).line.g.stations, x.role = liftRole .a ∧ x.poll = .active) ∧
    (asking .s 1 State.reset).line.g.mode = .disabled := ⟨office_asks _, by decide⟩

theorem test_meets_QueriesAnswered :
    AskedBy (asked .s 3 id) (station 3 .desk) .desk ∧ AskedBy (office id) (station 1 .office) .office ∧
    (let g := (office id).garage
      let query (n tag : Nat) : List Byte := w16 n ++ w32 tag;
      g.mode = .service ∧ (query 0 0).length = 6 ∧ (u16 (query 0 0) 0 = 0 ∧ u32 (query 0 0) 2 = 0) ∧
      (u16 (query 65535 0) 0 ≠ 0 ∧ g.ticket (u16 (query 65535 0) 0) = none) ∧
      (u32 (query 0 1) 2 ≠ 0 ∧ ∀ x ∈ g.tickets, x.2.tag ≠ u32 (query 0 1) 2) ∧ (g.ticket 3).isSome = true ∧
      (g.tickets.findKey fun t => t.tag == u32 (query 0 1003) 2) = some 3 ∧
      (255 < u16 (w16 256) 0 ∧ (w16 256).length = 2) ∧ g.bay (u16 (w16 255) 0) = none ∧
      (g.bay (u16 (w16 3) 0) = some (place 1 1 .free) ∧ g.stackRecs.find 1 = some ⟨1, 1⟩ ∧
        g.zoneRecs.find 1 = some ⟨.b, 1, 2⟩) ∧
      (({ g with stackRecs := [] } : Garage).stackRecs.find 1 = none ∧
        ({ g with zoneRecs := [] } : Garage).zoneRecs.find 1 = none) ∧
      1 < u8 (chars [2, 0]) 0 ∧ u8 (chars [1, 48]) 0 = liftCode .b ∧ u8 (chars [1, 48]) 0 = chanCode .c1 ∧
      (station 1 .office).poll = .active) ∧
    (let s := (asking .s 1 (holding 48 Kind.reply fore)).modPort .s fun ps => { ps with
        stations := ps.stations.map fun x => { x with poll := .silent } };
      AskedBy s ⟨1, .office, .silent, 0, 0⟩ .office ∧ 48 ≤ s.line.s.ownQueue.length) :=
  ⟨desk_asks _, office_asks _, by decide, ⟨⟨rfl, rfl⟩, rfl⟩, by decide⟩

theorem test_meets_StationsLoaded :
    AskedBy (office id) (station 1 .office) .office ∧
    (let g : List Station := [station 6 .liftA, station 7 .liftB]
      let loads (l : List Nat) := ((office complete).modPort .s fun ps =>
        { ps with stations := ps.answeredBy (station 1 .office) }).loadedStations .g (chars l)
      let after (l : List Nat) := (loads l).toOption.map fun sts => sts.map Station.number
      (office complete).line.g.stations = g ∧
      (chars [1, 2, 6, 0, 7, 0]).length = 2 + 2 * u8 (chars [1, 2, 6, 0, 7, 0]) 1 ∧
      u8 (chars [0, 0]) 1 < 1 ∧ 8 < u8 (chars (0 :: 9 :: List.replicate 18 1)) 1 ∧ 1 < u8 (chars [2, 1, 1, 1]) 0 ∧
      u8 (chars [1, 1, 6, 6]) 0 = portCode .g ∧ (loads [1, 1, 127, 6]).toOption = none ∧ after [1, 1, 6, 6] = some [6, 7] ∧
      after [1, 1, 6, 0] = some [7] ∧ after [1, 1, 7, 0] = some [6] ∧ after [1, 2, 6, 0, 7, 0] = some []) :=
  ⟨office_asks _, by decide +kernel⟩

theorem test_meets_StationsLoaded_entry :
    let g := (office complete)
    u8 (chars [0, 1, 0, 1]) 2 < 1 ∧ 126 < u8 (chars [0, 1, 127, 1]) 2 ∧
    7 < u8 (chars [0, 1, 1, 8]) 3 ∧ u8 (chars [0, 1, 9, 6]) 3 ∉ [1, 2, 3, 4, 5] ∧
    (∃ x ∈ (g.port .g).stations, x.number = u8 (chars [0, 1, 6, 1]) 2) ∧
    (∀ x ∈ (g.port .s).stations, x.number ≠ u8 (chars [0, 1, 126, 1]) 2) ∧ roleOf 5 = some (some .office) ∧
    ((g.port .s).stations.find? (fun y => y.number == 4)) = some (station 4 .cabinet) ∧
    ((office id).garage.mode = .service ∧ (station 4 .cabinet).role = .cabinet ∧ (station 4 .cabinet).role ≠ .desk) ∧
    g.garage.mode = .commissioning := by decide

/-- Two entries each taken on the table that those before it have made, and a third that fails. -/
theorem test_meets_StationsLoaded_order :
    let g := (office complete)
    let one (off : Nat) (table : List Station) :=
      stationEntry (chars [0, 3, 9, 1, 9, 2, 6, 1]) .s (g.port .g).stations (g.garage.mode == .service) off table
    let tables (i : Nat) : List Station := (g.port .s).stations ++ [[], [station 9 .podium], [station 9 .desk]].getD i []
    tables 0 = (g.port .s).stations ∧ one 2 (tables 0) = .ok (tables 1) ∧ one 4 (tables 1) = .ok (tables 2) ∧
      one 6 (tables 2) = .error .badRequest := by
  refine ⟨rfl, rfl, rfl, rfl⟩

theorem test_meets_PassLoaded :
    AskedBy (office id) (station 1 .office) .office ∧
    (let good := chars [0, 1, 2, 0, 126, 0, 255, 3, 126, 1, 9, 9, 0]
      let bad := chars [0, 0, 1, 0, 0, 0, 255, 0];
      good.length = 3 + 5 * u8 good 2 ∧ (office id).line.passTable.length = 0 ∧
      ¬ (8 < u8 good 2 ∨ 0 < u8 good 0 ∨ 32 < u8 good 0 + u8 good 2) ∧
      (u8 good 3 ≤ 126 ∧ 1 ≤ u8 good 4 ∧ u8 good 5 ≤ u8 good 6 ∧ u8 good 7 ≤ 3) ∧
      (bad.length = 3 + 5 * u8 bad 2 ∧ u8 bad 4 < 1) ∧ 8 < u8 (chars (0 :: 0 :: 9 :: List.replicate 45 1)) 2 ∧
      (chars (0 :: 0 :: 9 :: List.replicate 45 1)).length = 3 + 5 * 9) ∧
    (office id).line.s.hasRoom := ⟨office_asks _, by decide, Or.inl (by decide)⟩

theorem test_meets_LineManagement :
    AskedBy (office id) (station 1 .office) .office ∧
    (let set (p par on : Nat) : List Byte := chars [p, 8, 241, par, 65, on];
      (set 0 0 1).length = 6 ∧ 1 < u8 (set 2 0 1) 0 ∧ 2 < u8 (set 1 3 1) 3 ∧
      (u8 (set 0 2 0) 0 = 0 ∧ u8 (set 0 2 0) 3 ≤ 2 ∧ u8 (set 0 2 0) 5 = 0) ∧
      (u8 (set 1 2 0) 0 = 1 ∧ (office id).garage.mode = .service) ∧
      (u8 (set 1 2 0) 0 = portCode .g ∧ u8 (set 1 2 0) 3 = parityCode .odd ∧
        (office complete).garage.mode = .commissioning) ∧ u8 (set 0 0 1) 5 ≠ 0) ∧
    (office id).line.s.hasRoom ∧ (office id).line.s.ownQueue.length < 47 ∧
    (let full := asking .s 1 (holding 48 Kind.reply fore);
      AskedBy full (station 1 .office) .office ∧ ¬ full.line.s.hasRoom ∧
      full.garage.chan0.state = .idle ∧ full.garage.chan1.state = .idle ∧
      full.line.g.awaiting = false ∧ full.line.g.sending = none ∧ full.line.g.mode ≠ .disabled ∧
      (asking .g 6 full).line.g.awaiting = true ∧
      (full.modPort .g fun ps => { ps with mode := .disabled }).line.g.mode = .disabled) := by
  refine ⟨office_asks _, by decide, Or.inl (by decide), by decide, ⟨⟨rfl, rfl⟩, rfl⟩, ?_, by decide⟩
  unfold PortState.hasRoom
  decide

theorem test_meets_ConvoyCommands :
    AskedBy (office id) (station 1 .office) .office ∧
    (let chan (st : ChanState) := ((office fun g => { g with chan0 := { g.chan0 with state := st } }).garage.chan .c0).state
      let load := chars [0, 12] ++ (List.replicate 12 (w16 3)).flatten;
      load.length = 2 + 2 * u8 load 1 ∧ load.length ≤ 48 ∧ 1 < u8 (chars [2, 1, 3, 0]) 0 ∧ u8 (chars [1, 0]) 1 < 1 ∧
      12 < u8 (chars [1, 13]) 1 ∧ (u8 load 0 = chanCode .c0 ∧ 1 ≤ u8 load 1 ∧ u8 load 1 ≤ 12) ∧
      [ChanState.idle, .loaded, .running, .heldBack].map chan = [.idle, .loaded, .running, .heldBack] ∧
      (chars [0, 7, 8, 1]).length = 4 ∧ (chars [1]).length = 1 ∧ u8 (chars [1]) 0 = chanCode .c1) :=
  ⟨office_asks _, by decide⟩

/-- The forecourt with every timer stopped, then lift A as it moves with its timer there. -/
def timed (move : Option Nat) : State :=
  let g := moving ⟨255, .park, 1, 1001, .hall .a, .bay 0, none⟩ false garage
  { fore with garage := { g with
      runners := g.runners.mapAll fun r => { r with timer := none }
      tickets := g.tickets.mapAll fun t => { t with holdTimer := none }
      liftA := { g.liftA with moveTimer := move } } }

theorem test_meets_TickAdvances :
    (fore.powered = true ∧ fore.line.pollHold = false) ∧
    (let low := fore.garage.tick;
      (∀ l ∈ [Lift.a, .b], (low.lift l).moveTimer ≠ some 0) ∧
      low.runners.find 2 = some ⟨.assigned, some 8, some 0⟩ ∧ (low.ticket 7).bind Ticket.holdTimer = some 0) ∧
    (let low := (timed (some 1)).garage.tick;
      (low.lift .a).moveTimer = some 0 ∧ (low.lift .a).inFlight.isSome = true ∧ (low.lift .b).moveTimer ≠ some 0 ∧
      (∀ r ∈ low.runners, r.2.timer ≠ some 0) ∧ ∀ t ∈ low.tickets, t.2.holdTimer ≠ some 0) ∧
    (let low := (timed (some 120)).garage.tick;
      (∀ l ∈ [Lift.a, .b], (low.lift l).moveTimer ≠ some 0) ∧ (∀ r ∈ low.runners, r.2.timer ≠ some 0) ∧
      ∀ t ∈ low.tickets, t.2.holdTimer ≠ some 0) := by decide

theorem test_meets_ExpiriesTaken :
    (timed (some 1)).powered = true ∧ ((timed (some 1)).garage.lift .a).moveTimer = some 1 ∧
    ((timed (some 1)).garage.lift .a).inFlight = some ⟨255, .park, 1, 1001, .hall .a, .bay 0, none⟩ ∧
    garage.runners.find 2 = some ⟨.assigned, some 8, some 1⟩ ∧ (garage.ticket 7).bind Ticket.holdTimer = some 1 ∧
    fore.line.pollHold = false ∧ ((timed (some 2)).garage.lift .a).moveTimer = some 2 ∧
    garage.runners.find 5 = some ⟨.offPending, some 8, some 9⟩ ∧ garage.runners.find 32 = none ∧
    (garage.ticket 3).bind Ticket.holdTimer = none ∧ garage.ticket 65535 = none := by decide

/-- Lift A with a plan: ticket 7 behind the cars of 6 and 3, whose relocation bays are reserved. -/
def planned (target : Ticket → Ticket) : Garage := { garage with
  stackRecs := [(3, ⟨0, 3⟩), (4, ⟨0, 1⟩), (5, ⟨0, 1⟩)]
  bayRecs := [(6, place 3 1 (.occupied 6)), (7, place 3 2 (.occupied 3)), (8, place 3 3 (.occupied 7)),
    (9, place 4 1 (.reserved 3)), (10, place 5 1 (.reserved 6))]
  tickets := [(3, record 3 .parked (.bay 7) (some 7)), (6, record 6 .parked (.bay 6) (some 6)),
    (7, target { record 7 .retrieving (.bay 8) (some 8) with seq := some 13, phase := some .relocating, place := true })]
  queue := []
  liftA := { LiftUnit.reset with
    state := .ready, readiness := .ready, tenure := some .plan
    plan := some ⟨7, 3, [⟨6, 6, 10, false⟩, ⟨3, 7, 9, false⟩], false, none⟩ } }

theorem test_meets_Unresolved :
    let park : Move := ⟨255, .park, 1, 1001, .hall .a, .bay 0, none⟩
    let relocation : Move := ⟨1, .relocation, 5, 1005, .bay 1, .bay 8, some 3⟩
    let final : Move := ⟨7, .final, 6, 1006, .bay 6, .lane .a, some 6⟩
    (garage.ticket park.ticket).isSome = true ∧ (garage.ticket final.ticket).isSome = true ∧
    (garage.ticket relocation.ticket).isSome = true ∧
    (final.source = .bay 6 ∧ garage.bay 6 = some (place 3 1 (.occupied 6)) ∧ final.kind ≠ .relocation) ∧
    (relocation.kind = .relocation ∧ relocation.source = .bay 1 ∧ relocation.dest = .bay 8) ∧
    (park.kind = .park ∧ park.dest = .bay 0) ∧ final.kind = .final ∧
    (let m : Move := ⟨1, .relocation, 6, 1006, .bay 6, .bay 10, some 7⟩
      let p : Plan := ⟨7, 3, [⟨6, 6, 10, false⟩, ⟨3, 7, 9, false⟩], false, none⟩
      let states (f : Ticket → Ticket) := ((planned f).ticket 7).map fun t => (t.cancelMark, t.convoy);
      (m.kind = .relocation ∧ m.source = .bay 6 ∧ p.target ≠ m.ticket ∧ (planned id).bay 6 = some (place 3 1 (.occupied 6))) ∧
      (((planned id).lift .a).plan = some p ∧ ((planned id).ticket m.ticket).isSome = true) ∧
      ((planned id).bay 10).map Bay.occ = some (.reserved m.ticket) ∧
      ((⟨3, 7, 9, false⟩ : Reloc) ∈ p.relocs ∧ (3 : Nat) ≠ m.ticket ∧ ((planned id).bay 9).map Bay.occ = some (.reserved 3)) ∧
      states id = some (false, none) ∧ states (fun t => { t with convoy := some .c1 }) = some (false, some .c1) ∧
      states (fun t => { t with cancelMark := true }) = some (true, none)) := by decide

theorem test_meets_WarmStart :
    let m : Move := ⟨7, .final, 6, 1006, .bay 6, .lane .a, some 6⟩
    let g := moving m false garage
    let hall (n : Nat) := some (1000 + n, n)
    fore.powered = true ∧ g.liftA.inFlight = some m ∧ g.liftB.inFlight = none ∧ g.tickets.rising = true ∧
    (garage.tickets.count fun t => t.state == .queued || t.state == .held || t.state == .retrieving) = 3 ∧
    (({ garage with tickets := garage.tickets.take 4 } : Garage).tickets.count
      fun t => t.state == .queued || t.state == .held || t.state == .retrieving) = 0 ∧
    (g.hooks.filter (fun x => x.2.state == .released)).map Prod.fst = [3] ∧
    ((g.hooks.take 2).filter fun x => x.2.state == .released) = [] ∧ g.readyOrder = [9, 8] ∧
    (hall 1 = some (1001, 1) ∧ (g.ticket 1).map Ticket.state = some .allocated) ∧
    (hall 2 = some (1002, 2) ∧ (g.ticket 2).map Ticket.state = some .parking) ∧
    ((State.reset.line.g.mode = .disabled) ∧ fore.line.g.mode ≠ .disabled) ∧ fore.line.s.sending = none := by decide

theorem test_meets_PowerLostAndRestored :
    fore.powered = true ∧
    (({ fore with powered := false } : State).powered = false ∧ ({ fore with powered := false } : State).storeHeld = true) ∧
    ({ fore with powered := false, storeHeld := false } : State).storeHeld = false := by decide

/-- Lift A READY with no holder, and a requester of each kind. -/
def wanted : Garage := { garage with
  chan0 := { garage.chan0 with request := some (.a, 3) }
  chan1 := { garage.chan1 with request := some (.a, 3) }
  liftA := { garage.liftA with
    state := .ready, lane := [], parkRequest := some (1, 3)
    waiting := [⟨7, 2, [], false, some 3⟩] } }

theorem test_meets_ArbiterChoice :
    garage.bids .b = [] ∧ (wanted.bids .a).map Bid.rank = [0, 1, 2, 3, 4] ∧
    ((wanted.lift .a).state = .ready ∧ (wanted.lift .a).tenure = none ∧ (bestBid (wanted.bids .a)).isSome = true) ∧
    (wanted.lift .a).parkRequest = some (1, 3) ∧ wanted.chan0.request = some (.a, 3) ∧
    wanted.chan1.request = some (.a, 3) ∧ (⟨7, 2, [], false, some 3⟩ : Plan) ∈ (wanted.lift .a).waiting ∧
    (wanted.lift .a).lane.length + (wanted.lift .a).reserved < (wanted.lift .a).laneCapacity ∧
    ((⟨5, some 0⟩ : Entry) ∈ wanted.queue ∧ (wanted.ticket 5).isSome = true ∧ wanted.liftOfTicket 5 = some .a) ∧
    (garage.lift .a).state ≠ .ready ∧
    ((wanted.ticket 1).bind Ticket.bay = some 0 ∧ (wanted.ticket 10).bind Ticket.bay = none ∧
      (wanted.ticket 7).bind Ticket.bay = some 7) ∧
    ((buildPlan .a 6 3 ⟨wanted, []⟩).2 = true ∧ (buildPlan .a 7 3 ⟨wanted, []⟩).2 = false) := by decide

theorem test_meets_AllocatorWinner :
    garage.choose .everywhere .s 240 = some (3, 2) ∧ garage.choose .everywhere .l 240 = none := by decide

theorem test_meets_BlockingTerm :
    (caseOne.bayRecs.filter fun kv => kv.2.stack == 12 && decide (2 < kv.2.position)).length ≤ 2 ∧
      caseOne.weights.wB ≤ 15 ∧ caseOne.blockedCars (place 12 2 .free) 660 = 4 := by decide

theorem test_meets_DepthTerm :
    1 ≤ 3 ∧ 1 ≤ 2 ∧ 2 ≤ 3 ∧ caseOne.weights.wD ≤ 15 ∧ caseOne.suited 660 3 = 2 ∧ caseOne.suited 479 3 = 1 ∧
      1 ≤ caseOne.limits.t1 ∧ caseOne.suited (480 + 119) 3 = 1 ∧ caseOne.suited (480 + 120) 3 = 2 ∧
      caseOne.suited (480 + 479) 3 = 2 ∧ caseOne.suited (480 + 480) 3 = 3 := by decide

/-! ### One port's send turns (section 1.5's example, row by row) -/

/-- A frame with that kind. -/
def letter (k : Byte) : Frame := originated 1 k []

/-- What the transmit arbiter sends next, and what it leaves: own queue, transit queue, pass-over count. -/
def chosen (own transit : List Byte) (pass : Nat) : Option (Byte × List Byte × List Byte × Nat) :=
  (({ fore.line.s with
      ownQueue := own.map fun k => ⟨letter k, .plain⟩
      transitQueue := transit.map letter
      passOver := pass } : PortState).chooseFrame).map fun x =>
    (x.1.frame.kind, x.2.ownQueue.map (fun q => q.frame.kind), x.2.transitQueue.map Frame.kind, x.2.passOver)

theorem test_send_turns :
    chosen [0xA, 0xB, 0xC, 0xD] [1, 2] 0 = some (0xA, [0xB, 0xC, 0xD], [1, 2], 1) ∧
    chosen [0xB, 0xC, 0xD] [1, 2] 1 = some (0xB, [0xC, 0xD], [1, 2], 2) ∧
    chosen [0xC, 0xD] [1, 2] 2 = some (1, [0xC, 0xD], [2], 0) ∧
    chosen [0xC, 0xD] [2] 0 = some (0xC, [0xD], [2], 1) ∧
    chosen [0xD] [2] 1 = some (0xD, [], [2], 2) ∧
    chosen [] [2] 2 = some (2, [], [], 0) := by
  refine ⟨?_, ?_, ?_, ?_, ?_, ?_⟩ <;> decide


theorem test_meets_LiftLost :
    (garage.lift .b).state = .notReady ∧ (garage.lift .b).plan = none ∧ (working.lift .a).state = .moving ∧
    ((planned id).lift .a).state = .ready ∧ (((planned id).lift .a).plan.map Plan.target) = some 7 ∧
    [planned id, planned fun t => { t with cancelMark := true }, planned fun t => { t with convoy := some .c0 }].map
        (fun g => (g.ticket 7).map fun t => (t.cancelMark, t.convoy))
      = [some (false, none), some (true, none), some (false, some .c0)] := by decide

theorem test_meets_NumbersDealtAnew :
    let f (g : Garage) : Garage := { g with requestCounter := 4294967295, readyCounter := 4294967295 }
    garage.tickets.rising = true ∧ garage.requestCounter ≠ 4294967295 ∧ garage.readyCounter ≠ 4294967295 ∧
    ((f garage).tickets.rising = true ∧ (f garage).requestCounter = 4294967295 ∧ (f garage).readyCounter = 4294967295 ∧
      (f garage).seqOrder = [5, 6, 7] ∧ (f garage).readyOrder = [9, 8] ∧ ((f garage).ticket 6).isSome = true) ∧
    (AskedBy (podium f) (station 2 .podium) .podium ∧ (podium f).garage.mode = .service ∧
      (chars [3, 0, 0, 0]).length = 4 ∧ u16 (chars [3, 0, 0, 0]) 0 = 3 ∧
      ((podium f).garage.ticket 3).map Ticket.state = some .parked ∧ (podium f).garage.placesHeld < 64) :=
  ⟨by decide, by decide, by decide, by decide, podium_asks _, by decide⟩

/-- A garage with one queue entry and one convoy, their cars frontmost in their stacks on the two lifts. -/
def convoy (st : ChanState) : Garage := { garage with
  bayRecs := [(3, place 1 1 (.occupied 3)), (6, place 3 1 (.occupied 6)), (7, place 3 2 (.occupied 7))]
  tickets := [(3, { record 3 .queued (.bay 3) (some 3) with seq := some 1, priority := some 3, place := true }),
    (6, { record 6 .queued (.bay 6) (some 6) with seq := some 2, priority := some 3, convoy := some .c0, blocked := true }),
    (7, { record 7 .queued (.bay 7) (some 7) with seq := some 3, priority := some 3, convoy := some .c0 })]
  queue := [⟨3, none⟩]
  chan0 := { garage.chan0 with state := st, list := [6, 7], blockLength := 2, request := some (.a, 4) } }

theorem test_meets_Eligibility :
    (convoy .running).queue[0]? = some ⟨3, none⟩ ∧ ((convoy .running).restamp.queue.map Entry.stamp) = [some 0] ∧
    (garage.restamp.queue.map Entry.stamp) = [none] ∧
    ((convoy .running).lead .c0 = some 7 ∧ (convoy .running).liftOfTicket 7 = some .a ∧
      (convoy .running).tenureOf .c0 = none ∧ (convoy .running).podiumLimit = 8) ∧
    ((convoy .loaded).chan .c0).state ≠ .running ∧ ((convoy .loaded).lead .c0 = none) := by decide

theorem test_meets_PlanBuilt :
    let wanted (bays : List (Nat × Bay)) (front : Ticket → Ticket) : Garage := { planned id with
      bayRecs := [(6, place 3 1 (.occupied 6)), (7, place 3 2 (.occupied 3)), (8, place 3 3 (.occupied 7))] ++ bays
      tickets := [(3, record 3 .parked (.bay 7) (some 7)), (6, front (record 6 .parked (.bay 6) (some 6))),
        (7, { record 7 .queued (.bay 8) (some 8) with seq := some 13, convoy := some .c0 })] }
    let free := [(9, place 4 1 .free), (10, place 5 1 .free)]
    let place (acc : Except Nat (Garage × List Reloc)) (x : Nat × Nat) : Except Nat (Garage × List Reloc) :=
      match acc with
      | .error m => .error m
      | .ok (h, rs) =>
        match h.ticket x.2 with
        | none => .error x.2
        | some car =>
          if car.state = .retrieving then .error x.2
          else match h.choose (.relocation 0 3) car.cls car.estimate with
            | none => .error x.2
            | some (d, _) => .ok (h.modBay d fun y => { y with occ := .reserved x.2 }, rs ++ [⟨x.2, x.1, d, false⟩])
    let built (g : Garage) := ([(6, 6), (7, 3)].foldl place (.ok (g, []))).toOption.map Prod.snd
    (((wanted free id).ticket 7).bind Ticket.bay = some 8 ∧ (wanted free id).promoted 7 = 7 ∧
      (wanted free fun t => { t with state := .queued }).promoted 7 = 6) ∧
    built (wanted free id) = some [⟨6, 6, 9, false⟩, ⟨3, 7, 10, false⟩] ∧ built (wanted [] id) = none ∧
    built (wanted free fun t => { t with state := .retrieving }) = none ∧
    ((wanted [] id).ticket 7).map (fun t => (t.blocked, t.convoy)) = some (false, some .c0) := by decide

theorem test_meets_PlanSteps :
    let done (f : Ticket → Ticket) : Garage := (planned f).modLift .a fun u => { u with
      plan := u.plan.map fun p => { p with relocs := p.relocs.map fun r => { r with done := true } } }
    let u := (planned id).lift .a
    let again (m : Move) (h : Holder) := ((planned id).modLift .a fun u => { u with
      reorder := some m, tenure := some h }).lift .a
    (u.state = .ready ∧ u.tenure = some .plan ∧ u.reorder = none ∧ u.plan.isSome = true) ∧
    (((planned id).ticket 7).bind Ticket.bay = some 8 ∧ ((planned id).ticket 6).isSome = true) ∧
    (∀ p, ((done id).lift .a).plan = some p → ∀ r ∈ p.relocs, r.done = true) ∧
    [done fun t => { t with hold := true }, done fun t => { t with hold := true, resumePending := true }, done id,
        done fun t => { t with hold := true, convoy := some .c0 }].map
        (fun g => (g.ticket 7).map fun t => (t.convoy, t.hold, t.resumePending))
      = [some (none, true, false), some (none, true, true), some (none, false, false), some (some .c0, true, false)] ∧
    (∀ x ∈ [((⟨0, .park, 7, 1007, .hall .a, .bay 8, none⟩ : Move), Holder.park),
        (⟨0, .final, 7, 1007, .bay 8, .lane .a, some 7⟩, .plan), (⟨0, .relocation, 6, 1006, .bay 6, .bay 10, some 7⟩, .plan)],
      (again x.1 x.2).state = .ready ∧ (again x.1 x.2).tenure = some x.2 ∧ (again x.1 x.2).reorder = some x.1) := by
  refine ⟨by decide, by decide, ?_, by decide, by decide⟩
  intro p h
  cases h
  decide

theorem test_meets_BlockSteps :
    let g (st : ChanState) (count : Nat) (level : Option Nat) : Garage := { convoy st with
      chan0 := { (convoy st).chan0 with blockCount := count, blockLevel := level }
      liftA := { LiftUnit.reset with state := .ready, readiness := .ready, tenure := some (.channel .c0) } }
    let u := (g .running 0 none).lift .a
    (u.state = .ready ∧ u.tenure = some (.channel .c0) ∧ u.reorder = none ∧ u.plan = none) ∧
    ((g .loaded 0 none).chan .c0).state ≠ .running ∧
    ((g .running 2 none).chan .c0).blockLength ≤ ((g .running 2 none).chan .c0).blockCount ∧
    (g .heldBack 0 none).lead .c0 = none ∧
    ((g .running 1 (some 0)).lead .c0 = some 7 ∧ (garage.stackRecs.find 3) = some ⟨0, 3⟩ ∧
      garage.zoneRecs.find 0 = some ⟨.a, 0, 4⟩ ∧ ((g .running 1 (some 0)).chan .c0).blockCount < 2) ∧
    ((g .running 1 (some 1)).chan .c0).blockLevel = some 1 := by decide

/-- Channel 0 with that state and no members, on lifts that have no work, the other channel HELD_BACK. -/
theorem test_meets_BlockSteps_end :
    let g (st : ChanState) : Garage := { garage with
      chan0 := { garage.chan0 with state := st, delivered := 2 }, chan1 := { garage.chan1 with state := .heldBack } }
    let members (g : Garage) := (g.tickets.filter fun x => x.2.convoy == some .c0).length
    [ChanState.idle, .loaded, .running, .heldBack].map (fun st => ((g st).chan0.state, members (g st)))
      = [(.idle, 0), (.loaded, 0), (.running, 0), (.heldBack, 0)] ∧ 0 < members (convoy .running) ∧
    (∀ st ∈ [ChanState.idle, .loaded, .running], (holderWork .a ⟨g st, []⟩).isNone = true ∧
      (holderWork .b ⟨g st, []⟩).isNone = true) ∧
    (channelDone .c0 ⟨g .idle, []⟩).isNone = true ∧ (channelDone .c1 ⟨g .idle, []⟩).isSome = true ∧
    ((channelDone .c0 ⟨g .running, []⟩).isSome = true ∧ (channelDone .c1 ⟨g .running, []⟩).isSome = true) ∧
    ((channelDone .c0 ⟨g .running, []⟩).map fun e => (e.g.chan0.state, e.g.chan1.state, e.out.map fun o => (o.kind, o.payload)))
      = some (.idle, .running, [(Kind.convoyDone, w8 0 ++ w16 2)]) := by decide

/-! ### What the review of the first model asked for -/

/-- R1: 0x51 is the bits 1000 1010 from the least significant; with three ones, EVEN parity adds a 1 and ODD a 0. -/
theorem test_character_bits :
    charBits .even 0x51 = [false, true, false, false, false, true, false, true, false, true, true] ∧
    charBits .odd 0x51 = [false, true, false, false, false, true, false, true, false, false, true] ∧
    charBits .none 0x51 = [false, true, false, false, false, true, false, true, false, true] := by decide

/-- R5, R195: POLL to the office station 1 is on the line: lead, destination, source 127, kind 0x01, no flags, no payload. -/
theorem test_poll_on_the_line :
    (((after (.poll .s) fore).port .s).lineChars.map RxChar.data).take 6 = chars [0xC5, 1, 127, 1, 0, 0] ∧
      (((after (.poll .s) fore).port .s).lineBits.length = 8 * 11) := by decide

/-- R18: a hold that the 33rd frame begins and its own transmission ends has cut Port G's visit all the same. -/
theorem test_hold_within_a_step :
    let s := asking .g 6 (holding 32 Kind.reply fore)
    let t := after (.lineReturn .s) ((s.modPort .s fun ps => { ps with
      mode := .lineFault, ownQueue := ps.ownQueue ++ [note Kind.reply] }))
    t.line.s.ownQueue.length = 32 ∧ (t.line.g.visit.map Visit.cut) = some true := by decide

/-- R179, R140: the tick that brings the move timer to 0 faults lift A and leaves its move unresolved. -/
theorem test_tick_times_a_move_out :
    let u := (after .tick (timed (some 1))).garage.liftA
    u.state = .faulted ∧ u.inFlight = none ∧ u.unresolved.map Move.number = some 255 ∧
      ((after .tick (timed (some 2))).garage.liftA.state = .moving) := by decide

/-- R182: the tick that brings a hold timer to 0 reloads it with the period. -/
theorem test_tick_reloads_a_hold_timer :
    let s : State := { fore with garage := garage.modRunner 2 fun r => { r with timer := none } }
    ((after .tick s).garage.ticket 7).bind Ticket.holdTimer = some garage.holdPeriod := by decide

/-- R179: the expiry command of lift A's move timer is the tick that brings it to 0: it counts the second, and the
other lift's timer counts with it; a tick earlier it is nothing. -/
theorem test_expiry_is_the_tick :
    let s (n : Nat) : State := { timed (some n) with garage := (timed (some n)).garage.modLift .b fun u => { u with
      state := .moving, moveTimer := some 120, inFlight := some ⟨3, .park, 2, 1002, .hall .b, .bay 5, none⟩ } }
    let t := after (.moveTimerExpiry .a) (s 1)
    t.garage.seconds = 1 ∧ t.garage.liftA.state = .faulted ∧ t.garage.liftB.moveTimer = some 119 ∧
      (after (.moveTimerExpiry .a) (s 2)).garage.liftA.moveTimer = some 2 := by decide

/-- R182: the expiry command of a pickup timer reloads it with the whole period. -/
theorem test_expiry_reloads_the_period :
    let s : State := { fore with garage := garage.modTicket 7 fun t => { t with holdTimer := none } }
    (after (.pickupTimerExpiry 2) s).garage.runners.find 2
      = some ⟨.assigned, some 8, some garage.pickupPeriod⟩ := by decide

/-! ### Witnesses for the statements' later clauses -/

/-- Port S as it awaits an answer of a visit with that many exchanges, its cut, its poll position and its own frames. -/
def visiting (v : Visit) (pos own : Nat) : State := (holding own Kind.reply fore).modPort .s fun ps => { ps with
  visit := some v, awaiting := true, pollPos := pos }

/-- The third exchange goes on, and each other condition alone ends the visit; the poll position at the station, at the
last, and elsewhere, and at a station removed and loaded again; an answer of each kind, and of a station that was
removed. -/
theorem test_meets_TransitRouted_end :
    let goes (u : State) : Bool := (u.port .s).visit.any fun v => decide (v.exchanges < 4) && !v.cut && !v.removed &&
      decide (u.line.s.ownQueue.length ≤ 32) && (u.port .s).mode == .running &&
      (u.port .s).stations.any fun x => x.number == v.station
    let v (n exchanges : Nat) (cut : Bool) : Visit := ⟨n, exchanges, cut, pollFrame n, false⟩
    let broken : State := (visiting (v 2 3 false) 1 32).modPort .s fun ps => { ps with mode := .lineFault }
    let at' (u : State) := (u.port .s).stations[(u.port .s).pollPos]?.map Station.number
    [visiting (v 2 3 false) 1 32, visiting (v 2 4 false) 1 0, visiting (v 2 1 true) 1 0, visiting (v 2 1 false) 1 33,
        broken, visiting (v 99 1 false) 5 0, visiting { v 2 1 false with removed := true } 1 0].map goes
      = [true, false, false, false, false, false, false] ∧
    (at' (visiting { v 2 1 false with removed := true } 1 0) = some 2 ∧ at' (visiting (v 2 4 false) 1 0) = some 2 ∧ at' (visiting (v 5 4 false) 4 0) = some 5 ∧
      at' (visiting (v 2 4 false) 0 0) = some 1 ∧ at' (visiting (v 99 1 false) 5 0) = none ∧
      ((visiting (v 5 4 false) 4 0).port .s).stations.length = 4 + 1) ∧
    ((podium id).powered = true ∧ ((podium id).port .s).awaiting = true ∧ ((podium id).port .s).polled ≠ none ∧
      ((visiting (v 99 1 false) 5 0).port .s).polled = none) ∧
    (frameCommand .s Kind.setLine 1 [] = some (.setLine .s 1 []) ∧ Kind.setLine ≠ Kind.loadStations ∧
      (podium id).line.s.ownQueue.length < 48) ∧
    frameCommand .s Kind.status 1 [] = some (.status .s 1 []) ∧ (1 : Byte).getLsbD 0 = true := by
  refine ⟨by decide, by decide, by decide, ⟨rfl, by decide, by decide⟩, rfl, rfl⟩

/-- A port that may send and one that may not; the hold at 33 frames ends as Port S begins the first, and at 34 it stands
as Port G begins its own. -/
theorem test_meets_TransmissionEnds_turns :
    (∀ n ∈ [32, 33, 34], (holding n Kind.reply fore).powered = true ∧
      (holding n Kind.reply fore).line.s.ownQueue.length = n ∧ (holding n Kind.reply fore).line.s.mode = .running ∧
      (holding n Kind.reply fore).line.s.sending = none ∧ (holding n Kind.reply fore).line.s.awaiting = false ∧
      (holding n Kind.reply fore).line.g.mode = .running ∧ (holding n Kind.reply fore).line.g.sending = none ∧
      (holding n Kind.reply fore).line.g.awaiting = false) ∧
    (office id).line.s.awaiting = true ∧ (asking .g 6 (holding 34 Kind.reply fore)).line.g.awaiting = true ∧
    ([33, 34].map fun n => (after (.poll .s) (holding n Kind.reply fore)).line.s.ownQueue.length) = [32, 33] ∧
    (let s := (sends 0 0 33 1); s.powered = true ∧ 32 < s.line.s.ownQueue.length ∧ s.line.s.mode = .running ∧
      s.line.s.awaiting = false ∧ s.line.s.sending = some (note Kind.reply) ∧ (note Kind.reply).mark = .plain ∧
      (after (.frameSent .s) s).line.s.sending = some (note Kind.reply)) := by decide

/-- Port G as settings wait for the end of a frame, of a MOVE_ORDER and of nothing. -/
theorem test_meets_LineSettingsTakeEffect_due :
    let due (s : State) : State := { s with line := { s.line with lineDueG := [⟨.g, edges, true⟩, ⟨.g, edges, false⟩] } }
    let plain : State := due (fore.modPort .g fun ps => { ps with sending := some (note Kind.reply) })
    (plain.powered = true ∧ plain.line.g.sending = some (note Kind.reply) ∧ (note Kind.reply).mark = .plain ∧
      plain.line.lineDueG ≠ []) ∧
    ((due ordering).line.g.sending = some ⟨originated 6 Kind.moveOrder [], .moveOrder .a 7⟩ ∧
      (due ordering).line.lineDueG ≠ []) ∧
    (due fore).line.g.mode = .running ∧
    ((due fore).line.g.awaiting = false ∧ (due fore).line.g.sending = none ∧ (due fore).line.s.sending = none) ∧
    ([due fore, plain].map fun s => (after (.lineSettingsTakeEffect .g) s).line.g.mode) = [.disabled, .running] ∧
    (after (.frameSent .g) plain).line.g.mode = .disabled := by decide +kernel

theorem test_meets_LineManagement_applied :
    fore.line.g.mode ≠ .disabled ∧ State.reset.line.g.mode = .disabled ∧
    (fore.applyLine ⟨.g, edges, false⟩).line.g.mode = .disabled ∧
    (State.reset.applyLine ⟨.g, edges, true⟩).line.g.mode = .running ∧
    (fore.applyLine ⟨.s, edges, false⟩).line.s.settings = edges := by decide +kernel

/-- A frame for a station of each port, of a DISABLED port and of none, and for a role that a table has and that none
has; two frames that find room for the last; MOVE_DONE of a move in flight and RETRIEVE of a PARKED ticket. -/
theorem test_meets_OwnQueueFull_joins :
    let park : Move := ⟨255, .park, 1, 1001, .hall .a, .bay 0, none⟩
    (∃ x ∈ fore.line.s.stations, x.number = 2) ∧
    ((∀ x ∈ fore.line.s.stations, x.number ≠ 6) ∧ (∃ x ∈ fore.line.g.stations, x.number = 6) ∧
      fore.line.g.mode ≠ .disabled ∧ fore.line.disableG.g.mode = .disabled) ∧
    (∀ x ∈ fore.line.s.stations ++ fore.line.g.stations, x.number ≠ 99) ∧
    (fore.line.s.stations ++ fore.line.g.stations
        = [station 1 .office] ++ station 2 .podium :: [station 3 .desk, station 4 .cabinet, station 5 .runnerBase,
          station 6 .liftA, station 7 .liftB] ∧ ∀ y ∈ [station 1 .office], y.role ≠ .podium) ∧
    (∀ y ∈ State.reset.line.s.stations ++ State.reset.line.g.stations, y.role ≠ .cabinet) ∧
    (∀ x ∈ [((46 : Nat), (Port.s)), (4, .g)], x.1 + 2 ≤ (match x.2 with | .s => 48 | .g => 6)) ∧
    (Asking (liftA (moving park true)) .g (station 6 .liftA) ∧ (station 6 .liftA).role = liftRole .a ∧
      (w8 255).length = 1 ∧
      (((liftA (moving park true)).garage.heardLift .a (station 6 .liftA)).lift .a).inFlight = some park ∧
      park.number = u8 (w8 255) 0) ∧
    (AskedBy (podium id) (station 2 .podium) .podium ∧ (podium id).garage.mode = .service ∧
      (chars [3, 0, 0, 0]).length = 4) :=
  ⟨by decide, by decide, by decide, by decide, by decide, by decide, ⟨⟨rfl, rfl⟩, rfl, by decide, by decide, by decide⟩,
    podium_asks _, by decide⟩

/-- The poll position at a station that stays, at one that is removed, and at the last, removed; a visit of each kind. -/
theorem test_meets_StationsLoaded_position :
    let sts (l : List Nat) := fore.line.s.stations.filter fun x => l.contains x.number
    let ps (pos : Nat) : PortState := { fore.line.s with pollPos := pos }
    let pl := chars [0, 1, 5, 0]
    let heard := (office complete).modPort .s fun ps => { ps with stations := ps.answeredBy (station 1 .office) }
    ((ps 1).stations.drop 1 = [station 2 .podium] ++ station 3 .desk :: [station 4 .cabinet, station 5 .runnerBase] ∧
      (∀ z ∈ [station 2 .podium], ∀ w ∈ sts [1, 3, 4], w.number ≠ z.number) ∧
      sts [1, 3, 4] = [station 1 .office] ++ station 3 .desk :: [station 4 .cabinet] ∧
      ((ps 1).reload (sts [1, 3, 4])).pollPos = 1) ∧
    ((∀ z ∈ (ps 4).stations.drop 4, ∀ w ∈ sts [1, 2, 3, 4], w.number ≠ z.number) ∧
      ((ps 4).reload (sts [1, 2, 3, 4])).pollPos = 0) ∧
    (fore.line.s.visit = none ∧ (office id).line.s.visit = some (Visit.first 1) ∧ (office id).line.s.awaiting = true ∧
      ({ (office id).line.s with awaiting := false } : PortState).visit = some (Visit.first 1) ∧
      (∃ w ∈ sts [1, 2], w.number = (Visit.first 1).station) ∧ ∀ w ∈ sts [2, 3], w.number ≠ (Visit.first 1).station) ∧
    (AskedBy (office complete) (station 1 .office) .office ∧ pl.length = 2 + 2 * u8 pl 1 ∧ 1 ≤ u8 pl 1 ∧
      u8 pl 0 = portCode .s ∧
      ((heard.loadedStations .s pl).toOption.map fun x => x.map Station.number) = some [1, 2, 3, 4]) :=
  ⟨by decide, by decide, by decide, office_asks _, by decide +kernel⟩

/-- A stack with a RESERVED bay, with a car that is RETRIEVING, with a car in its first bay, with a run of bays that ends
at its depth and one that ends before it; a candidate that fits and one that does not. -/
theorem test_meets_AllocatorWinner_candidate :
    let g : Garage := { garage with
      bayRecs := [(0, place 0 1 (.reserved 1)), (3, place 1 1 .free), (4, place 2 1 .free), (5, place 2 2 (.occupied 3)),
        (6, place 3 1 (.occupied 6)), (7, place 4 1 (.occupied 3))]
      stackRecs := garage.stackRecs ++ [(4, ⟨0, 1⟩)] }
    let first (g : Garage) (n i : Nat) := g.bayRecs.find? fun x => x.2.stack = n ∧ x.2.position = i
    ((0, place 0 1 (.reserved 1)) ∈ g.bayRecs ∧ (6, place 3 1 (.occupied 6)) ∈ g.bayRecs ∧
      (g.ticket 6).map Ticket.state = some .retrieving ∧ first g 4 1 = some (7, place 4 1 (.occupied 3)) ∧
      (g.ticket 3).map Ticket.state = some .parked) ∧
    (first g 1 1 = some (3, place 1 1 .free) ∧ garage.stackRecs.find 1 = some ⟨1, 1⟩ ∧
      first g 2 1 = some (4, place 2 1 .free) ∧ first g 2 2 = some (5, place 2 2 (.occupied 3)) ∧
      garage.stackRecs.find 2 = some ⟨1, 2⟩ ∧ garage.zoneRecs.find 1 = some ⟨.b, 1, 2⟩) ∧
    ((g.candidate .s 240 false 2 ⟨1, 2⟩).map Prod.fst = some 4 ∧ (g.candidate .l 240 false 2 ⟨1, 2⟩).isNone = true ∧
      ((g.modBay 4 fun b => { b with swap := true }).candidate .s 240 false 2 ⟨1, 2⟩).isNone = true ∧
      ((g.modBay 4 fun b => { b with swap := true }).candidate .s 240 true 2 ⟨1, 2⟩).map Prod.fst = some 4) :=
  ⟨by decide, by decide, by decide⟩

theorem test_meets_ArrivalAnswered_hook :
    let g (range : List (Nat × Hook)) : Garage := { garage with hooks := range }
    (garage.hooks = garage.hooks.take 10 ++ (11, ⟨.free, none, none⟩) :: garage.hooks.drop 11 ∧
      (∀ y ∈ garage.hooks.take 10, y.2.state ≠ .free) ∧
      (∀ y ∈ garage.hooks, y.2.state = .free → ¬ (1 ≤ y.1 ∧ y.1 ≤ 5)) ∧ garage.rangeA = some (1, 5) ∧
      garage.chooseHook garage.rangeA = some (11, true)) ∧
    (garage.hooks = garage.hooks.take 13 ++ [(14, ⟨.free, none, none⟩)] ∧
      (∀ y ∈ garage.hooks.take 13, ¬ (y.2.state = .free ∧ 13 ≤ y.1 ∧ y.1 ≤ 14)) ∧ garage.rangeO = some (13, 14) ∧
      garage.chooseHook garage.rangeO = some (14, false)) ∧
    ((∀ y ∈ (g (garage.hooks.take 10)).hooks, y.2.state ≠ .free) ∧
      (g (garage.hooks.take 10)).chooseHook (some (1, 5)) = none) := by decide

/-- A plan whose target carries the cancel mark and one whose target does not, with its slot and without it, on a lift
that has one and on a lift that has none; a plan that waits for its lane, first behind another. -/
theorem test_meets_ResumeAndCancel_plan :
    let plan : Plan := ⟨7, 3, [⟨6, 6, 10, false⟩, ⟨3, 7, 9, false⟩], false, none⟩
    let g (slot : Bool) : Garage := (planned id).modLift .a fun u => { u with plan := some { plan with slot := slot } }
    let waits : Garage := garage.modLift .b fun u => { u with
      waiting := [⟨5, 3, [], false, some 0⟩, ⟨6, 3, [⟨3, 2, 8, true⟩], false, some 1⟩] }
    (((planned id).lift .a).plan = some plan ∧ ((g true).lift .a).plan = some { plan with slot := true } ∧
      ((planned id).lift .b).plan = none ∧ plan.target = 7) ∧
    ([planned id, planned fun t => { t with cancelMark := true }].map fun g => (g.ticket 7).map Ticket.cancelMark)
      = [some false, some true] ∧
    ((waits.lift .b).waiting = [⟨5, 3, [], false, some 0⟩] ++ ⟨6, 3, [⟨3, 2, 8, true⟩], false, some 1⟩ :: [] ∧
      (waits.lift .b).plan = none ∧ (waits.lift .a).plan = none ∧ (waits.lift .a).waiting = [] ∧
      ((waits.endPlanOf 6).lift .b).waiting.map Plan.target = [5]) ∧
    (∀ u ∈ [garage.lift .a, garage.lift .b], u.plan = none ∧ u.waiting = []) := by decide

theorem test_meets_AnswersOutOfPlace_long :
    Asking (podium id) .s (station 2 .podium) ∧ 48 < (⟨3, 2, 0x90, 0, List.replicate 49 0⟩ : Frame).payload.length ∧
      48 < (List.replicate 49 (0 : Byte)).length := ⟨⟨rfl, rfl⟩, by decide, by decide⟩

/-- R141: an OUT_PENDING bay of a PARK move placed at its source stays as it is, and RETURN_PENDING bays behind it (log 16). -/
theorem test_park_placed_at_source :
    let park : Move := ⟨255, .park, 1, 1001, .hall .a, .bay 0, none⟩
    let g : Garage := garage.modBay 0 fun b => { b with service := .outPending }
    ((placeAtSource .a park ⟨g, []⟩).g.bay 0).map (fun b => (b.service, b.occ)) = some (.outPending, .reserved 1) ∧
      ((placeAtSource .a park ⟨g, []⟩).g.lift .a).parkRequest = some (1, 0) := by decide
end Sys2Proof.Tests
end

namespace Sys2Proof.Machine

/-! ### Frames that carry no line settings -/

/-- No frame that the event has originated so far carries line settings: only the reply to a SET_LINE taken does (R22). -/
def Ev.Unset (e : Ev) : Prop := ∀ o ∈ e.out, ∀ r, o.mark ≠ .lineReply r

theorem Ev.unset_nil (g : Garage) : (⟨g, []⟩ : Ev).Unset := fun _ h => nomatch h

@[simp] theorem Ev.emit_unset (e : Ev) (o : Out) : (e.emit o).Unset ↔ e.Unset ∧ ∀ r, o.mark ≠ .lineReply r := by
  simp [Ev.Unset, or_imp, forall_and]

@[simp] theorem Ev.modG_unset (e : Ev) (f : Garage → Garage) : (e.modG f).Unset ↔ e.Unset := Iff.rfl

@[simp] theorem Ev.alert_unset (e : Ev) (k : Nat) (a : List Byte) : (e.alert k a).Unset ↔ e.Unset := by
  simp [Ev.alert]

@[simp] theorem Ev.replyMarked_unset (e : Ev) (c : Caller) (k : Byte) (r : Result) (d : List Byte) (m : Mark) :
    (e.replyMarked c k r d m).Unset ↔ e.Unset ∧ ∀ x, m ≠ .lineReply x := by simp [Ev.replyMarked]

@[simp] theorem Ev.reply_unset (e : Ev) (c : Caller) (k : Byte) (r : Result) (d : List Byte) :
    (e.reply c k r d).Unset ↔ e.Unset := by simp [Ev.reply]

@[simp] theorem Ev.badRequest_unset (e : Ev) (c : Caller) (k : Byte) (i : Nat) : (e.badRequest c k i).Unset ↔ e.Unset := by
  simp [Ev.badRequest]

@[simp] theorem Ev.ticketReply_unset (e : Ev) (c : Caller) (k : Byte) (r : Result) (n st : Nat) :
    (e.ticketReply c k r n st).Unset ↔ e.Unset := by simp [Ev.ticketReply]

@[simp] theorem Ev.runnerReply_unset (e : Ev) (c : Caller) (k : Byte) (r : Result) (n : Nat) (x : Runner) :
    (e.runnerReply c k r n x).Unset ↔ e.Unset := by simp [Ev.runnerReply]

/-! ### Hooks, runners, READY -/

@[simp] theorem openHook_unset (n : Nat) (t : Ticket) (e : Ev) : (openHook n t e).Unset ↔ e.Unset := by
  unfold openHook; (repeat' split) <;> simp [hookOpenFrame]

@[simp] theorem assign_unset (r n : Nat) (e : Ev) : (assign r n e).Unset ↔ e.Unset := by
  unfold assign; dsimp only; split <;> simp [runnerTaskFrame]

@[simp] theorem giveRunner_unset (n : Nat) (e : Ev) : (giveRunner n e).Unset ↔ e.Unset := by
  unfold giveRunner; split <;> simp

@[simp] theorem freeRunner_unset (r : Nat) (e : Ev) : (freeRunner r e).Unset ↔ e.Unset := by
  unfold freeRunner; split <;> simp

@[simp] theorem releaseRunner_unset (n : Nat) (e : Ev) : (releaseRunner n e).Unset ↔ e.Unset := by
  unfold releaseRunner; dsimp only; (repeat' split) <;> simp

@[simp] theorem enterReady_unset (n : Nat) (loc : Location) (e : Ev) : (enterReady n loc e).Unset ↔ e.Unset := by
  unfold enterReady; dsimp only; (repeat' split) <;> simp [carReadyFrame]

/-! ### Moves, plans and tenures -/

@[simp] theorem order_unset (l : Lift) (m : Move) (e : Ev) : (order l m e).Unset ↔ e.Unset := by
  unfold order; simp [moveOrderFrame]

@[simp] theorem markBlocked_unset (n b z : Nat) (e : Ev) : (markBlocked n b z e).Unset ↔ e.Unset := by
  unfold markBlocked; dsimp only; (repeat' split) <;> simp

@[simp] theorem buildPlan_unset (l : Lift) (w level : Nat) (e : Ev) : (buildPlan l w level e).1.Unset ↔ e.Unset := by
  unfold buildPlan; dsimp only; (repeat' split) <;> simp

@[simp] theorem goToLane_unset (l : Lift) (p : Plan) (e : Ev) : (goToLane l p e).Unset ↔ e.Unset := by
  unfold goToLane; simp

@[simp] theorem passHoldPoint_unset (l : Lift) (p : Plan) (e : Ev) : (passHoldPoint l p e).Unset ↔ e.Unset := by
  unfold passHoldPoint waitForLane; split <;> simp

@[simp] theorem atHoldPoint_unset (l : Lift) (p : Plan) (e : Ev) : (atHoldPoint l p e).Unset ↔ e.Unset := by
  unfold atHoldPoint suspend; (repeat' split) <;> simp

@[simp] theorem planStep_unset (l : Lift) (p : Plan) (e : Ev) : (planStep l p e).Unset ↔ e.Unset := by
  unfold planStep; split <;> simp

@[simp] theorem reorderMove_unset (l : Lift) (m : Move) (e : Ev) : (reorderMove l m e).Unset ↔ e.Unset := by
  unfold reorderMove; simp

@[simp] theorem grant_unset (l : Lift) (b : Bid) (e : Ev) : (grant l b e).Unset ↔ e.Unset := by
  unfold grant grantPark grantChannel grantContinuation grantEntry
  dsimp only
  (repeat' split) <;> simp

@[simp] theorem endBlock_unset (l : Lift) (c : Chan) (e : Ev) : (endBlock l c e).Unset ↔ e.Unset := by
  unfold endBlock; simp

@[simp] theorem blockStep_unset (l : Lift) (c : Chan) (e : Ev) : (blockStep l c e).Unset ↔ e.Unset := by
  unfold blockStep; dsimp only; (repeat' split) <;> simp

theorem holderWork_unset {l : Lift} {e e' : Ev} (h : holderWork l e = some e') : e'.Unset ↔ e.Unset := by
  unfold holderWork at h
  dsimp only at h
  (repeat' split at h) <;> cases h <;> simp

theorem channelDone_unset {c : Chan} {e e' : Ev} (h : channelDone c e = some e') : e'.Unset ↔ e.Unset := by
  unfold channelDone at h
  dsimp only at h
  split at h
  · cases h; split <;> simp
  · cases h

theorem arbitrate_unset {l : Lift} {e e' : Ev} (h : arbitrate l e = some e') : e'.Unset ↔ e.Unset := by
  unfold arbitrate at h
  dsimp only at h
  split at h
  · obtain ⟨b, -, rfl⟩ := Option.map_eq_some_iff.mp h
    exact grant_unset l b e
  · cases h

theorem nextWork_unset {k : Nat} {e e' : Ev} (h : nextWork k e = some e') : e'.Unset ↔ e.Unset := by
  unfold nextWork at h
  dsimp only at h
  split at h
  · rename_i hx; cases h
    exact (eitherFirst_cases hx).elim holderWork_unset holderWork_unset
  · split at h
    · rename_i hx; cases h
      exact (eitherFirst_cases hx).elim channelDone_unset channelDone_unset
    · exact (eitherFirst_cases h).elim arbitrate_unset arbitrate_unset

theorem settleWith_unset (k : Nat) (e : Ev) : (settleWith k e).Unset ↔ e.Unset := by
  induction k generalizing e with
  | zero => rfl
  | succ k ih =>
    unfold settleWith
    dsimp only
    split
    · rename_i e' hn
      rw [ih, nextWork_unset hn, Ev.modG_unset]
    · exact Ev.modG_unset _ _

/-- The work that an event sets off originates no frame that carries line settings. -/
@[simp] theorem settle_unset (e : Ev) : (settle e).Unset ↔ e.Unset := settleWith_unset _ e

/-! ### The outcomes of moves -/

@[simp] theorem complete_unset (l : Lift) (m : Move) (e : Ev) : (complete l m e).Unset ↔ e.Unset := by
  unfold complete; split <;> simp

@[simp] theorem undo_unset (l : Lift) (m : Move) (e : Ev) : (undo l m e).Unset ↔ e.Unset := by
  unfold undo; split <;> simp

@[simp] theorem moveCompleted_unset (l : Lift) (m : Move) (e : Ev) : (moveCompleted l m e).Unset ↔ e.Unset := by
  unfold moveCompleted; simp

@[simp] theorem refusedLocation_unset (l : Lift) (m : Move) (e : Ev) : (refusedLocation l m e).Unset ↔ e.Unset := by
  unfold refusedLocation liftFaultAlert; simp

@[simp] theorem moveFaulted_unset (l : Lift) (m : Move) (pos : CarPosition) (e : Ev) :
    (moveFaulted l m pos e).Unset ↔ e.Unset := by
  unfold moveFaulted liftFaultAlert; dsimp only; split <;> simp

@[simp] theorem moveTimedOut_unset (l : Lift) (m : Move) (e : Ev) : (moveTimedOut l m e).Unset ↔ e.Unset := by
  unfold moveTimedOut; simp

@[simp] theorem placeAtDestination_unset (l : Lift) (m : Move) (e : Ev) : (placeAtDestination l m e).Unset ↔ e.Unset := by
  unfold placeAtDestination; dsimp only; split <;> simp

@[simp] theorem placeAtSource_unset (l : Lift) (m : Move) (e : Ev) : (placeAtSource l m e).Unset ↔ e.Unset := by
  unfold placeAtSource; simp

@[simp] theorem discardByMatch_unset (l : Lift) (k : Byte) (n : Nat) (late : Bool) (e : Ev) :
    (discardByMatch l k n late e).Unset ↔ e.Unset := by simp [discardByMatch, discardReport]

/-! ### Requests -/

@[simp] theorem keyStray_unset (hook tag : Nat) (e : Ev) : (keyStray hook tag e).Unset ↔ e.Unset := by simp [keyStray]

@[simp] theorem closeMapping_unset (t : Ticket) (e : Ev) : (closeMapping t e).Unset ↔ e.Unset := by
  unfold closeMapping; dsimp only; (repeat' split) <;> simp

@[simp] theorem closeTicket_unset (n : Nat) (t : Ticket) (st : Nat) (k : CloseCause) (e : Ev) :
    (closeTicket n t st k e).Unset ↔ e.Unset := by simp [closeTicket, ticketClosed]

@[simp] theorem allocation_unset (c : Caller) (k : Byte) (n : Nat) (t : Ticket) (choice : Option (Nat × Nat)) (stay : Nat)
    (e : Ev) : (allocation c k n t choice stay e).Unset ↔ e.Unset := by simp [allocation]

@[simp] theorem admitCar_unset (c : Caller) (n tag : Nat) (cls : CarClass) (prio stay est : Nat)
    (choice : Option (Nat × Nat)) (e : Ev) : (admitCar c n tag cls prio stay est choice e).Unset ↔ e.Unset := by
  unfold admitCar; dsimp only; (repeat' split) <;> simp

theorem arrive_unset (c : Caller) (pl : List Byte) (e : Ev) : (arrive c pl e).Unset ↔ e.Unset := by
  unfold arrive arriveChecked; dsimp only; (repeat' split) <;> simp

theorem retrieve_unset (c : Caller) (pl : List Byte) (e : Ev) : (retrieve c pl e).Unset ↔ e.Unset := by
  unfold retrieve retrieveTicket joinQueue releaseAtLot retrieveRefused; dsimp only; (repeat' split) <;> simp

theorem resume_unset (c : Caller) (pl : List Byte) (e : Ev) : (resume c pl e).Unset ↔ e.Unset := by
  unfold resume resumeTicket; dsimp only; (repeat' split) <;> simp

theorem cancel_unset (c : Caller) (pl : List Byte) (e : Ev) : (cancel c pl e).Unset ↔ e.Unset := by
  unfold cancel cancelTicket cancelAllocated; dsimp only; (repeat' split) <;> simp

theorem handover_unset (c : Caller) (pl : List Byte) (e : Ev) : (handover c pl e).Unset ↔ e.Unset := by
  unfold handover handoverTicket handOver; dsimp only; (repeat' split) <;> simp

@[simp] theorem rePlace_unset (c : Caller) (n stay est : Nat) (choice : Option (Nat × Nat)) (e : Ev) :
    (rePlace c n stay est choice e).Unset ↔ e.Unset := by
  unfold rePlace; dsimp only; split <;> simp

theorem rePark_unset (c : Caller) (pl : List Byte) (e : Ev) : (rePark c pl e).Unset ↔ e.Unset := by
  unfold rePark reParkTicket; dsimp only; (repeat' split) <;> simp

theorem queryTicket_unset (c : Caller) (pl : List Byte) (e : Ev) : (queryTicket c pl e).Unset ↔ e.Unset := by
  unfold queryTicket; (repeat' split) <;> simp

/-! ### Reports -/

theorem keyIn_unset (c : Caller) (pl : List Byte) (e : Ev) : (keyIn c pl e).Unset ↔ e.Unset := by
  unfold keyIn keyInHook keyHungTied keyReturned keyMishung keyUnexpected
  dsimp only
  (repeat' split) <;> simp [hookOpenFrame]

theorem keyOut_unset (c : Caller) (pl : List Byte) (e : Ev) : (keyOut c pl e).Unset ↔ e.Unset := by
  unfold keyOut keyOutHook keyUnexpected; dsimp only; (repeat' split) <;> simp

theorem runnerOn_unset (c : Caller) (pl : List Byte) (e : Ev) : (runnerOn c pl e).Unset ↔ e.Unset := by
  unfold runnerOn runnerOnFor; dsimp only; (repeat' split) <;> simp

theorem runnerOff_unset (c : Caller) (pl : List Byte) (e : Ev) : (runnerOff c pl e).Unset ↔ e.Unset := by
  unfold runnerOff runnerOffFor secondRunnerOff; dsimp only; (repeat' split) <;> simp

theorem pickup_unset (c : Caller) (pl : List Byte) (e : Ev) : (pickup c pl e).Unset ↔ e.Unset := by
  unfold pickup pickupTicket pickupMismatch; dsimp only; (repeat' split) <;> simp

theorem liftStatus_unset (l : Lift) (pl : List Byte) (e : Ev) : (liftStatus l pl e).Unset ↔ e.Unset := by
  simp [liftStatus]

theorem carPresent_unset (l : Lift) (pl : List Byte) (e : Ev) : (carPresent l pl e).Unset ↔ e.Unset := by
  unfold carPresent presentCar hallNotExpected; dsimp only; (repeat' split) <;> simp

theorem moveDone_unset (l : Lift) (pl : List Byte) (e : Ev) : (moveDone l pl e).Unset ↔ e.Unset := by
  unfold moveDone; split <;> simp

theorem moveFault_unset (l : Lift) (pl : List Byte) (e : Ev) : (moveFault l pl e).Unset ↔ e.Unset := by
  unfold moveFault lateFault; dsimp only; (repeat' split) <;> simp

theorem moveRefused_unset (l : Lift) (pl : List Byte) (e : Ev) : (moveRefused l pl e).Unset ↔ e.Unset := by
  unfold moveRefused moveWasRefused; (repeat' split) <;> simp

/-! ### Management of the garage -/

theorem loadReply_unset {α : Type} (c : Caller) (k : Byte) (pl : List Byte) (r : Except (Result × Nat) α)
    (f : α → Garage → Garage) (e : Ev) : (loadReply c k pl r f e).Unset ↔ e.Unset := by
  unfold loadReply; split <;> simp

theorem setLanes_unset (c : Caller) (pl : List Byte) (e : Ev) : (setLanes c pl e).Unset ↔ e.Unset := by
  unfold setLanes; simp

theorem loadCabinet_unset (c : Caller) (pl : List Byte) (e : Ev) : (loadCabinet c pl e).Unset ↔ e.Unset := by
  unfold loadCabinet; (repeat' split) <;> simp

theorem enterService_unset (sts : List Station) (c : Caller) (e : Ev) : (enterService sts c e).Unset ↔ e.Unset := by
  unfold enterService; split <;> simp

theorem leaveService_unset (c : Caller) (pl : List Byte) (e : Ev) : (leaveService c pl e).Unset ↔ e.Unset := by
  unfold leaveService; split <;> simp

theorem bayService_unset (c : Caller) (pl : List Byte) (e : Ev) : (bayService c pl e).Unset ↔ e.Unset := by
  unfold bayService bayIn bayServiceReply; dsimp only; (repeat' split) <;> simp

theorem queryBay_unset (c : Caller) (pl : List Byte) (e : Ev) : (queryBay c pl e).Unset ↔ e.Unset := by
  unfold queryBay; split <;> simp

theorem hookService_unset (c : Caller) (pl : List Byte) (e : Ev) : (hookService c pl e).Unset ↔ e.Unset := by
  unfold hookService turnHook; (repeat' split) <;> simp

theorem setWeights_unset (c : Caller) (pl : List Byte) (e : Ev) : (setWeights c pl e).Unset ↔ e.Unset := by
  unfold setWeights; simp

theorem setLimits_unset (c : Caller) (pl : List Byte) (e : Ev) : (setLimits c pl e).Unset ↔ e.Unset := by
  unfold setLimits; dsimp only; (repeat' split) <;> simp

theorem setFloor_unset (c : Caller) (pl : List Byte) (e : Ev) : (setFloor c pl e).Unset ↔ e.Unset := by
  unfold setFloor; simp

theorem setTimes_unset (c : Caller) (pl : List Byte) (e : Ev) : (setTimes c pl e).Unset ↔ e.Unset := by
  unfold setTimes; simp

theorem setClock_unset (c : Caller) (pl : List Byte) (e : Ev) : (setClock c pl e).Unset ↔ e.Unset := by
  unfold setClock; simp

theorem setMeasure_unset (c : Caller) (pl : List Byte) (e : Ev) : (setMeasure c pl e).Unset ↔ e.Unset := by
  unfold setMeasure; split <;> simp

theorem liftService_unset (heard : Lift → Bool) (c : Caller) (pl : List Byte) (e : Ev) :
    (liftService heard c pl e).Unset ↔ e.Unset := by
  unfold liftService liftServiceReply; (repeat' split) <;> simp

theorem liftResolve_unset (c : Caller) (pl : List Byte) (e : Ev) : (liftResolve c pl e).Unset ↔ e.Unset := by
  unfold liftResolve resolveAt; dsimp only; (repeat' split) <;> simp

theorem liftReport_unset (c : Caller) (pl : List Byte) (e : Ev) : (liftReport c pl e).Unset ↔ e.Unset := by
  unfold liftReport; split <;> simp

theorem convoyLoad_unset (c : Caller) (pl : List Byte) (e : Ev) : (convoyLoad c pl e).Unset ↔ e.Unset := by
  unfold convoyLoad convoyLoadFor; dsimp only; (repeat' split) <;> simp

theorem convoyStart_unset (c : Caller) (pl : List Byte) (e : Ev) : (convoyStart c pl e).Unset ↔ e.Unset := by
  unfold convoyStart; dsimp only; (repeat' split) <;> simp

theorem convoyStop_unset (c : Caller) (pl : List Byte) (e : Ev) : (convoyStop c pl e).Unset ↔ e.Unset := by
  unfold convoyStop; (repeat' split) <;> simp

theorem convoyQuery_unset (c : Caller) (pl : List Byte) (e : Ev) : (convoyQuery c pl e).Unset ↔ e.Unset := by
  unfold convoyQuery; split <;> simp

/-! ### The gates, the poll states, the warm start and the timers -/

theorem modeRefused_unset (c : Caller) (k : Byte) (e : Ev) : (modeRefused c k e).Unset ↔ e.Unset := by simp [modeRefused]

theorem malformed_unset (c : Caller) (k : Byte) (pl : List Byte) (e : Ev) : (malformed c k pl e).Unset ↔ e.Unset := by
  unfold malformed; split <;> simp

theorem heardEv_unset (p : Port) (st : Station) (a : Bool) (e : Ev) : (heardEv p st a e).Unset ↔ e.Unset := by
  unfold heardEv; dsimp only; (repeat' split) <;> simp

theorem loseUnserved_unset (old new : List Station) (l : Lift) (e : Ev) : (loseUnserved old new l e).Unset ↔ e.Unset := by
  unfold loseUnserved; (repeat' split) <;> simp

theorem warmEffects_unset (e : Ev) (h : e.Unset) : (warmEffects e).Unset := by
  have opens : ∀ (hooks : List (Nat × Hook)) (e : Ev), e.Unset → ((hooks.filterMap reopenHook).foldl Ev.emit e).Unset := by
    intro hooks
    induction hooks with
    | nil => exact fun _ h => h
    | cons x rest ih =>
      intro e h
      rw [List.filterMap_cons]
      unfold reopenHook
      by_cases hx : x.2.state = .released
      · simp only [hx, if_true, List.foldl_cons]
        exact ih _ (by simp [h, hookOpenFrame])
      · simp only [hx, if_false]
        exact ih _ h
  unfold warmEffects
  dsimp only
  exact opens _ _ (by split <;> simpa using h)

theorem expires_unset (d : Due) (e : Ev) : (expires d e).Unset ↔ e.Unset := by
  unfold expires moveExpires pickupExpires holdExpires; (repeat' split) <;> simp

end Sys2Proof.Machine

namespace Sys2Proof.Machine

/-! ### The moves of the lines

Every command changes the lines by a row of these moves, so an invariant of the lines is one property to check per move. -/

/-- One move of a port. New line settings come in only when `ok` holds of them. -/
inductive PortMove (ok : LineSettings → Prop) : PortState → PortState → Prop
  /-- Poll hold cuts the visit and the turn (R18). -/
  | hold (a : PortState) : PortMove ok a a.enterHold
  /-- The arbiter begins a frame (R17). -/
  | send (a : PortState) (b : Bool) : PortMove ok a (a.sendNext b)
  /-- A send turn opens (R17). -/
  | turn (a : PortState) : PortMove ok a { a with turnLeft := 2 }
  /-- A visit goes on with its next exchange (R5, R6). -/
  | again (a : PortState) (v : Visit) (hs : a.canSend = true) (hv : a.visit = some v) :
      PortMove ok a (a.beginExchange { v with exchanges := v.exchanges + 1 })
  /-- The next station is sought (R5, R8). -/
  | seek (a : PortState) (n : Nat) (hs : a.canSend = true) (hv : a.visit = none) : PortMove ok a (a.seek n).1
  /-- The frame being sent is over (R17). -/
  | sent (a : PortState) : PortMove ok a { a with sending := none }
  /-- An exchange ends and its visit goes on (R6). -/
  | goesOn (a : PortState) (v : Visit) (hold : Bool) (hv : a.visit = some v) (h : a.goesOn hold v = true) :
      PortMove ok a { a with awaiting := false }
  /-- An exchange ends with its visit (R6). -/
  | visitOver (a : PortState) : PortMove ok a ({ a with awaiting := false } : PortState).endVisit
  /-- A break (R12). -/
  | broken (a : PortState) (hs : a.sending = none) :
      PortMove ok a { ({ a with awaiting := false } : PortState).endVisit with mode := .lineFault, turnLeft := 0 }
  /-- The line is back (R12). -/
  | returned (a : PortState) : a.mode = .lineFault → PortMove ok a { a with mode := .running }
  /-- A station has answered (R8). -/
  | answered (a : PortState) (n : Nat) (back : Bool) :
      PortMove ok a (a.modStation n fun x => { x with misses := 0, poll := .active, skips := if back then 0 else x.skips })
  /-- A station has missed (R8). -/
  | missed (a : PortState) (st : Station) (hst : a.station st.number = some st) (h : st.misses + 1 < 3) :
      PortMove ok a (a.modStation st.number fun x => { x with misses := x.misses + 1 })
  /-- A station falls SILENT (R8). -/
  | silenced (a : PortState) (n : Nat) :
      PortMove ok a (a.modStation n fun x => { x with misses := 3, poll := .silent, skips := 0 })
  /-- One more fault (R10). -/
  | fault (a : PortState) : PortMove ok a { a with faultTally := tallyUp a.faultTally }
  /-- One more frame in transit dropped (R16, R19). -/
  | drop (a : PortState) : PortMove ok a { a with dropTally := tallyUp a.dropTally }
  /-- A frame in transit joins (R16). -/
  | passOn (a : PortState) (f : Frame) : PortMove ok a (a.passOn f)
  /-- Line settings take effect (R22). -/
  | settings (a : PortState) (x : LineSettings) (h : ok x) : PortMove ok a { a with settings := x }
  /-- A DISABLED port starts (R22). -/
  | started (a : PortState) : a.mode = .disabled → PortMove ok a { a.refresh with mode := .running }

/-- An exchange ends: its visit goes on when it may, and ends otherwise (R6). -/
theorem PortMove.ended {ok : LineSettings → Prop} {a : PortState} {again hold : Bool}
    (h : again = true → ∃ v, a.visit = some v ∧ a.goesOn hold v = true) :
    PortMove ok a (if again then { a with awaiting := false } else ({ a with awaiting := false } : PortState).endVisit) := by
  split
  · rename_i hag
    obtain ⟨v, hv, hg⟩ := h hag
    exact .goesOn a v hold hv hg
  · exact .visitOver a

/-- A table that a LOAD_STATIONS makes of a port's table (R4). -/
def Line.Reloads (ln : Line) (p : Port) (sts : List Station) : Prop :=
  (∃ pl service k, applyEntries (stationEntry pl p (ln.port (otherPort p)).stations service) 2 2 k 0 (ln.port p).stations
    = .ok sts) ∧ tableStands p sts = true

/-- One move of the lines. -/
inductive LineMove (ok : LineSettings → Prop) : Line → Line → Prop
  | port (ln : Line) (p : Port) (f : PortState → PortState) (h : PortMove ok (ln.port p) (f (ln.port p))) :
      LineMove ok ln (ln.modPort p f)
  | queue (ln : Line) (p : Port) (q : QFrame) (h : ∀ r, q.mark = .lineReply r → ok r.settings) :
      LineMove ok ln (ln.enqueue p q)
  | lose (ln : Line) : LineMove ok ln ln.dropNotice
  | wait (ln : Line) (r : LineRequest) (h : ok r.settings) : LineMove ok ln { ln with lineDueG := ln.lineDueG ++ [r] }
  | due (ln : Line) : LineMove ok ln { ln with lineDueG := [] }
  | off (ln : Line) : LineMove ok ln ln.disableG
  | pass (ln : Line) (t : List PassEntry) (h : ln.passTable.length ≤ 32 → t.length ≤ 32) :
      LineMove ok ln { ln with passTable := t }
  | clear (ln : Line) : LineMove ok ln ln.clearTallies
  | warm (ln : Line) : LineMove ok ln ln.warm
  | cold (ln : Line) : LineMove ok ln Line.reset
  | reload (ln : Line) (p : Port) (sts : List Station) (h : ln.Reloads p sts) :
      LineMove ok ln (ln.modPort p fun ps => ps.reload sts)

/-- A property of the lines that every move keeps; `ok` holds of all the line settings that the lines hold. -/
structure LineInvariant (ok : LineSettings → Prop) (I : Line → Prop) : Prop where
  loaded : ∀ pl par, ok (lineValues pl par)
  due : ∀ ln, I ln → ∀ r ∈ ln.lineDueG, ok r.settings
  sent : ∀ ln, I ln → ∀ p f r, (ln.port p).sending = some ⟨f, .lineReply r⟩ → ok r.settings
  move : ∀ a b, I a → LineMove ok a b → I b

/-- The polled station is found in the table under its own number. -/
theorem PortState.station_of_polled {ps : PortState} {st : Station} (h : ps.polled = some st) :
    ps.station st.number = some st := by
  obtain ⟨-, v, -, -, hs⟩ := PortState.polled_cases h
  have hn : st.number = v.station := by simpa using List.find?_some hs
  rw [hn]
  exact hs

/-- An operation of the block that keeps a property of the lines. -/
def Keeps (I : Line → Prop) (f : State → State) : Prop := ∀ s : State, I s.line → I (f s).line

section
variable {ok : LineSettings → Prop} {I : Line → Prop} (inv : LineInvariant ok I)
include inv

/-! ### The frames of events -/

theorem queueOut_keeps {ln : Line} (o : Out) (ho : ∀ r, o.mark = .lineReply r → ok r.settings) (h : I ln) :
    I (ln.queueOut o) := by
  have one : ∀ n, I (ln.sendTo n o) := fun n => by
    unfold Line.sendTo
    split
    · exact inv.move _ _ h (.queue _ _ _ ho)
    · exact inv.move _ _ h (.lose _)
  unfold Line.queueOut
  split
  · exact inv.move _ _ h (.queue _ _ _ ho)
  · exact one _
  · split
    · exact one _
    · exact inv.move _ _ h (.lose _)

theorem run_keeps_of (f : Ev → Ev) (s : State) (hf : ∀ o ∈ (f ⟨s.garage, []⟩).out, ∀ r, o.mark = .lineReply r → ok r.settings)
    (h : I s.line) : I (s.run f).line := by
  have all : ∀ (outs : List Out) (ln : Line), (∀ o ∈ outs, ∀ r, o.mark = .lineReply r → ok r.settings) → I ln →
      I (outs.foldl Line.queueOut ln) := by
    intro outs
    induction outs with
    | nil => exact fun _ _ h => h
    | cons o rest ih =>
      intro ln ho h
      exact ih _ (fun x hx => ho x (List.mem_cons_of_mem _ hx)) (queueOut_keeps inv o (ho o List.mem_cons_self) h)
  exact all _ _ hf h

theorem run_keeps {f : Ev → Ev} (hf : ∀ e, e.Unset → (f e).Unset) : Keeps I fun s => s.run f := fun s h =>
  run_keeps_of inv f s (fun o ho r hr => absurd hr (hf _ (Ev.unset_nil _) o ho r)) h

/-! ### Polls and sends -/

theorem modPort_keeps_of {s : State} {p : Port} {f : PortState → PortState} (hf : PortMove ok (s.port p) (f (s.port p)))
    (h : I s.line) : I (s.modPort p f).line := inv.move _ _ h (.port s.line p f hf)

theorem modPort_keeps (p : Port) (f : PortState → PortState) (hf : ∀ a, PortMove ok a (f a)) :
    Keeps I fun s => s.modPort p f := fun _ h => modPort_keeps_of inv (hf _) h

theorem enterHold_keeps : Keeps I State.enterHold := by
  intro s h
  unfold State.enterHold
  split
  · exact modPort_keeps inv .g _ .hold _ (modPort_keeps inv .s _ .hold _ h)
  · exact h

theorem sendNext_keeps (p : Port) : Keeps I fun s => s.sendNext p := fun s h =>
  modPort_keeps inv p _ (fun a => .send a _) _ (enterHold_keeps inv s h)

theorem beginTurn_keeps (p : Port) : Keeps I fun s => s.beginTurn p := fun _ h =>
  sendNext_keeps inv p _ (modPort_keeps inv p _ .turn _ h)

theorem underHold_keeps : Keeps I State.underHold := by
  intro s h
  unfold State.underHold
  split
  · exact sendNext_keeps inv .g _ (sendNext_keeps inv .s _ h)
  · exact h

theorem pollNext_keeps (p : Port) : Keeps I fun s => s.pollNext p := by
  intro s h
  show I (s.pollNext p).line
  unfold State.pollNext
  dsimp only
  split
  · rename_i hc
    have hs : (s.port p).canSend = true := by rw [Bool.and_eq_true] at hc; exact hc.1
    split
    · rename_i v hv
      exact modPort_keeps_of inv (.again _ v hs hv) h
    · rename_i hv
      have k : I (s.modPort p fun _ => ((s.port p).seek (2 * (s.port p).stations.length + 1)).1).line :=
        modPort_keeps_of inv (.seek _ _ hs hv) h
      split
      · exact k
      · exact beginTurn_keeps inv p _ k
  · exact h

/-! ### Poll states -/

theorem heard_keeps (p : Port) (st : Station) (a : Bool) : Keeps I fun s => s.heard p st a := fun s h =>
  run_keeps inv (f := heardEv p st a) (fun e => (heardEv_unset p st a e).mpr) _
    (modPort_keeps inv p _ (fun x => .answered x st.number (st.poll == .silent)) s h)

theorem chargeMiss_keeps (p : Port) (st : Station) (s : State) (hst : (s.port p).station st.number = some st)
    (h : I s.line) : I (s.chargeMiss p st).line := by
  unfold State.chargeMiss
  split
  · exact h
  · split
    · rename_i hm
      exact modPort_keeps_of inv (.missed _ st hst hm) h
    · refine run_keeps inv (fun e he => ?_) _ (modPort_keeps inv p _ (fun x => .silenced x st.number) s h)
      dsimp only
      split <;> simpa using he

/-! ### Line settings -/

theorem applyLine_keeps (r : LineRequest) (hr : ok r.settings) : Keeps I fun s => s.applyLine r := by
  intro s h
  show I (s.applyLine r).line
  have k := modPort_keeps inv r.port _ (fun a => .settings a r.settings hr) s h
  unfold State.applyLine
  dsimp only at k ⊢
  generalize s.modPort r.port (fun ps => { ps with settings := r.settings }) = u at k ⊢
  split
  · exact k
  · split
    · split
      · rename_i hd
        exact modPort_keeps_of inv (p := .g) (.started _ hd) k
      · exact k
    · split
      · exact k
      · exact run_keeps inv (fun e he => by simpa using he) _ (inv.move _ _ k (.off _))

theorem lineRequestDue_keeps (r : LineRequest) (hr : ok r.settings) : Keeps I fun s => s.lineRequestDue r := by
  intro s h
  show I (s.lineRequestDue r).line
  unfold State.lineRequestDue
  split
  · exact inv.move _ _ h (.wait _ r hr)
  · exact applyLine_keeps inv r hr s h

theorem applyAll_keeps (due : List LineRequest) (hd : ∀ r ∈ due, ok r.settings) :
    Keeps I fun s => due.foldl State.applyLine s := by
  induction due with
  | nil => exact fun _ h => h
  | cons r rest ih =>
    exact fun s h => ih (fun x hx => hd x (List.mem_cons_of_mem _ hx)) _
      (applyLine_keeps inv r (hd r List.mem_cons_self) s h)

theorem applyDue_keeps (p : Port) : Keeps I fun s => s.applyDue p := by
  intro s h
  cases p
  · exact h
  · exact applyAll_keeps inv _ (inv.due _ h) _ (inv.move _ _ h (.due _))

/-! ### The ends of exchanges and of frames -/

theorem finishExchange_keeps (p : Port) (more : Bool) : Keeps I fun s => s.finishExchange p more := by
  intro s h
  show I (s.finishExchange p more).line
  unfold State.finishExchange
  dsimp only
  split
  · refine beginTurn_keeps inv p _ (applyDue_keeps inv p _ ?_)
    refine modPort_keeps_of inv (.ended (hold := s.line.pollHold) fun hag => ?_) h
    cases hv : (s.port p).visit with
    | none => rw [hv] at hag; cases hag
    | some v => rw [hv] at hag; exact ⟨v, rfl, (Bool.and_eq_true _ _ ▸ hag).2⟩
  · exact h

theorem warmStart_keeps : Keeps I State.warmStart := fun _ h =>
  run_keeps inv warmEffects_unset _ (inv.move _ _ h (.warm _))

theorem endTransmission_keeps (p : Port) : Keeps I fun s => s.endTransmission p := by
  intro s h
  show I (s.endTransmission p).line
  unfold State.endTransmission
  split
  · exact h
  · rename_i q hq
    have k := modPort_keeps inv p _ .sent s h
    refine sendNext_keeps inv p _ (applyDue_keeps inv p _ ?_)
    obtain ⟨f, m⟩ := q
    cases m with
    | plain => exact k
    | restartReply => exact warmStart_keeps inv _ k
    | lineReply r => exact lineRequestDue_keeps inv r (inv.sent _ h p f r hq) _ k
    | moveOrder l n => exact k

theorem endExchange_keeps (p : Port) (f : Station → State → State)
    (hf : ∀ st (s : State), (s.port p).polled = some st → I s.line → I (f st s).line) :
    Keeps I fun s => s.endExchange p f := by
  intro s h
  show I (s.endExchange p f).line
  unfold State.endExchange
  split
  · refine finishExchange_keeps inv p false _ ?_
    split
    · rename_i st hst
      exact hf st s hst h
    · exact h
  · exact h

theorem tallyFault_keeps (p : Port) : Keeps I fun s => s.tallyFault p := modPort_keeps inv p _ .fault

theorem discardAnswer_keeps (p : Port) (st : Station) : Keeps I fun s => s.discardAnswer p st := fun s h =>
  heard_keeps inv p st false _ (tallyFault_keeps inv p s h)

theorem breakLine_keeps (p : Port) : Keeps I fun s => s.breakLine p := by
  intro s h
  have k := modPort_keeps inv p _ .sent s h
  have lost : I (s.loseSending p).line ∧ ((s.loseSending p).port p).sending = none := by
    have hs : ((s.modPort p fun ps => { ps with sending := none }).port p).sending = none := by simp
    unfold State.loseSending
    dsimp only
    split
    · exact ⟨k, hs⟩
    · exact ⟨k, hs⟩
  exact applyDue_keeps inv p _ (run_keeps inv (fun e he => by simpa using he) _
    (modPort_keeps_of inv (.broken _ lost.2) lost.1))

theorem route_keeps (p : Port) (source : Nat) (f : Frame) : Keeps I fun s => s.route p source f := by
  intro s h
  show I (s.route p source f).line
  unfold State.route
  split
  · exact modPort_keeps inv p _ .drop s h
  · rename_i q _
    split
    · exact h
    · split
      · exact modPort_keeps inv q _ (fun a => .passOn a f) s h
      · exact h
      · exact run_keeps inv (fun e he => by simpa using he) s h

theorem dataFrame_keeps (p : Port) (flags : Byte) (pl : List Byte) (f : Station → State → State)
    (hf : ∀ st, Keeps I (f st)) : Keeps I fun s => s.dataFrame p flags pl f := by
  intro s h
  show I (s.dataFrame p flags pl f).line
  unfold State.dataFrame
  split
  · split
    · exact finishExchange_keeps inv p false s h
    · rename_i st _
      split
      · exact finishExchange_keeps inv p false _ (discardAnswer_keeps inv p st s h)
      · exact finishExchange_keeps inv p _ _ (hf st _ (heard_keeps inv p st true s h))
  · exact h

theorem expireAll_keeps (ds : List Due) : Keeps I fun s => s.expireAll ds := by
  induction ds with
  | nil => exact fun _ h => h
  | cons d rest ih =>
    intro s h
    refine ih _ (underHold_keeps inv _ ?_)
    unfold State.expire
    split
    · exact run_keeps inv (fun e => (expires_unset d e).mpr) s h
    · exact h

/-! ### Bodies -/

theorem evBody_keeps {f : Caller → List Byte → Ev → Ev} (hf : ∀ c pl e, (f c pl e).Unset ↔ e.Unset) (c : Caller)
    (pl : List Byte) : Keeps I (evBody f c pl) := run_keeps inv fun e => (hf c pl e).mpr

theorem workBody_keeps {f : Caller → List Byte → Ev → Ev} (hf : ∀ c pl e, (f c pl e).Unset ↔ e.Unset) (c : Caller)
    (pl : List Byte) : Keeps I (workBody f c pl) :=
  evBody_keeps inv (f := fun c pl e => settle (f c pl e)) (fun c pl e => (settle_unset _).trans (hf c pl e)) c pl

theorem liftBody_keeps {f : Lift → List Byte → Ev → Ev} (hf : ∀ l pl e, (f l pl e).Unset ↔ e.Unset) (c : Caller)
    (pl : List Byte) : Keeps I (liftBody f c pl) := by
  refine workBody_keeps inv (fun c pl e => ?_) c pl
  split
  · exact hf _ _ _
  · exact Iff.rfl

theorem setLineTaken_keeps (c : Caller) (r : LineRequest) (hr : ok r.settings) : Keeps I fun s => s.setLineTaken c r := by
  intro s h
  have k : I (s.run fun e => e.replyMarked c Kind.setLine .taken (lineDetail r) (.lineReply r)).line := by
    refine run_keeps_of inv _ s (fun o ho x hx => ?_) h
    simp only [Ev.replyMarked_out, List.nil_append, List.mem_singleton] at ho
    subst ho
    cases hx
    exact hr
  show I (s.setLineTaken c r).line
  unfold State.setLineTaken
  dsimp only
  split
  · exact k
  · exact lineRequestDue_keeps inv r hr _ k

theorem setLineBody_keeps (c : Caller) (pl : List Byte) : Keeps I (setLineBody c pl) := by
  intro s h
  unfold setLineBody
  split
  · exact run_keeps inv (fun e he => by simpa using he) s h
  · exact run_keeps inv (fun e he => by simpa using he) s h
  · split
    · exact setLineTaken_keeps inv c _ (inv.loaded pl _) s h
    · split
      · exact run_keeps inv (fun e he => by simpa using he) s h
      · split
        · exact run_keeps inv (fun e he => by simpa using he) s h
        · exact setLineTaken_keeps inv c _ (inv.loaded pl _) s h

theorem loadStationsBody_keeps (c : Caller) (pl : List Byte) : Keeps I (loadStationsBody c pl) := by
  intro s h
  unfold loadStationsBody
  dsimp only
  split
  · exact run_keeps inv (fun e he => by simpa using he) s h
  · split
    · exact run_keeps inv (fun e he => by simpa using he) s h
    · rename_i p _
      split
      · exact run_keeps inv (fun e he => by simpa using he) s h
      · rename_i sts hsts
        refine run_keeps inv (fun e he => ?_) _ (inv.move _ _ h (.reload _ p sts ?_))
        · cases p
          · simpa using he
          · simpa [loseUnserved_unset] using he
        · unfold State.loadedStations at hsts
          split at hsts
          · cases hsts
          · rename_i hok
            split at hsts
            · rename_i hstands
              cases hsts
              exact ⟨⟨pl, _, _, hok⟩, hstands⟩
            · cases hsts

end

/-- Entries that are all taken are as many as they are. -/
theorem passEntries_length (pl : List Byte) (base size : Nat) : ∀ (k i : Nat) (a out : List PassEntry),
    applyEntries (passEntry pl) base size k i a = .ok out → out.length = a.length + k := by
  intro k
  induction k with
  | zero => intro i a out h; cases h; rfl
  | succ k ih =>
    intro i a out h
    unfold applyEntries at h
    split at h
    · rename_i a' ha
      have hl : a'.length = a.length + 1 := by
        unfold passEntry at ha
        dsimp only at ha
        (repeat' split at ha) <;> cases ha <;> simp
      rw [ih _ _ _ h, hl]
      omega
    · cases h

/-- A LOAD_PASS makes no table of more than 32 entries (R20). -/
theorem loadedPass_length {table t : List PassEntry} {pl : List Byte} (ht : table.length ≤ 32)
    (h : loadedPass table pl = .ok t) : t.length ≤ 32 := by
  unfold loadedPass at h
  dsimp only at h
  split at h
  · cases h
  · rename_i hin
    split at h
    · cases h
    · rename_i entries hent
      cases h
      have hl := passEntries_length _ _ _ _ _ _ _ hent
      simp only [List.length_append, List.length_take, List.length_nil] at hl ⊢
      split
      · simp only [List.length_nil]; omega
      · simp only [List.length_drop]; omega

end Sys2Proof.Machine

namespace Sys2Proof.Machine

/-! ### Frame commands -/

/-- A frame command is its kind's body behind the gates; the body is that of the kind received (R21, R195). -/
theorem exec_frameCommand {p : Port} {kind flags : Byte} {pl : List Byte} {c : Instr}
    (h : frameCommand p kind flags pl = some c) (s : State) : exec c s = s.frame p kind flags pl (bodyOf kind) := by
  have hk : BitVec.ofNat 8 kind.toNat = kind := by simp
  unfold frameCommand at h
  split at h <;> first | (cases h; done) | skip
  all_goals
    rename_i hn
    rw [hn] at hk
    cases h
    cases hk
    rfl

/-- A body that keeps a property of the lines, whoever the caller is and whatever the frame carries. -/
def BodyKeeps (I : Line → Prop) (b : Body) : Prop := ∀ c pl, Keeps I (b c pl)

section
variable {ok : LineSettings → Prop} {I : Line → Prop} (inv : LineInvariant ok I)
include inv

theorem bodyOf_keeps (kind : Byte) : BodyKeeps I (bodyOf kind) := by
  unfold bodyOf
  split
  case h_1 => exact workBody_keeps inv arrive_unset
  case h_2 => exact workBody_keeps inv retrieve_unset
  case h_3 => exact workBody_keeps inv resume_unset
  case h_4 => exact workBody_keeps inv cancel_unset
  case h_5 => exact workBody_keeps inv handover_unset
  case h_6 => exact workBody_keeps inv rePark_unset
  case h_7 => exact evBody_keeps inv queryTicket_unset
  case h_8 => exact evBody_keeps inv keyIn_unset
  case h_9 => exact evBody_keeps inv keyOut_unset
  case h_10 => exact evBody_keeps inv runnerOn_unset
  case h_11 => exact evBody_keeps inv runnerOff_unset
  case h_12 => exact workBody_keeps inv pickup_unset
  case h_13 => exact liftBody_keeps inv liftStatus_unset
  case h_14 => exact liftBody_keeps inv carPresent_unset
  case h_15 => exact liftBody_keeps inv moveDone_unset
  case h_16 => exact liftBody_keeps inv moveFault_unset
  case h_17 => exact liftBody_keeps inv moveRefused_unset
  case h_18 => exact setLineBody_keeps inv
  case h_19 => exact loadStationsBody_keeps inv
  case h_20 =>
    intro c pl s h
    unfold loadPassBody
    split
    · exact run_keeps inv (fun e he => by simpa using he) s h
    · rename_i t ht
      exact run_keeps inv (fun e he => by simpa using he) _
        (inv.move _ _ h (.pass _ t fun hl => loadedPass_length hl ht))
  case h_21 => exact fun c pl s => run_keeps inv (fun e he => by simpa using he) s
  case h_22 => exact fun c pl s h => run_keeps inv (fun e he => by simpa using he) _ (inv.move _ _ h (.clear _))
  case h_23 =>
    intro c pl s h
    unfold restartBody
    split
    · exact run_keeps inv (fun e he => by simpa using he) s h
    · exact warmStart_keeps inv s h
  case h_24 => exact evBody_keeps inv fun c pl e => loadReply_unset _ _ _ _ _ _
  case h_25 => exact evBody_keeps inv fun c pl e => loadReply_unset _ _ _ _ _ _
  case h_26 => exact evBody_keeps inv fun c pl e => loadReply_unset _ _ _ _ _ _
  case h_27 => exact evBody_keeps inv setLanes_unset
  case h_28 => exact evBody_keeps inv loadCabinet_unset
  case h_29 => exact fun c pl s => run_keeps inv (fun e => (enterService_unset s.line.g.stations c e).mpr) s
  case h_30 => exact evBody_keeps inv leaveService_unset
  case h_31 => exact workBody_keeps inv bayService_unset
  case h_32 => exact evBody_keeps inv queryBay_unset
  case h_33 => exact evBody_keeps inv hookService_unset
  case h_34 => exact evBody_keeps inv setWeights_unset
  case h_35 => exact evBody_keeps inv setLimits_unset
  case h_36 => exact workBody_keeps inv setFloor_unset
  case h_37 => exact evBody_keeps inv setTimes_unset
  case h_38 => exact evBody_keeps inv setClock_unset
  case h_39 => exact evBody_keeps inv setMeasure_unset
  case h_40 =>
    exact fun c pl s => run_keeps inv (fun e he => (settle_unset _).mpr ((liftService_unset s.line.hears c pl e).mpr he)) s
  case h_41 => exact workBody_keeps inv liftResolve_unset
  case h_42 => exact evBody_keeps inv liftReport_unset
  case h_43 => exact workBody_keeps inv convoyLoad_unset
  case h_44 => exact workBody_keeps inv convoyStart_unset
  case h_45 => exact workBody_keeps inv convoyStop_unset
  case h_46 => exact evBody_keeps inv convoyQuery_unset
  case h_47 => exact evBody_keeps inv fun c _ e => Ev.reply_unset _ _ _ _ _

theorem judge_keeps (c : Caller) (kind : Byte) (pl : List Byte) : Keeps I fun s => s.judge c kind pl (bodyOf kind) := by
  intro s h
  show I (s.judge c kind pl (bodyOf kind)).line
  unfold State.judge
  split
  · exact run_keeps inv (fun e he => by simpa using he) s h
  · split
    · exact run_keeps inv (fun e => (modeRefused_unset c kind e).mpr) s h
    · split
      · exact run_keeps inv (fun e => (malformed_unset c kind pl e).mpr) s h
      · exact bodyOf_keeps inv kind c pl s h

theorem react_keeps {f : State → State} (hf : Keeps I f) {s t : State} (h : I s.line) (ht : s.react f = .next t) :
    I t.line := by
  unfold State.react at ht
  cases ht
  split
  · exact underHold_keeps inv _ (hf s h)
  · exact h

theorem frame_keeps {p : Port} {kind flags : Byte} {pl : List Byte} {s t : State} (h : I s.line)
    (ht : s.frame p kind flags pl (bodyOf kind) = .next t) : I t.line :=
  react_keeps inv (dataFrame_keeps inv p flags pl _ fun st => judge_keeps inv ⟨p, st.number, st.role⟩ kind pl) h ht

theorem command_keeps {p : Port} {kind flags : Byte} {pl : List Byte} {c : Instr} {s t : State} (h : I s.line)
    (hc : frameCommand p kind flags pl = some c) (ht : exec c s = .next t) : I t.line :=
  frame_keeps inv h (by rw [← exec_frameCommand hc]; exact ht)

theorem tickExpiring_keeps (d : Due) : Keeps I (State.tickExpiring d) := by
  intro s h
  unfold State.tickExpiring
  split
  · exact expireAll_keeps inv _ _ h
  · exact h

/-- Every command keeps every invariant of the lines. -/
theorem exec_keeps (c : Instr) {s t : State} (h : I s.line) (ht : exec c s = .next t) : I t.line := by
  cases c
  case powerUp b =>
    change execPowerUp b s = .next t at ht
    unfold execPowerUp at ht
    split at ht
    · cases ht; exact h
    · split at ht <;> cases ht
      · exact underHold_keeps inv _ (warmStart_keeps inv { s with powered := true, storeHeld := true } h)
      · exact inv.move _ _ h (.cold _)
  case powerLoss b => cases ht; exact h
  case warmStart => exact react_keeps inv (warmStart_keeps inv) h ht
  case tick => exact react_keeps inv (fun s h => expireAll_keeps inv _ s.ticked h) h ht
  case moveTimerExpiry l => exact react_keeps inv (tickExpiring_keeps inv _) h ht
  case pickupTimerExpiry r => exact react_keeps inv (tickExpiring_keeps inv _) h ht
  case holdTimerExpiry n => exact react_keeps inv (tickExpiring_keeps inv _) h ht
  case poll p => exact react_keeps inv (pollNext_keeps inv p) h ht
  case miss p =>
    exact react_keeps inv (endExchange_keeps inv p _ fun st s hp h =>
      chargeMiss_keeps inv p st s (PortState.station_of_polled hp) h) h ht
  case empty p => exact react_keeps inv (endExchange_keeps inv p _ fun st s _ => heard_keeps inv p st true s) h ht
  case frameDiscarded p =>
    exact react_keeps inv (endExchange_keeps inv p _ fun st s _ => discardAnswer_keeps inv p st s) h ht
  case idleTimeEnd p =>
    exact react_keeps inv (endExchange_keeps inv p _ fun st s _ => discardAnswer_keeps inv p st s) h ht
  case sourceMismatch p =>
    refine react_keeps inv (endExchange_keeps inv p _ fun st s hp h =>
      chargeMiss_keeps inv p st _ ?_ (tallyFault_keeps inv p s h)) h ht
    rw [State.tallyFault, State.modPort_port]
    exact PortState.station_of_polled hp
  case lineBreak p =>
    change execLineBreak p s = .next t at ht
    unfold execLineBreak at ht
    refine react_keeps inv ?_ h ht
    intro s h
    dsimp only
    split
    · exact breakLine_keeps inv p s h
    · exact h
  case lineReturn p =>
    change execLineReturn p s = .next t at ht
    unfold execLineReturn at ht
    refine react_keeps inv ?_ h ht
    intro s h
    dsimp only
    split
    · rename_i hm
      exact beginTurn_keeps inv p _ (modPort_keeps_of inv (.returned _ hm) h)
    · exact h
  case frameSent p => exact react_keeps inv (endTransmission_keeps inv p) h ht
  case moveOrderSent l =>
    change execMoveOrderSent l s = .next t at ht
    unfold execMoveOrderSent at ht
    refine react_keeps inv ?_ h ht
    intro s h
    dsimp only
    split
    · split
      · exact endTransmission_keeps inv .g s h
      · exact h
    · exact h
  case lineSettingsTakeEffect p =>
    change execLineSettingsTakeEffect p s = .next t at ht
    unfold execLineSettingsTakeEffect at ht
    refine react_keeps inv ?_ h ht
    intro s h
    dsimp only
    split
    · split
      · exact endTransmission_keeps inv .s s h
      · split
        · exact applyDue_keeps inv .g s h
        · exact h
    · split
      · exact applyDue_keeps inv .g s h
      · exact h
  case transit p f =>
    exact react_keeps inv (dataFrame_keeps inv p f.flags f.payload _ fun st => route_keeps inv p st.number f) h ht
  case unknownKind p k fl pl => exact frame_keeps inv h ht
  case arrival p fl pl => exact command_keeps inv h (kind := Kind.arrival) rfl ht
  case retrieve p fl pl => exact command_keeps inv h (kind := Kind.retrieve) rfl ht
  case resume p fl pl => exact command_keeps inv h (kind := Kind.resume) rfl ht
  case cancel p fl pl => exact command_keeps inv h (kind := Kind.cancel) rfl ht
  case handover p fl pl => exact command_keeps inv h (kind := Kind.handover) rfl ht
  case rePark p fl pl => exact command_keeps inv h (kind := Kind.rePark) rfl ht
  case queryTicket p fl pl => exact command_keeps inv h (kind := Kind.queryTicket) rfl ht
  case keyIn p fl pl => exact command_keeps inv h (kind := Kind.keyIn) rfl ht
  case keyOut p fl pl => exact command_keeps inv h (kind := Kind.keyOut) rfl ht
  case runnerOn p fl pl => exact command_keeps inv h (kind := Kind.runnerOn) rfl ht
  case runnerOff p fl pl => exact command_keeps inv h (kind := Kind.runnerOff) rfl ht
  case pickup p fl pl => exact command_keeps inv h (kind := Kind.pickup) rfl ht
  case liftStatus p fl pl => exact command_keeps inv h (kind := Kind.liftStatus) rfl ht
  case carPresent p fl pl => exact command_keeps inv h (kind := Kind.carPresent) rfl ht
  case moveDone p fl pl => exact command_keeps inv h (kind := Kind.moveDone) rfl ht
  case moveFault p fl pl => exact command_keeps inv h (kind := Kind.moveFault) rfl ht
  case moveRefused p fl pl => exact command_keeps inv h (kind := Kind.moveRefused) rfl ht
  case setLine p fl pl => exact command_keeps inv h (kind := Kind.setLine) rfl ht
  case loadStations p fl pl => exact command_keeps inv h (kind := Kind.loadStations) rfl ht
  case loadPass p fl pl => exact command_keeps inv h (kind := Kind.loadPass) rfl ht
  case status p fl pl => exact command_keeps inv h (kind := Kind.status) rfl ht
  case statusClear p fl pl => exact command_keeps inv h (kind := Kind.statusClear) rfl ht
  case restart p fl pl => exact command_keeps inv h (kind := Kind.restart) rfl ht
  case loadZones p fl pl => exact command_keeps inv h (kind := Kind.loadZones) rfl ht
  case loadStacks p fl pl => exact command_keeps inv h (kind := Kind.loadStacks) rfl ht
  case loadBays p fl pl => exact command_keeps inv h (kind := Kind.loadBays) rfl ht
  case setLanes p fl pl => exact command_keeps inv h (kind := Kind.setLanes) rfl ht
  case loadCabinet p fl pl => exact command_keeps inv h (kind := Kind.loadCabinet) rfl ht
  case enterService p fl pl => exact command_keeps inv h (kind := Kind.enterService) rfl ht
  case leaveService p fl pl => exact command_keeps inv h (kind := Kind.leaveService) rfl ht
  case bayService p fl pl => exact command_keeps inv h (kind := Kind.bayService) rfl ht
  case queryBay p fl pl => exact command_keeps inv h (kind := Kind.queryBay) rfl ht
  case hookService p fl pl => exact command_keeps inv h (kind := Kind.hookService) rfl ht
  case setWeights p fl pl => exact command_keeps inv h (kind := Kind.setWeights) rfl ht
  case setLimits p fl pl => exact command_keeps inv h (kind := Kind.setLimits) rfl ht
  case setFloor p fl pl => exact command_keeps inv h (kind := Kind.setFloor) rfl ht
  case setTimes p fl pl => exact command_keeps inv h (kind := Kind.setTimes) rfl ht
  case setClock p fl pl => exact command_keeps inv h (kind := Kind.setClock) rfl ht
  case setMeasure p fl pl => exact command_keeps inv h (kind := Kind.setMeasure) rfl ht
  case liftService p fl pl => exact command_keeps inv h (kind := Kind.liftService) rfl ht
  case liftResolve p fl pl => exact command_keeps inv h (kind := Kind.liftResolve) rfl ht
  case liftReport p fl pl => exact command_keeps inv h (kind := Kind.liftReport) rfl ht
  case convoyLoad p fl pl => exact command_keeps inv h (kind := Kind.convoyLoad) rfl ht
  case convoyStart p fl pl => exact command_keeps inv h (kind := Kind.convoyStart) rfl ht
  case convoyStop p fl pl => exact command_keeps inv h (kind := Kind.convoyStop) rfl ht
  case convoyQuery p fl pl => exact command_keeps inv h (kind := Kind.convoyQuery) rfl ht

/-- Every step keeps every invariant of the lines. -/
theorem step_keeps {s t : State} (h : I s.line) (ht : step s = .next t) : I t.line := by
  unfold step at ht
  split at ht
  · cases ht; exact h
  · rename_i c rest _
    exact exec_keeps inv c (s := { s with pending := rest }) h ht

end
end Sys2Proof.Machine

namespace Sys2Proof.Machine

/-! ### Visits -/

@[simp] theorem PortState.advance_visit (ps : PortState) : ps.advance.visit = ps.visit := by
  unfold PortState.advance; split <;> rfl

@[simp] theorem PortState.endVisit_visit (ps : PortState) : ps.endVisit.visit = none := by
  unfold PortState.endVisit
  split
  · assumption
  · dsimp only; split <;> simp

theorem PortState.canSend_iff (a : PortState) :
    a.canSend = true ↔ a.mode = .running ∧ a.sending = none ∧ a.awaiting = false := by
  simp [PortState.canSend, and_assoc]

/-- The search of the next station, seen as the moves it makes: stations passed over, the poll position moved, and at its
end a visit or none. -/
theorem PortState.seek_ends {P Q : PortState → Prop}
    (skip : ∀ (a : PortState) (st : Station), P a → a.stations[a.pollPos]? = some st → st.skips < 3 →
      P (a.modStation st.number fun x => { x with skips := x.skips + 1 }))
    (move : ∀ (a : PortState) (pos : Nat) (cyc : Bool), P a → P { a with pollPos := pos, cyclePolled := cyc })
    (stop : ∀ a, P a → Q a)
    (visit : ∀ (a : PortState) (st : Station), P a → Q { (a.modStation st.number fun x =>
      { x with skips := if x.poll = .silent then 0 else x.skips }).beginExchange (Visit.first st.number) with
        cyclePolled := true }) (n : Nat) (a : PortState) (h : P a) : Q (a.seek n).1 := by
  have adv : ∀ a : PortState, P a → P a.advance := fun a h => by
    unfold PortState.advance
    split
    · exact move a (a.pollPos + 1) a.cyclePolled h
    · exact move a 0 false h
  induction n generalizing a with
  | zero => exact stop a h
  | succ n ih =>
    unfold PortState.seek
    split
    · exact stop _ (move a 0 false h)
    · rename_i st hst
      split
      · rename_i hs
        have k := adv _ (skip a st h hst hs.2)
        dsimp only
        split
        · exact ih _ k
        · exact stop _ k
      · exact visit a st h

/-! ### Bounds and half duplex -/

theorem tallyUp_bounded {n : Nat} (h : n ≤ 65535) : tallyUp n ≤ 65535 := by
  unfold tallyUp Config.max16; split <;> omega

theorem tallyAdd_bounded {n : Nat} (k : Nat) (h : n ≤ 65535) : tallyAdd n k ≤ 65535 := by
  unfold tallyAdd Config.max16; omega

/-- A port whose visit has ended is sound when all else was. -/
theorem PortState.Sound.endVisit {a : PortState} {cap : Nat} (h : a.Sound cap) (hw : a.awaiting = false) :
    a.endVisit.Sound cap := by
  have e := (a.endVisit_pollsOnly).eq
  have hv := a.endVisit_visit
  generalize a.endVisit = b at e hv
  rw [e, hv]
  exact { h with
    exchanges := fun v hx => nomatch hx
    removal := fun v hx => nomatch hx
    awaits := fun hx => by simp [hw] at hx }

theorem PortState.Sound.unawaited {a : PortState} {cap : Nat} (h : a.Sound cap) :
    ({ a with awaiting := false } : PortState).endVisit.Sound cap := by
  have e := (PortState.endVisit_pollsOnly { a with awaiting := false }).eq
  rw [PortState.endVisit_visit] at e
  rw [e]
  exact { h with
    exchanges := fun v hx => nomatch hx
    removal := fun v hx => nomatch hx
    awaits := fun hx => nomatch hx }

theorem PortState.Sound.enterHold {a : PortState} {cap : Nat} (h : a.Sound cap) : a.enterHold.Sound cap := by
  unfold PortState.enterHold PortState.cutVisit
  split
  · exact { h with turn := Nat.zero_le _ }
  · rename_i v hv
    split
    · rename_i hw
      obtain ⟨hm, hs, -⟩ := h.awaits hw
      exact { h with
        turn := Nat.zero_le _
        exchanges := fun x hx => by cases hx; exact h.exchanges v hv
        removal := fun _ _ _ => hw
        awaits := fun _ => ⟨hm, hs, by simp⟩ }
    · rename_i hw
      exact { h.endVisit (by simpa using hw) with turn := Nat.zero_le _ }

/-- What sending can do: nothing, the end of a turn with nothing to send, or a frame begun from the head of a queue (R17). -/
theorem PortState.sendNext_cases (a : PortState) (hold : Bool) :
    a.sendNext hold = a ∨ a.canSend = true ∧ (a.sendNext hold = { a with turnLeft := 0 } ∨
      ∃ left, left ≤ a.turnLeft ∧
        ((∃ q own k, a.ownQueue = q :: own ∧ k ≤ max a.passOver 2 ∧ a.sendNext hold = { a with
          ownQueue := own, passOver := k, sending := some q, breakDue := false, turnLeft := left }) ∨
        ∃ f rest, a.transitQueue = f :: rest ∧ a.sendNext hold = { a with
          transitQueue := rest, passOver := 0, sending := some ⟨f, .plain⟩, breakDue := false, turnLeft := left })) := by
  by_cases hc : (a.canSend && (hold || decide (0 < a.turnLeft))) = true
  · refine .inr ⟨(Bool.and_eq_true _ _ ▸ hc).1, ?_⟩
    have hl : (if hold then 0 else a.turnLeft - 1) ≤ a.turnLeft := by split <;> omega
    unfold PortState.sendNext PortState.chooseFrame
    rw [if_pos hc]
    cases ho : a.ownQueue with
    | nil =>
      cases ht : a.transitQueue with
      | nil => exact .inl rfl
      | cons f rest => exact .inr ⟨_, hl, .inr ⟨f, rest, rfl, rfl⟩⟩
    | cons q own =>
      cases ht : a.transitQueue with
      | nil => exact .inr ⟨_, hl, .inl ⟨q, own, a.passOver, rfl, by omega, rfl⟩⟩
      | cons f rest =>
        by_cases hp : 2 ≤ a.passOver
        · exact .inr ⟨_, hl, .inr ⟨f, rest, rfl, by simp [hp]⟩⟩
        · exact .inr ⟨_, hl, .inl ⟨q, own, a.passOver + 1, rfl, by omega, by simp [hp]⟩⟩
  · unfold PortState.sendNext
    rw [if_neg hc]
    exact .inl rfl

theorem PortState.Sound.sendNext {a : PortState} {cap : Nat} (h : a.Sound cap) (hold : Bool) : (a.sendNext hold).Sound cap := by
  rcases a.sendNext_cases hold with e | ⟨hc, e | ⟨left, hl, ⟨q, own, k, ho, hk, e⟩ | ⟨f, rest, ht, e⟩⟩⟩
  · rw [e]; exact h
  · rw [e]; exact { h with turn := Nat.zero_le _ }
  · obtain ⟨hm, -, hw⟩ := a.canSend_iff.mp hc
    have hown := h.own
    have := h.passOver
    have := h.turn
    rw [ho, List.length_cons] at hown
    rw [e]
    exact { h with
      own := by dsimp only; omega
      passOver := by dsimp only; omega
      turn := by dsimp only; omega
      awaits := fun hx => by simp [hw] at hx
      sends := fun _ => hm }
  · obtain ⟨hm, -, hw⟩ := a.canSend_iff.mp hc
    have htr := h.transit
    have := h.turn
    rw [ht, List.length_cons] at htr
    rw [e]
    exact { h with
      transit := by dsimp only; omega
      passOver := Nat.zero_le _
      turn := by dsimp only; omega
      awaits := fun hx => by simp [hw] at hx
      sends := fun _ => hm }

theorem PortState.Sound.beginExchange {a : PortState} {cap : Nat} (h : a.Sound cap) (hs : a.canSend = true) (v : Visit)
    (hv : v.exchanges ≤ 4) : (a.beginExchange v).Sound cap := by
  obtain ⟨hm, hq, -⟩ := a.canSend_iff.mp hs
  exact { h with
    turn := Nat.zero_le _
    exchanges := fun x hx => by cases hx; exact ⟨hv, fun hw => nomatch hw⟩
    removal := fun _ _ _ => rfl
    awaits := fun _ => ⟨hm, hq, by simp [PortState.beginExchange]⟩ }

theorem PortState.Sound.passOn {a : PortState} {cap : Nat} (h : a.Sound cap) (f : Frame) : (a.passOn f).Sound cap := by
  unfold PortState.passOn
  split
  · rename_i hl
    exact { h with transit := by simpa [Config.transitCapacity] using hl }
  · exact { h with drop := tallyUp_bounded h.drop }

/-- Every move of a port keeps it within its bounds and half duplex. -/
theorem PortMove.sound {ok : LineSettings → Prop} {a b : PortState} {cap : Nat} (m : PortMove ok a b) (h : a.Sound cap) :
    b.Sound cap := by
  cases m
  case hold => exact h.enterHold
  case send hold => exact h.sendNext hold
  case turn => exact { h with turn := Nat.le_refl _ }
  case again v hs hv =>
    exact h.beginExchange hs _ (Nat.succ_le_of_lt ((h.exchanges v hv).2 (a.canSend_iff.mp hs).2.2))
  case seek n hs hv =>
    exact PortState.seek_ends (P := fun a => a.Sound cap ∧ a.canSend = true) (fun a st h _ _ => ⟨{ h.1 with }, h.2⟩)
      (fun a _ _ h => ⟨{ h.1 with }, h.2⟩) (fun _ h => h.1)
      (fun a st h => by
        have k : (a.modStation st.number fun x =>
          { x with skips := if x.poll = .silent then 0 else x.skips }).Sound cap := { h.1 with }
        exact { k.beginExchange h.2 (Visit.first st.number) (show 1 ≤ 4 by decide) with }) n a ⟨h, hs⟩
  case sent =>
    exact { h with
      awaits := fun hw => by obtain ⟨hm, -, hv⟩ := h.awaits hw; exact ⟨hm, rfl, hv⟩
      sends := fun hx => absurd rfl hx }
  case goesOn v hold hv hg =>
    simp only [PortState.goesOn, Bool.and_eq_true, decide_eq_true_eq, Bool.not_eq_true'] at hg
    obtain ⟨⟨⟨⟨⟨h4, -⟩, hr⟩, -⟩, -⟩, -⟩ := hg
    have one : ∀ x, a.visit = some x → x = v := fun x hx => Option.some.inj (hx.symm.trans hv)
    exact { h with
      exchanges := fun x hx => by rw [one x hx]; exact ⟨by omega, fun _ => h4⟩
      removal := fun x hx hr' => by rw [one x hx, hr] at hr'; cases hr'
      awaits := fun hw => nomatch hw }
  case visitOver => exact h.unawaited
  case broken hs =>
    have k := h.unawaited
    have e := (PortState.endVisit_pollsOnly { a with awaiting := false }).eq
    rw [e] at k ⊢
    exact { k with
      turn := Nat.zero_le _
      awaits := fun hw => nomatch hw
      sends := fun hx => absurd hs hx }
  case returned hm =>
    exact { h with
      awaits := fun hw => by rw [(h.awaits hw).1] at hm; cases hm
      sends := fun _ => rfl }
  case answered n back => exact { h with }
  case missed st _ _ => exact { h with }
  case silenced n => exact { h with }
  case fault => exact { h with fault := tallyUp_bounded h.fault }
  case drop => exact { h with drop := tallyUp_bounded h.drop }
  case passOn f => exact h.passOn f
  case settings x _ => exact { h with }
  case started hm =>
    exact { h with
      passOver := Nat.zero_le _
      turn := Nat.zero_le _
      awaits := fun hw => by rw [(h.awaits hw).1] at hm; cases hm
      sends := fun _ => rfl }

/-- A visit keeps its number of exchanges when its station's table is replaced, and outlives it only in an exchange. -/
theorem Visit.reload_cases {awaiting : Bool} {sts : List Station} {v w : Visit} (h : v.reload awaiting sts = some w) :
    w = v ∨ awaiting = true ∧ w = { v with removed := true } := by
  unfold Visit.reload at h
  split at h
  · exact .inl (Option.some.inj h).symm
  · split at h
    · rename_i hw
      exact .inr ⟨hw, (Option.some.inj h).symm⟩
    · cases h

theorem PortState.Sound.reload {a : PortState} {cap : Nat} (h : a.Sound cap) (sts : List Station) :
    (a.reload sts).Sound cap := by
  have from' : ∀ w, (a.reload sts).visit = some w → ∃ v, a.visit = some v ∧
      (w = v ∨ a.awaiting = true ∧ w = { v with removed := true }) := fun w hw => by
    obtain ⟨v, hv, hw⟩ := Option.bind_eq_some_iff.mp hw
    exact ⟨v, hv, Visit.reload_cases hw⟩
  refine { h with exchanges := fun w hw => ?_, removal := fun w hw hr => ?_, awaits := fun hw => ?_ }
  · obtain ⟨v, hv, rfl | ⟨-, rfl⟩⟩ := from' w hw
    · exact h.exchanges w hv
    · exact h.exchanges v hv
  · obtain ⟨v, hv, rfl | ⟨ha, -⟩⟩ := from' w hw
    · exact h.removal w hv hr
    · exact ha
  · replace hw : a.awaiting = true := hw
    obtain ⟨hm, hs, hv⟩ := h.awaits hw
    obtain ⟨v, hv⟩ := Option.ne_none_iff_exists'.mp hv
    refine ⟨hm, hs, ?_⟩
    show a.visit.bind (fun v => v.reload a.awaiting sts) ≠ none
    rw [hv, hw, Option.bind_some, Visit.reload]
    split <;> simp

theorem PortState.Sound.warm {a : PortState} {cap : Nat} : a.warm.Sound cap where
  own := Nat.zero_le _
  transit := Nat.zero_le _
  passOver := Nat.zero_le _
  turn := Nat.zero_le _
  fault := Nat.zero_le _
  drop := Nat.zero_le _
  exchanges := fun _ h => nomatch h
  removal := fun _ h => nomatch h
  awaits := fun h => nomatch h
  sends := fun h => absurd rfl h

theorem PortState.Sound.reset (m : PortMode) (sts : List Station) (cap : Nat) : (PortState.reset m sts).Sound cap where
  own := Nat.zero_le _
  transit := Nat.zero_le _
  passOver := Nat.zero_le _
  turn := Nat.zero_le _
  fault := Nat.zero_le _
  drop := Nat.zero_le _
  exchanges := fun _ h => nomatch h
  removal := fun _ h => nomatch h
  awaits := fun h => nomatch h
  sends := fun h => absurd rfl h

/-- The lines after a cold start are sound (R24). -/
theorem Line.Sound.reset : Line.reset.Sound := ⟨.reset .., .reset .., Nat.zero_le _, Nat.zero_le _⟩

/-! ### Queues -/

theorem dropOldestAlert_length {qs : List QFrame} (h : holdsAlert qs = true) :
    (dropOldestAlert qs).length + 1 = qs.length := by
  induction qs with
  | nil => cases h
  | cons q rest ih =>
    unfold dropOldestAlert
    split
    · rfl
    · rename_i hk
      have hr : holdsAlert rest = true := by simpa [holdsAlert, hk] using h
      simp [ih hr]

/-- A frame that joins an own queue, or does not, leaves both ports within their bounds (R13 to R15). -/
theorem Line.Sound.enqueue {ln : Line} (h : ln.Sound) (p : Port) (q : QFrame) : (ln.enqueue p q).Sound := by
  by_cases ht : ln.takes p q.frame.kind = true
  · unfold Line.enqueue
    rw [if_pos ht]
    cases p
    · dsimp only
      split
      · rename_i hl
        exact { h with s := { h.s with own := by simpa [Config.ownCapacityS] using hl } }
      · rename_i hl
        have ha : holdsAlert ln.s.ownQueue = true := by
          have ht := (Bool.or_eq_true _ _).mp ht
          exact ht.resolve_left fun hx => hl (of_decide_eq_true hx)
        have := dropOldestAlert_length ha
        have := h.s.own
        have hlen : (dropOldestAlert ln.s.ownQueue ++ [q]).length ≤ 48 := by
          rw [List.length_append, List.length_singleton]; omega
        exact { h with
          s := { h.s with own := hlen }
          notices := tallyUp_bounded h.notices }
    · have hl : ln.g.ownQueue.length < 8 := by
        have ht := of_decide_eq_true ht
        unfold Config.ownCapacityG Config.replyRoomG at ht
        split at ht <;> omega
      exact { h with g := { h.g with own := by simpa using hl } }
  · unfold Line.enqueue
    rw [if_neg ht]
    exact { h with notices := tallyUp_bounded h.notices }

theorem Line.Sound.disableG {ln : Line} (h : ln.Sound) : ln.disableG.Sound :=
  { h with
    g := {
      own := Nat.zero_le _
      transit := Nat.zero_le _
      passOver := h.g.passOver
      turn := Nat.zero_le _
      fault := h.g.fault
      drop := tallyAdd_bounded _ h.g.drop
      exchanges := fun _ h => nomatch h
      removal := fun _ h => nomatch h
      awaits := fun h => nomatch h
      sends := fun h => absurd rfl h }
    notices := tallyAdd_bounded _ h.notices }

/-- Every move of the lines keeps both ports within their bounds and half duplex. -/
theorem LineMove.sound {ok : LineSettings → Prop} {a b : Line} (m : LineMove ok a b) (h : a.Sound) : b.Sound := by
  cases m
  case port p f m =>
    cases p
    · exact { h with s := m.sound h.s }
    · exact { h with g := m.sound h.g }
  case queue p q _ => exact h.enqueue p q
  case lose => exact { h with notices := tallyUp_bounded h.notices }
  case wait r _ => exact { h with }
  case due => exact { h with }
  case off => exact h.disableG
  case pass t ht => exact { h with passTable := ht h.passTable }
  case clear =>
    exact { h with
      s := { h.s with fault := Nat.zero_le _, drop := Nat.zero_le _ }
      g := { h.g with fault := Nat.zero_le _, drop := Nat.zero_le _ }
      notices := Nat.zero_le _ }
  case warm => exact { h with s := .warm, g := .warm, notices := Nat.zero_le _ }
  case cold => exact .reset
  case reload p sts _ =>
    cases p
    · exact { h with s := h.s.reload sts }
    · exact { h with g := h.g.reload sts }

/-- The bounds of the ports are an invariant, whatever the line settings. -/
theorem lineSound_invariant : LineInvariant (fun _ => True) Line.Sound :=
  ⟨fun _ _ => trivial, fun _ _ _ _ => trivial, fun _ _ _ _ _ _ => trivial, fun _ _ h m => m.sound h⟩

/-- Settles O4: every move of the lines keeps the bounds, and a step is a row of moves. -/
theorem linesStaySound : Obligations.LinesStaySound := fun _ _ h ht => step_keeps lineSound_invariant h ht

end Sys2Proof.Machine

namespace Sys2Proof.Machine

/-! ### Station tables (R3, R4) -/

/-- How often a role stands in a table depends on the table's roles alone. -/
theorem roleCount_eq (sts : List Station) (r : Role) : roleCount sts r = (sts.map Station.role).count r := by
  induction sts with
  | nil => rfl
  | cons st rest ih =>
    unfold roleCount at ih ⊢
    rw [List.filter_cons, List.map_cons, List.count_cons, ← ih]
    split <;> simp_all

theorem tableStands_of_roles {p : Port} {xs ys : List Station} (h : ys.map Station.role = xs.map Station.role) :
    tableStands p ys = tableStands p xs := by
  have hl : ys.length = xs.length := by simpa using congrArg List.length h
  unfold tableStands
  simp only [roleCount_eq, h, hl]

/-- A table whose stations are as before in number and role, none with a count out of bounds. -/
def Recounts (xs ys : List Station) : Prop :=
  ∃ f : Station → Station, ys = xs.map f ∧
    ∀ x ∈ xs, (f x).number = x.number ∧ (f x).role = x.role ∧ (f x).misses ≤ 3 ∧ (f x).skips ≤ 3

theorem Recounts.numbers {xs ys : List Station} (h : Recounts xs ys) : ys.map Station.number = xs.map Station.number := by
  obtain ⟨f, rfl, hf⟩ := h
  rw [List.map_map]
  exact List.map_congr_left fun x hx => (hf x hx).1

theorem Recounts.roles {xs ys : List Station} (h : Recounts xs ys) : ys.map Station.role = xs.map Station.role := by
  obtain ⟨f, rfl, hf⟩ := h
  rw [List.map_map]
  exact List.map_congr_left fun x hx => (hf x hx).2.1

theorem Recounts.trans {xs ys zs : List Station} (h : Recounts xs ys) (k : Recounts ys zs) : Recounts xs zs := by
  obtain ⟨f, rfl, hf⟩ := h
  obtain ⟨g, rfl, hg⟩ := k
  refine ⟨g ∘ f, List.map_map .., fun x hx => ?_⟩
  obtain ⟨hn, hr, -⟩ := hf x hx
  obtain ⟨hn', hr', hc⟩ := hg _ (List.mem_map_of_mem hx)
  exact ⟨hn'.trans hn, hr'.trans hr, hc⟩

theorem Recounts.counts {xs ys : List Station} (h : Recounts xs ys) : ∀ y ∈ ys, y.misses ≤ 3 ∧ y.skips ≤ 3 := by
  obtain ⟨f, rfl, hf⟩ := h
  intro y hy
  obtain ⟨x, hx, rfl⟩ := List.mem_map.mp hy
  exact (hf x hx).2.2

theorem Recounts.refl {xs : List Station} (h : ∀ x ∈ xs, x.misses ≤ 3 ∧ x.skips ≤ 3) : Recounts xs xs :=
  ⟨id, (List.map_id xs).symm, fun x hx => ⟨rfl, rfl, h x hx⟩⟩

/-- One station of a table changed, within the bounds of its counts, when no number stands twice. -/
theorem Recounts.one {xs : List Station} (h : ∀ x ∈ xs, x.misses ≤ 3 ∧ x.skips ≤ 3)
    (hd : (xs.map Station.number).Nodup) {st : Station} (hst : st ∈ xs) (f : Station → Station)
    (hf : (f st).number = st.number ∧ (f st).role = st.role ∧ (f st).misses ≤ 3 ∧ (f st).skips ≤ 3) :
    Recounts xs (xs.map fun x => if x.number = st.number then f x else x) := by
  refine ⟨_, rfl, fun x hx => ?_⟩
  split
  · rename_i hn
    rw [List.inj_on_of_nodup_map hd hx hst hn]
    exact hf
  · exact ⟨rfl, rfl, h x hx⟩

/-- A table recounted is as R3 lets it be when it was. -/
theorem TableSound.recounts {p : Port} {xs ys : List Station} (h : TableSound p xs) (k : Recounts xs ys) :
    TableSound p ys := by
  refine ⟨(tableStands_of_roles k.roles).trans h.stands, ?_, ?_, k.counts⟩
  all_goals
    obtain ⟨f, rfl, hf⟩ := k
    intro st hst
    obtain ⟨x, hx, rfl⟩ := List.mem_map.mp hst
    obtain ⟨hn, hr, -⟩ := hf x hx
  · rw [hn]; exact h.numbers x hx
  · rw [hr]; exact h.roles x hx

/-- A move of a port recounts its table, when no number stands twice in it. -/
theorem PortMove.recounts {ok : LineSettings → Prop} {a b : PortState} (m : PortMove ok a b)
    (hc : ∀ x ∈ a.stations, x.misses ≤ 3 ∧ x.skips ≤ 3) (hd : (a.stations.map Station.number).Nodup) :
    Recounts a.stations b.stations := by
  have same : b.stations = a.stations → Recounts a.stations b.stations := fun h => by rw [h]; exact .refl hc
  cases m
  case hold => exact same a.enterHold_quiet.stations
  case send hold => exact same (a.sendNext_sendsOnly hold).stations
  case visitOver => exact same (PortState.endVisit_pollsOnly { a with awaiting := false }).quiet.stations
  case broken _ => exact same (PortState.endVisit_pollsOnly { a with awaiting := false }).quiet.stations
  case passOn f => exact same (by unfold PortState.passOn; split <;> rfl)
  case seek n _ _ =>
    refine PortState.seek_ends (P := fun x => Recounts a.stations x.stations)
      (Q := fun x => Recounts a.stations x.stations) (fun x st h hst hs => ?_) (fun _ _ _ h => h) (fun _ h => h)
      (fun x st h => h.trans ⟨_, rfl, fun y hy => ?_⟩) n a (.refl hc)
    · have hm : st ∈ x.stations := List.mem_of_getElem? hst
      refine h.trans (.one h.counts (h.numbers ▸ hd) hm _ ⟨rfl, rfl, (h.counts st hm).1, ?_⟩)
      dsimp only
      omega
    · have := h.counts y hy
      split
      · exact ⟨rfl, rfl, this.1, by dsimp only; split <;> omega⟩
      · exact ⟨rfl, rfl, this⟩
  case answered n back =>
    refine ⟨_, rfl, fun x hx => ?_⟩
    have := hc x hx
    split
    · exact ⟨rfl, rfl, Nat.zero_le _, by dsimp only; split <;> omega⟩
    · exact ⟨rfl, rfl, this⟩
  case missed st hst hm =>
    have hs : st ∈ a.stations := List.mem_of_find?_eq_some hst
    refine .one hc hd hs _ ⟨rfl, rfl, ?_, (hc st hs).2⟩
    dsimp only
    omega
  case silenced n =>
    refine ⟨_, rfl, fun x hx => ?_⟩
    split
    · exact ⟨rfl, rfl, Nat.le_refl _, Nat.zero_le _⟩
    · exact ⟨rfl, rfl, hc x hx⟩
  case started _ => exact ⟨_, rfl, fun x hx => ⟨rfl, rfl, Nat.zero_le _, Nat.zero_le _⟩⟩
  all_goals exact same rfl

/-- What an entry of a LOAD_STATIONS keeps of the table that it is applied to, beside the other port's table. -/
structure Loadable (p : Port) (other sts : List Station) : Prop where
  numbers : ∀ st ∈ sts, 1 ≤ st.number ∧ st.number ≤ 126
  roles : ∀ st ∈ sts, allowsRole p st.role = true
  counts : ∀ st ∈ sts, st.misses ≤ 3 ∧ st.skips ≤ 3
  nodup : (sts.map Station.number).Nodup
  apart : ∀ st ∈ sts, ∀ x ∈ other, x.number ≠ st.number

theorem Loadable.remove {p : Port} {other sts : List Station} (h : Loadable p other sts) (q : Station → Bool) :
    Loadable p other (sts.filter q) where
  numbers := fun st hst => h.numbers st (List.mem_of_mem_filter hst)
  roles := fun st hst => h.roles st (List.mem_of_mem_filter hst)
  counts := fun st hst => h.counts st (List.mem_of_mem_filter hst)
  nodup := h.nodup.sublist (List.filter_sublist.map _)
  apart := fun st hst => h.apart st (List.mem_of_mem_filter hst)

/-- A station given a role, in place or at the end, where the other port has none of its number (R4). -/
theorem Loadable.giveRole {p : Port} {other sts : List Station} (h : Loadable p other sts) {n : Nat} {r : Role}
    (hn : 1 ≤ n ∧ n ≤ 126) (hr : allowsRole p r = true) (ho : ∀ x ∈ other, x.number ≠ n) :
    Loadable p other (giveRole n r sts) := by
  unfold Sys2Proof.Machine.giveRole
  split
  · have in' : ∀ st ∈ sts.map (fun st => if st.number = n then { st with role := r } else st),
        ∃ x ∈ sts, st.number = x.number ∧ (st.role = r ∨ st.role = x.role) ∧ st.misses = x.misses ∧ st.skips = x.skips := by
      intro st hst
      obtain ⟨x, hx, rfl⟩ := List.mem_map.mp hst
      refine ⟨x, hx, ?_⟩
      split
      · exact ⟨rfl, .inl rfl, rfl, rfl⟩
      · exact ⟨rfl, .inr rfl, rfl, rfl⟩
    refine ⟨fun st hst => ?_, fun st hst => ?_, fun st hst => ?_, ?_, fun st hst => ?_⟩
    · obtain ⟨x, hx, e, -⟩ := in' st hst; rw [e]; exact h.numbers x hx
    · obtain ⟨x, hx, -, e | e, -⟩ := in' st hst <;> rw [e]
      · exact hr
      · exact h.roles x hx
    · obtain ⟨x, hx, -, -, e⟩ := in' st hst; rw [e.1, e.2]; exact h.counts x hx
    · rw [List.map_map]
      have e : Station.number ∘ (fun st : Station => if st.number = n then { st with role := r } else st)
          = Station.number := by
        funext st; dsimp only [Function.comp]; split <;> rfl
      rw [e]
      exact h.nodup
    · obtain ⟨x, hx, e, -⟩ := in' st hst; rw [e]; exact h.apart x hx
  · rename_i hno
    have fresh : ∀ st ∈ sts, st.number ≠ n := fun st hst hx => hno (List.any_eq_true.mpr ⟨st, hst, by simpa using hx⟩)
    have one : ∀ P : Station → Prop, (∀ st ∈ sts, P st) → P ⟨n, r, .active, 0, 0⟩ →
        ∀ st ∈ sts ++ [⟨n, r, .active, 0, 0⟩], P st := fun P hs hx st hst =>
      (List.mem_append.mp hst).elim (hs st) fun hst => List.mem_singleton.mp hst ▸ hx
    refine ⟨one _ h.numbers hn, one _ h.roles hr, one _ h.counts ⟨Nat.zero_le _, Nat.zero_le _⟩, ?_, one _ h.apart ho⟩
    rw [List.map_append, List.nodup_append]
    refine ⟨h.nodup, List.nodup_singleton _, fun m hm k hk => ?_⟩
    obtain ⟨st, hst, rfl⟩ := List.mem_map.mp hm
    rw [List.mem_singleton.mp hk]
    exact fresh st hst

/-- An entry that is taken leaves a table that the next one may be applied to. -/
theorem Loadable.entry {p : Port} {other sts sts' : List Station} {pl : List Byte} {service : Bool} {off : Nat}
    (h : Loadable p other sts) (he : stationEntry pl p other service off sts = .ok sts') : Loadable p other sts' := by
  unfold stationEntry at he
  dsimp only at he
  split at he
  · cases he
  · rename_i hn
    split at he
    · cases he
    · (repeat' split at he) <;> cases he
      exact h.remove _
    · rename_i r _
      split at he
      · cases he
      · rename_i hr
        split at he
        · cases he
        · rename_i ho
          split at he
          · cases he
          · cases he
            refine h.giveRole (by omega) (by simpa using hr) fun x hx hxn => ?_
            exact ho (List.any_eq_true.mpr ⟨x, hx, by simpa using hxn⟩)

/-- Entries that are all taken keep what each of them keeps. -/
theorem applyEntries_keeps {α : Type} {f : Nat → α → Except Result α} {P : α → Prop}
    (hf : ∀ off a b, P a → f off a = .ok b → P b) (base size : Nat) : ∀ (k i : Nat) (a b : α), P a →
      applyEntries f base size k i a = .ok b → P b := by
  intro k
  induction k with
  | zero => intro i a b ha h; cases h; exact ha
  | succ k ih =>
    intro i a b ha h
    unfold applyEntries at h
    split at h
    · rename_i a' he
      exact ih _ _ _ (hf _ _ _ ha he) h
    · cases h

/-! ### Both tables -/

/-- Both tables as R3 lets them be, said of one port and the other. -/
theorem Line.tablesSound_iff (ln : Line) (p : Port) : ln.TablesSound ↔
    TableSound p (ln.port p).stations ∧ TableSound (otherPort p) (ln.port (otherPort p)).stations ∧
      ((ln.port p).stations.map Station.number).Nodup ∧ ((ln.port (otherPort p)).stations.map Station.number).Nodup ∧
      ∀ x ∈ (ln.port (otherPort p)).stations, ∀ y ∈ (ln.port p).stations, x.number ≠ y.number := by
  have apart : ∀ xs ys : List Station, ((xs ++ ys).map Station.number).Nodup ↔ (xs.map Station.number).Nodup ∧
      (ys.map Station.number).Nodup ∧ ∀ x ∈ xs, ∀ y ∈ ys, x.number ≠ y.number := fun xs ys => by
    rw [List.map_append, List.nodup_append]
    simp only [List.forall_mem_map]
  constructor
  · rintro ⟨hs, hg, hd⟩
    obtain ⟨ds, dg, da⟩ := (apart _ _).mp hd
    cases p
    · exact ⟨hs, hg, ds, dg, fun x hx y hy => (da y hy x hx).symm⟩
    · exact ⟨hg, hs, dg, ds, da⟩
  · rintro ⟨hp, ho, dp, dq, da⟩
    cases p
    · exact ⟨hp, ho, (apart _ _).mpr ⟨dp, dq, fun x hx y hy => (da y hy x hx).symm⟩⟩
    · exact ⟨ho, hp, (apart _ _).mpr ⟨dq, dp, da⟩⟩

theorem otherPort_ne (p : Port) : otherPort p ≠ p := by cases p <;> simp [otherPort]

/-- A change of one port that recounts its table keeps both tables as R3 lets them be. -/
theorem Line.TablesSound.recount {ln : Line} (h : ln.TablesSound) (p : Port) (f : PortState → PortState)
    (hf : (∀ x ∈ (ln.port p).stations, x.misses ≤ 3 ∧ x.skips ≤ 3) → ((ln.port p).stations.map Station.number).Nodup →
      Recounts (ln.port p).stations (f (ln.port p)).stations) : (ln.modPort p f).TablesSound := by
  obtain ⟨hp, ho, dp, dq, da⟩ := (ln.tablesSound_iff p).mp h
  have k := hf hp.counts dp
  rw [Line.tablesSound_iff _ p, Line.modPort_port, Line.modPort_port_other _ _ _ _ (otherPort_ne p), k.numbers]
  refine ⟨hp.recounts k, ho, dp, dq, fun x hx y hy => ?_⟩
  have : y.number ∈ (ln.port p).stations.map Station.number := by rw [← k.numbers]; exact List.mem_map_of_mem hy
  obtain ⟨z, hz, e⟩ := List.mem_map.mp this
  rw [← e]
  exact da x hx z hz

theorem Line.TablesSound.reload {ln : Line} (h : ln.TablesSound) {p : Port} {sts : List Station} (hr : ln.Reloads p sts) :
    (ln.modPort p fun ps => ps.reload sts).TablesSound := by
  obtain ⟨hp, ho, dp, dq, da⟩ := (ln.tablesSound_iff p).mp h
  obtain ⟨⟨pl, service, k, he⟩, hs⟩ := hr
  have l : Loadable p (ln.port (otherPort p)).stations sts :=
    applyEntries_keeps (fun off a b ha => ha.entry) 2 2 k 0 _ _
      ⟨hp.numbers, hp.roles, hp.counts, dp, fun st hst x hx => da x hx st hst⟩ he
  rw [Line.tablesSound_iff _ p, Line.modPort_port, Line.modPort_port_other _ _ _ _ (otherPort_ne p)]
  exact ⟨⟨hs, l.numbers, l.roles, l.counts⟩, ho, l.nodup, dq, fun x hx y hy => l.apart y hy x hx⟩

theorem Line.TablesSound.of_stations {a b : Line} (h : a.TablesSound) (hs : b.s.stations = a.s.stations)
    (hg : b.g.stations = a.g.stations) : b.TablesSound :=
  ⟨hs ▸ h.s, hg ▸ h.g, by rw [hs, hg]; exact h.distinct⟩

/-- Both station tables after a cold start (R24). -/
theorem Line.TablesSound.reset : Line.reset.TablesSound where
  s := ⟨by decide, by decide, by decide, by decide⟩
  g := ⟨by decide, by decide, by decide, by decide⟩
  distinct := by decide

theorem PortState.warm_recounts (a : PortState) : Recounts a.stations a.warm.stations :=
  ⟨_, rfl, fun _ _ => ⟨rfl, rfl, Nat.zero_le _, Nat.zero_le _⟩⟩

/-- Every move of the lines keeps both station tables as R3 lets them be. -/
theorem LineMove.tablesSound {ok : LineSettings → Prop} {a b : Line} (m : LineMove ok a b) (h : a.TablesSound) :
    b.TablesSound := by
  cases m
  case port p f m => exact h.recount p f m.recounts
  case queue p q _ => exact h.of_stations (a.enqueue_queuesOnly p q).stations_s (a.enqueue_queuesOnly p q).stations_g
  case warm =>
    have hs := h.recount .s PortState.warm fun _ _ => a.s.warm_recounts
    exact (hs.recount .g PortState.warm fun _ _ => a.g.warm_recounts).of_stations rfl rfl
  case cold => exact .reset
  case reload p sts hr => exact h.reload hr
  all_goals exact h.of_stations rfl rfl

/-- Tables as R3 lets them be are an invariant, whatever the line settings. -/
theorem tablesSound_invariant : LineInvariant (fun _ => True) Line.TablesSound :=
  ⟨fun _ _ => trivial, fun _ _ _ _ => trivial, fun _ _ _ _ _ _ => trivial, fun _ _ h m => m.tablesSound h⟩

/-- Settles O5: every move of the lines keeps the tables, and a step is a row of moves. -/
theorem tablesStaySound : Obligations.TablesStaySound := fun _ _ h ht => step_keeps tablesSound_invariant h ht

/-! ### Line settings (R2) -/

/-- The settings that a SET_LINE loads are clamped into the ranges of R2. -/
theorem lineValues_inRange (pl : List Byte) (par : Parity) : (lineValues pl par).InRange where
  prescale := by
    have := Nat.mod_lt (u8 pl 1) (show 0 < 2 ^ 3 by decide)
    show low8 pl 1 3 ≤ 7
    unfold low8
    omega
  divisor := Nat.min_le_right _ _
  windowLow := by show 4 ≤ clamp 4 64 (u8 pl 4); unfold clamp; split <;> [omega; (split <;> omega)]
  windowHigh := by show clamp 4 64 (u8 pl 4) ≤ 64; unfold clamp; split <;> [omega; (split <;> omega)]

theorem Mark.inRange_of {m : Mark} (h : ∀ r, m = .lineReply r → r.settings.InRange) : m.InRange := by
  cases m
  case lineReply r => exact h r rfl
  all_goals trivial

/-- Settings in use, queued and sent, of a port that has at most given frames up. -/
theorem PortState.SettingsInRange.of_less {a b : PortState} (h : a.SettingsInRange) (hn : b.settings = a.settings)
    (hq : ∀ q ∈ b.ownQueue, q ∈ a.ownQueue) (hs : ∀ q, b.sending = some q → q.mark.InRange) : b.SettingsInRange :=
  ⟨hn ▸ h.now, fun q hx => h.queued q (hq q hx), hs⟩

theorem PortState.SettingsInRange.sendNext {a : PortState} (h : a.SettingsInRange) (hold : Bool) :
    (a.sendNext hold).SettingsInRange := by
  rcases a.sendNext_cases hold with e | ⟨-, e | ⟨left, -, ⟨q, own, k, ho, -, e⟩ | ⟨f, rest, -, e⟩⟩⟩ <;> rw [e]
  · exact h
  · exact h.of_less rfl (fun _ hx => hx) h.sent
  · exact h.of_less rfl (fun x hx => ho ▸ List.mem_cons_of_mem q hx) fun x hx => by
      cases hx; exact h.queued q (ho ▸ List.mem_cons_self)
  · exact h.of_less rfl (fun _ hx => hx) fun x hx => by cases hx; trivial

/-- Every move of a port that brings in settings in range keeps all its settings in range. -/
theorem PortMove.settingsInRange {a b : PortState} (m : PortMove LineSettings.InRange a b) (h : a.SettingsInRange) :
    b.SettingsInRange := by
  have polls : ∀ {a b : PortState}, PollsOnly a b → a.SettingsInRange → b.SettingsInRange := fun e h => by
    rw [e.eq]; exact h.of_less rfl (fun _ hx => hx) h.sent
  cases m
  case hold => exact (polls a.cutVisit_pollsOnly h).of_less rfl (fun _ hx => hx) (polls a.cutVisit_pollsOnly h).sent
  case send hold => exact h.sendNext hold
  case seek n _ _ =>
    exact PortState.seek_ends (P := PortState.SettingsInRange) (fun a st h _ _ => h.of_less rfl (fun _ hx => hx) h.sent)
      (fun a _ _ h => h.of_less rfl (fun _ hx => hx) h.sent) (fun _ h => h)
      (fun a st h => h.of_less rfl (fun _ hx => hx) h.sent) n a h
  case sent => exact h.of_less rfl (fun _ hx => hx) fun _ hx => nomatch hx
  case visitOver =>
    exact polls (PortState.endVisit_pollsOnly { a with awaiting := false }) (h.of_less rfl (fun _ hx => hx) h.sent)
  case broken _ =>
    have k := polls (PortState.endVisit_pollsOnly { a with awaiting := false }) (h.of_less rfl (fun _ hx => hx) h.sent)
    exact k.of_less rfl (fun _ hx => hx) k.sent
  case passOn f =>
    unfold PortState.passOn
    split <;> exact h.of_less rfl (fun _ hx => hx) h.sent
  case settings x hx => exact ⟨hx, h.queued, h.sent⟩
  all_goals exact h.of_less rfl (fun _ hx => hx) h.sent

theorem mem_of_mem_dropOldestAlert {qs : List QFrame} {q : QFrame} (h : q ∈ dropOldestAlert qs) : q ∈ qs := by
  induction qs with
  | nil => cases h
  | cons x rest ih =>
    unfold dropOldestAlert at h
    split at h
    · exact List.mem_cons_of_mem _ h
    · exact (List.mem_cons.mp h).elim (fun e => e ▸ List.mem_cons_self) fun h => List.mem_cons_of_mem _ (ih h)

/-- What an own queue may hold after a frame has been offered to it. -/
theorem Line.mem_enqueue {ln : Line} {p p' : Port} {q x : QFrame} (h : x ∈ ((ln.enqueue p q).port p').ownQueue) :
    x = q ∨ x ∈ (ln.port p').ownQueue := by
  have last : ∀ qs : List QFrame, x ∈ qs ++ [q] → x = q ∨ x ∈ qs := fun qs hx =>
    (List.mem_append.mp hx).elim .inr fun hx => .inl (List.mem_singleton.mp hx)
  by_cases ht : ln.takes p q.frame.kind = true
  · unfold Line.enqueue at h
    rw [if_pos ht] at h
    cases p
    · dsimp only at h
      split at h
      · cases p'
        · exact last _ h
        · exact .inr h
      · cases p'
        · exact (last _ h).imp_right mem_of_mem_dropOldestAlert
        · exact .inr h
    · cases p'
      · exact .inr h
      · exact last _ h
  · unfold Line.enqueue at h
    rw [if_neg ht] at h
    exact .inr (by cases p' <;> exact h)

theorem Line.SettingsInRange.enqueue {ln : Line} (h : ln.SettingsInRange) (p : Port) (q : QFrame) (hq : q.mark.InRange) :
    (ln.enqueue p q).SettingsInRange := by
  have e := (ln.enqueue_queuesOnly p q).eq
  have hs : ∀ x ∈ (ln.enqueue p q).s.ownQueue, x.mark.InRange := fun x hx =>
    (Line.mem_enqueue (p' := .s) hx).elim (fun e => e ▸ hq) (h.s.queued x)
  have hg : ∀ x ∈ (ln.enqueue p q).g.ownQueue, x.mark.InRange := fun x hx =>
    (Line.mem_enqueue (p' := .g) hx).elim (fun e => e ▸ hq) (h.g.queued x)
  rw [e]
  exact ⟨⟨h.s.now, hs, h.s.sent⟩, ⟨h.g.now, hg, h.g.sent⟩, h.due⟩

theorem PortState.SettingsInRange.warm {a : PortState} (h : a.SettingsInRange) : a.warm.SettingsInRange :=
  ⟨h.now, (fun _ hx => nomatch hx), fun _ hx => nomatch hx⟩

/-- The line settings of a cold start (R24). -/
theorem Line.SettingsInRange.reset : Line.reset.SettingsInRange := by
  have now : LineSettings.reset.InRange := ⟨by decide, by decide, by decide, by decide⟩
  exact ⟨⟨now, (fun _ h => nomatch h), fun _ h => nomatch h⟩, ⟨now, (fun _ h => nomatch h), fun _ h => nomatch h⟩,
    fun _ h => nomatch h⟩

/-- Every move of the lines that brings in settings in range keeps all settings in range. -/
theorem LineMove.settingsInRange {a b : Line} (m : LineMove LineSettings.InRange a b) (h : a.SettingsInRange) :
    b.SettingsInRange := by
  cases m
  case port p f m =>
    cases p
    · exact ⟨m.settingsInRange h.s, h.g, h.due⟩
    · exact ⟨h.s, m.settingsInRange h.g, h.due⟩
  case queue p q hq => exact h.enqueue p q (Mark.inRange_of hq)
  case lose => exact ⟨h.s, h.g, h.due⟩
  case wait r hr =>
    exact ⟨h.s, h.g, fun x hx => (List.mem_append.mp hx).elim (h.due x) fun hx => List.mem_singleton.mp hx ▸ hr⟩
  case due => exact ⟨h.s, h.g, fun _ hx => nomatch hx⟩
  case off => exact ⟨h.s, ⟨h.g.now, (fun _ hx => nomatch hx), fun _ hx => nomatch hx⟩, h.due⟩
  case pass t _ => exact ⟨h.s, h.g, h.due⟩
  case clear =>
    exact ⟨h.s.of_less rfl (fun _ hx => hx) h.s.sent, h.g.of_less rfl (fun _ hx => hx) h.g.sent, h.due⟩
  case warm => exact ⟨h.s.warm, h.g.warm, fun _ hx => nomatch hx⟩
  case cold => exact .reset
  case reload p sts _ =>
    cases p
    · exact ⟨h.s.of_less rfl (fun _ hx => hx) h.s.sent, h.g, h.due⟩
    · exact ⟨h.s, h.g.of_less rfl (fun _ hx => hx) h.g.sent, h.due⟩

/-- Settings in the ranges of R2 are an invariant. -/
theorem settingsInRange_invariant : LineInvariant LineSettings.InRange Line.SettingsInRange :=
  ⟨lineValues_inRange, fun _ h => h.due,
    fun ln h p f r hs => by cases p; exacts [h.s.sent ⟨f, .lineReply r⟩ hs, h.g.sent ⟨f, .lineReply r⟩ hs],
    fun _ _ h m => m.settingsInRange h⟩

/-- Settles O6: the settings loaded are clamped, every move keeps those that are there, and a step is a row of moves. -/
theorem lineSettingsStayInRange : Obligations.LineSettingsStayInRange := fun _ _ h ht =>
  step_keeps settingsInRange_invariant h ht

end Sys2Proof.Machine

namespace Sys2Proof.Machine

/-! ### The cold start -/

/-- The settings of the garage after a cold start are in range. -/
theorem Garage.SettingsInRange.reset : Garage.reset.SettingsInRange where
  weights := ⟨by decide, by decide, by decide, by decide, by decide, by decide⟩
  limits := ⟨by decide, by decide, by decide, by decide, by decide⟩
  floor := by decide
  podium := by decide
  park := by decide
  move := by decide
  pickup := by decide
  hold := by decide
  laneA := by decide
  laneB := by decide
  cabinet := by decide
  seconds := by decide
  minute := by decide
  inMinute := by decide

/-- A lift unit after a cold start is OFFLINE with nothing in flight and nothing in doubt (R144). -/
theorem LiftUnit.Sound.reset : LiftUnit.reset.Sound where
  moving := by decide
  timer := by decide
  oneMove := by decide
  doubt := by decide
  pending := by decide
  stopped := by decide
  number := by decide

/-- Settles O9: the cold start meets each invariant by its own lemma. -/
theorem resetIsSound : Obligations.ResetIsSound :=
  ⟨.reset, .reset, .reset, .reset, .reset, .reset⟩

/-- The table of runners of a start holds a runner under each number up to its length (R160). -/
theorem find_numbered {α : Type} (v : α) {n k first : Nat} (h1 : first + 1 ≤ n) (h2 : n ≤ first + k) :
    Table.find ((List.range' first k).map fun i => (i + 1, v)) n = some v := by
  induction k generalizing first with
  | zero => omega
  | succ k ih =>
    rw [List.range'_succ, List.map_cons, Table.find]
    split
    · rfl
    · exact ih (by omega) (by omega)

/-- Settles O3: each value is read off the reset state; the runners are found under their numbers. -/
theorem resetValues : Obligations.ResetValues := by
  have runners : ∀ n, 1 ≤ n → n ≤ 32 → resetRunners.find n = some Runner.reset := fun n h1 h2 => by
    unfold resetRunners
    rw [List.range_eq_range']
    exact find_numbered Runner.reset (by omega) (by omega)
  refine ⟨by decide, by decide, ?_, ?_, runners⟩
  · intro u hu
    simp only [List.mem_cons, List.not_mem_nil, or_false] at hu
    rcases hu with rfl | rfl <;> decide
  · intro c hc
    simp only [List.mem_cons, List.not_mem_nil, or_false] at hc
    rcases hc with rfl | rfl <;> decide

end Sys2Proof.Machine

namespace Sys2Proof.Machine

/-! ### Characters bit by bit (R1) -/

/-- Whether a list of bits holds an odd number of ones. -/
theorem foldl_xor_odd (bits : List Bool) (acc : Bool) :
    bits.foldl xor acc = decide (((acc :: bits).filter id).length % 2 = 1) := by
  induction bits generalizing acc with
  | nil => cases acc <;> rfl
  | cons b rest ih =>
    rw [List.foldl_cons, ih]
    have h := Nat.mod_two_eq_zero_or_one (rest.filter id).length
    cases acc <;> cases b <;> (simp; try omega)

/-- The data bits of a character, the least significant first. -/
def dataBits (b : Byte) : List Bool := (List.range 8).map b.getLsbD

theorem oddOnes_eq (b : Byte) : oddOnes b = decide (((dataBits b).filter id).length % 2 = 1) := by
  have h := foldl_xor_odd (dataBits b) false
  rw [dataBits, List.foldl_map] at h
  exact h

theorem charBits_eq (par : Parity) (b : Byte) :
    charBits par b = false :: dataBits b ++ (if par = .none then [] else [parityBit par b]) ++ [true] := rfl

theorem byteOfBits_getLsbD (bits : List Bool) (i : Nat) (hi : i < 8) : (byteOfBits bits).getLsbD i = bits.getD i false := by
  induction bits generalizing i with
  | nil => simp [byteOfBits]
  | cons b rest ih =>
    have e : byteOfBits (b :: rest) = byteOfBits rest <<< 1 ||| (if b then 1 else 0) := rfl
    rw [e, BitVec.getLsbD_or, BitVec.getLsbD_shiftLeft]
    cases i with
    | zero => cases b <;> simp
    | succ i =>
      have := ih i (by omega)
      have h1 : (if b then 1 else 0 : Byte).getLsbD (i + 1) = false := by
        cases b
        · simp
        · simp [BitVec.getLsbD_one]
      rw [h1, Bool.or_false]
      simpa [hi] using this

theorem byteOfBits_dataBits (b : Byte) : byteOfBits (dataBits b) = b := by
  apply BitVec.eq_of_getLsbD_eq
  intro i hi
  rw [byteOfBits_getLsbD _ _ hi]
  simp [dataBits, List.getD_eq_getElem?_getD, hi]

theorem dataBits_length (b : Byte) : (dataBits b).length = 8 := by simp [dataBits]

theorem charBits_length (par : Parity) (b : Byte) : (charBits par b).length = bitsPerChar par := by
  rw [charBits_eq]
  cases par <;> simp [dataBits_length, bitsPerChar]

/-- A port at the parity of the sender samples the character that was sent. -/
theorem sampledChar_charBits (par : Parity) (b : Byte) : sampledChar par (charBits par b) = some (sentChar par b) := by
  have hd : ((charBits par b).drop 1).take 8 = dataBits b := by
    rw [charBits_eq, List.append_assoc]
    exact List.take_left' (dataBits_length b)
  have hh : (charBits par b).head? = some false := rfl
  unfold sampledChar
  rw [if_pos ⟨charBits_length par b, hh⟩, hd, byteOfBits_dataBits]
  cases par <;> simp [sentChar, charBits_eq, parityBit, dataBits, List.range_succ]

theorem sampledChars (par : Parity) (bytes : List Byte) :
    (bytes.map (charBits par)).mapM (sampledChar par) = some (bytes.map (sentChar par)) := by
  induction bytes with
  | nil => rfl
  | cons b rest ih => simp [List.mapM_cons, sampledChar_charBits, ih]

/-! ### The receive checks (R7 to R11) -/

theorem frameBody_length (f : Frame) : (frameBody f).length = f.payload.length + 6 := by simp [frameBody]

theorem frameChars_length (f : Frame) : (frameChars f).length = f.payload.length + 8 := by
  simp [frameChars, frameBody_length, checkChars]

/-- What the receive checks make of a frame that reaches its last character (R9, R10). -/
theorem receiveChars_frame (par : Parity) (f : Frame) (chars : List RxChar) (check : List Byte)
    (hl : f.payload.length ≤ 48) (h2 : check.length = 2) (hd : chars.map RxChar.data = frameBody f ++ check) :
    receiveChars par chars = if (∃ c ∈ chars, parityFault par c = true ∨ stopFault c = true) ∨ check ≠ checkChars (frameBody f)
      then .discarded else .accepted f := by
  have hlen : chars.length = f.payload.length + 8 := by
    have := congrArg List.length hd
    rwa [List.length_map, List.length_append, frameBody_length, h2] at this
  have h5 : (BitVec.ofNat 8 f.payload.length).toNat = f.payload.length := by
    rw [BitVec.toNat_ofNat]; omega
  have hfield : (((frameBody f ++ check).getD 5 0)).toNat = f.payload.length := h5
  have hhead : (frameBody f ++ check).head? = some leadChar := rfl
  have htake : (frameBody f ++ check).take (f.payload.length + 6) = frameBody f :=
    List.take_left' (frameBody_length f)
  have hdrop : ((frameBody f ++ check).drop (f.payload.length + 6)).take 2 = check := by
    rw [List.drop_left' (frameBody_length f), ← h2, List.take_length]
  have hpay : ((frameBody f ++ check).drop 6).take f.payload.length = f.payload := List.take_left' rfl
  have hall : chars.take (f.payload.length + 8) = chars := by rw [← hlen, List.take_length]
  unfold receiveChars
  dsimp only
  rw [hd, hfield, if_neg (by simp [hhead]), if_neg (by omega), if_neg (by omega), if_neg (by omega), hall, htake, hdrop, hpay]
  by_cases hf : ∃ c ∈ chars, parityFault par c = true ∨ stopFault c = true
  · rw [if_pos (by simpa using hf), if_pos (.inl hf)]
  · rw [if_neg (by simpa using hf)]
    by_cases hc : check = checkChars (frameBody f)
    · rw [if_neg (by simp [hc]), if_neg (by simp [hf, hc])]
      rfl
    · rw [if_pos hc, if_pos (.inr hc)]

theorem sentChar_faultless (par : Parity) (b : Byte) :
    parityFault par (sentChar par b) = false ∧ stopFault (sentChar par b) = false := by
  simp [parityFault, stopFault, sentChar]

theorem map_data_sent (par : Parity) (bytes : List Byte) : (bytes.map (sentChar par)).map RxChar.data = bytes := by
  rw [List.map_map]
  exact List.map_id bytes

/-- A frame received as it was sent is accepted. -/
theorem receiveChars_sent (par : Parity) (f : Frame) (hl : f.payload.length ≤ 48) :
    receiveChars par ((frameChars f).map (sentChar par)) = .accepted f := by
  rw [receiveChars_frame par f ((frameChars f).map (sentChar par)) (checkChars (frameBody f)) hl rfl (map_data_sent par _),
    if_neg]
  rintro (⟨c, hc, hf⟩ | h)
  · obtain ⟨b, -, rfl⟩ := List.mem_map.mp hc
    simp [sentChar_faultless] at hf
  · exact h rfl

theorem decodeAnswer_of_ne {par : Parity} {p : Port} {st : Nat} {role : Role} {chars : List RxChar} (h : chars ≠ []) :
    decodeAnswer par p st role chars = match receiveChars par chars with
      | .accepted f => acceptedAnswer p st role f
      | .discarded => .frameDiscarded p
      | .cutShort => .idleTimeEnd p := by
  unfold decodeAnswer
  rw [if_neg (by simpa using h)] <;> rfl

/-- A frame received as it was sent makes the command of an accepted answer. -/
theorem decodeAnswer_sent (par : Parity) (p : Port) (st : Nat) (role : Role) (f : Frame) (hl : f.payload.length ≤ 48) :
    decodeAnswer par p st role ((frameChars f).map (sentChar par)) = acceptedAnswer p st role f := by
  have hne : (frameChars f).map (sentChar par) ≠ [] := by simp [frameChars, frameBody]
  rw [decodeAnswer_of_ne hne, receiveChars_sent par f hl]

/-! ### Answers and commands -/

/-- The frame by which a station makes a frame command (R191, R195). -/
theorem answerFrame_frameCommand {p : Port} {kind flags : Byte} {pl : List Byte} {c : Instr} (st : Nat)
    (h : frameCommand p kind flags pl = some c) : answerFrame st c = some ⟨127, BitVec.ofNat 8 st, kind, flags, pl⟩ := by
  have hk : BitVec.ofNat 8 kind.toNat = kind := by simp
  unfold frameCommand at h
  split at h <;> first | (cases h; done) | skip
  all_goals
    rename_i hn
    rw [hn] at hk
    cases h
    cases hk
    rfl

/-- No role permits EMPTY as a kind to the part (R6, R21). -/
theorem permits_empty (r : Role) : permits r Kind.empty = false := by cases r <;> decide

/-- What an accepted answer of the polled station to the part makes, by its role (R21). -/
theorem acceptedAnswer_toPart (p : Port) {st : Nat} (role : Role) (kind flags : Byte) (pl : List Byte) (hs : st ≤ 126)
    (hk : kind ≠ Kind.empty) : acceptedAnswer p st role ⟨127, BitVec.ofNat 8 st, kind, flags, pl⟩ =
      if permits role kind then (frameCommand p kind flags pl).getD (.unknownKind p kind flags pl)
      else .unknownKind p kind flags pl := by
  have hn : (BitVec.ofNat 8 st).toNat = st := by rw [BitVec.toNat_ofNat]; omega
  unfold acceptedAnswer
  rw [if_neg (by simp [hn]), if_neg hk, if_neg (by simp)]

/-- Settles O10: a frame received as it was sent is accepted, and an accepted answer makes its command. -/
theorem answerRoundTrip : Obligations.AnswerRoundTrip := by
  intro par p st role _ h126
  have round : ∀ (c : Instr) (f : Frame), answerFrame st c = some f → f.payload.length ≤ 48 →
      (encodeAnswer par st c).map (decodeAnswer par p st role) = some (acceptedAnswer p st role f) := fun c f hf hl => by
    unfold encodeAnswer
    rw [hf, Option.map_some, Option.map_some, decodeAnswer_sent par p st role f hl]
  have hn : (BitVec.ofNat 8 st).toNat = st := by rw [BitVec.toNat_ofNat]; omega
  refine ⟨fun kind flags pl c hl hp hc => ?_, fun kind flags pl hl hp hk => ?_, fun f hs hd hk hl => ?_, ?_⟩
  · have hk : kind ≠ Kind.empty := fun e => by rw [e, permits_empty] at hp; cases hp
    rw [round c _ (answerFrame_frameCommand st hc) hl, acceptedAnswer_toPart p role kind flags pl h126 hk, if_pos hp, hc]
    rfl
  · rw [round _ _ rfl hl, acceptedAnswer_toPart p role kind flags pl h126 hk, hp]
    rfl
  · rw [round _ f rfl hl]
    unfold acceptedAnswer
    rw [if_neg (by simp [hs]), if_neg hk, if_pos hd]
  · rw [round (.empty p) ⟨127, BitVec.ofNat 8 st, Kind.empty, 0, []⟩ rfl (Nat.zero_le 48)]
    unfold acceptedAnswer
    rw [if_neg (by simp [hn]), if_pos rfl]

/-- What does not open with the lead, or gives a length above 48, or is too short for its length ends with the idle time
(R11). -/
theorem receiveChars_cutShort (par : Parity) (chars : List RxChar)
    (h : (chars.map RxChar.data).head? ≠ some leadChar ∨ chars.length < 6 ∨ 48 < ((chars.map RxChar.data).getD 5 0).toNat ∨
      chars.length < ((chars.map RxChar.data).getD 5 0).toNat + 8) : receiveChars par chars = .cutShort := by
  unfold receiveChars
  dsimp only
  split
  · rfl
  · rename_i h1
    rcases h with h | h | h | h
    · exact absurd h h1
    · rw [if_pos h]
    · (repeat' split) <;> rfl
    · (repeat' split) <;> rfl

/-- Settles O11: a character by its bits, and each outcome of the receive checks by the first test that a frame fails. -/
theorem receiveChecks : Obligations.ReceiveChecks := by
  refine ⟨fun par b => ?_, fun ps p st f => ?_, fun par p st role => ?_⟩
  · have hodd := oddOnes_eq b
    have hm := Nat.mod_two_eq_zero_or_one ((dataBits b).filter id).length
    refine ⟨rfl, ⟨parityBit .even b, rfl, ?_⟩, ⟨parityBit .odd b, rfl, ?_⟩, ?_, sampledChar_charBits par b⟩
    · show ((dataBits b ++ [oddOnes b]).filter id).length % 2 = 0
      rcases hm with hm | hm <;> (simp [List.filter_append, hodd, hm]; try omega)
    · show ((dataBits b ++ [!oddOnes b]).filter id).length % 2 = 1
      rcases hm with hm | hm <;> (simp [List.filter_append, hodd, hm]; try omega)
    · rw [charBits_length]; cases par <;> rfl
  · refine ⟨fun v ha hv => ?_, fun m ha hs => ?_, fun hp => ?_, fun ha chars => ?_⟩
    · simp [PortState.lineBits, PortState.onLine, ha, hv]
    · simp [PortState.lineBits, PortState.onLine, ha, hs]
    · unfold PortState.sampledCommand PortState.answerCommand
      rw [sampledChars, Option.bind_some, hp]
    · have hn : ps.polled = none := by
        cases h : ps.polled with
        | none => rfl
        | some st => rw [PortState.polled_awaiting h] at ha; cases ha
      unfold PortState.answerCommand
      rw [hn, ha]
      rfl
  · have cut : ∀ chars : List RxChar, chars ≠ [] → receiveChars par chars = .cutShort →
        decodeAnswer par p st role chars = .idleTimeEnd p := fun chars hne h => by
      rw [decodeAnswer_of_ne hne, h]
    have discarded : ∀ (f : Frame) (chars : List RxChar) (check : List Byte), f.payload.length ≤ 48 → check.length = 2 →
        chars.map RxChar.data = frameBody f ++ check →
        (∃ c ∈ chars, parityFault par c = true ∨ stopFault c = true) ∨ check ≠ checkChars (frameBody f) →
        decodeAnswer par p st role chars = .frameDiscarded p := fun f chars check hl h2 hd h => by
      have hne : chars ≠ [] := fun e => by rw [e] at hd; exact absurd hd (by simp [frameBody])
      rw [decodeAnswer_of_ne hne, receiveChars_frame par f chars check hl h2 hd, if_pos h]
    refine ⟨rfl, fun f chars hl hd h => discarded f chars _ hl rfl hd (.inl h),
      fun f chars hi lo hl hd h => discarded f chars _ hl rfl hd (.inr h), fun c rest hc => ?_, fun chars h6 h48 => ?_,
      fun f k hl h0 hk => ?_, fun f hl hs => ?_⟩
    · exact cut _ (by simp) (receiveChars_cutShort par _ (.inl fun h => hc (Option.some.inj h)))
    · exact cut _ (fun e => by rw [e] at h6; cases h6) (receiveChars_cutShort par _ (.inr (.inr (.inl h48))))
    · have hlen : (((frameChars f).take k).map (sentChar par)).length = k := by
        rw [List.length_map, List.length_take, frameChars_length]; omega
      refine cut _ (fun e => by rw [e] at hlen; simp at hlen; omega) (receiveChars_cutShort par _ (.inr ?_))
      rw [hlen, map_data_sent]
      by_cases h6 : k < 6
      · exact .inl h6
      · have h5 : ((frameChars f).take k).getD 5 0 = BitVec.ofNat 8 f.payload.length := by
          rw [List.getD_eq_getElem?_getD, List.getElem?_take_of_lt (by omega)]
          rfl
        rw [h5, BitVec.toNat_ofNat]
        exact .inr (.inr (by omega))
    · rw [decodeAnswer_sent par p st role f hl]
      unfold acceptedAnswer
      rw [if_pos hs]

end Sys2Proof.Machine

namespace Sys2Proof.Machine

/-! ### Ports under a hold -/

theorem State.enterHold_port (s : State) (p : Port) :
    s.enterHold.port p = if s.line.pollHold then (s.port p).enterHold else s.port p := by
  unfold State.enterHold
  cases p <;> split <;> rfl

theorem State.sendNext_port (s : State) (p q : Port) : (s.sendNext p).port q =
    if q = p then (s.enterHold.port p).sendNext s.line.pollHold else s.enterHold.port q := by
  unfold State.sendNext
  split
  · rename_i h; rw [h, State.modPort_port]
  · rename_i h; rw [State.modPort_port_other _ _ _ _ h]

/-! ### A port whose visit has ended -/

/-- A port without a visit whose poll position stays where it is. -/
structure PortState.StaysUnvisited (a b : PortState) : Prop where
  visit : b.visit = none
  pollPos : b.pollPos = a.pollPos
  cyclePolled : b.cyclePolled = a.cyclePolled

theorem PortState.StaysUnvisited.trans {a b c : PortState} (h : a.StaysUnvisited b) (k : b.StaysUnvisited c) :
    a.StaysUnvisited c := ⟨k.visit, k.pollPos.trans h.pollPos, k.cyclePolled.trans h.cyclePolled⟩

theorem PortState.enterHold_unvisited {a : PortState} (h : a.visit = none) : a.StaysUnvisited a.enterHold := by
  unfold PortState.enterHold PortState.cutVisit
  rw [h]
  exact ⟨h, rfl, rfl⟩

theorem PortState.sendNext_unvisited {a : PortState} (hold : Bool) (h : a.visit = none) :
    a.StaysUnvisited (a.sendNext hold) := by
  rcases a.sendNext_cases hold with e | ⟨-, e | ⟨left, -, ⟨q, own, k, -, -, e⟩ | ⟨f, rest, -, e⟩⟩⟩ <;> rw [e] <;>
    exact ⟨h, rfl, rfl⟩

theorem State.enterHold_unvisited {s : State} {p : Port} (h : (s.port p).visit = none) :
    (s.port p).StaysUnvisited (s.enterHold.port p) := by
  rw [State.enterHold_port]
  split
  · exact PortState.enterHold_unvisited h
  · exact ⟨h, rfl, rfl⟩

theorem State.sendNext_unvisited {s : State} {p : Port} (q : Port) (h : (s.port p).visit = none) :
    (s.port p).StaysUnvisited ((s.sendNext q).port p) := by
  have k := State.enterHold_unvisited h
  rw [State.sendNext_port]
  split
  · rename_i e
    subst e
    exact k.trans (PortState.sendNext_unvisited _ k.visit)
  · exact k

theorem State.beginTurn_unvisited {s : State} {p : Port} (h : (s.port p).visit = none) :
    (s.port p).StaysUnvisited ((s.beginTurn p).port p) := by
  have k : (s.port p).StaysUnvisited ((s.modPort p fun ps => { ps with turnLeft := 2 }).port p) := by
    rw [State.modPort_port]
    exact ⟨h, rfl, rfl⟩
  exact k.trans (State.sendNext_unvisited p k.visit)

theorem State.underHold_unvisited {s : State} {p : Port} (h : (s.port p).visit = none) :
    (s.port p).StaysUnvisited (s.underHold.port p) := by
  unfold State.underHold
  split
  · have k := State.sendNext_unvisited .s h
    exact k.trans (State.sendNext_unvisited .g k.visit)
  · exact ⟨h, rfl, rfl⟩

/-! ### The end of a visit (R4 to R6) -/

/-- The poll position moved on from a station, when it points there, and a new cycle after the last entry (R5, R6). -/
structure PortState.MovedOn (a : PortState) (n : Nat) (b : PortState) : Prop where
  pollPos : b.pollPos = if a.stations[a.pollPos]?.map Station.number = some n
    then (if a.stations.length ≤ a.pollPos + 1 then 0 else a.pollPos + 1) else a.pollPos
  cyclePolled : b.cyclePolled = if a.stations[a.pollPos]?.map Station.number = some n ∧ a.stations.length ≤ a.pollPos + 1
    then false else a.cyclePolled

/-- Where the poll position points and what follows it are read from the numbers of the stations alone. -/
theorem PortState.MovedOn.of_numbers {a a' b : PortState} {n : Nat} (h : a'.MovedOn n b)
    (hn : a'.stations.map Station.number = a.stations.map Station.number) (hp : a'.pollPos = a.pollPos)
    (hc : a'.cyclePolled = a.cyclePolled) : a.MovedOn n b := by
  have hl : a'.stations.length = a.stations.length := by
    rw [← List.length_map (f := Station.number), hn, List.length_map]
  have hi : a'.stations[a.pollPos]?.map Station.number = a.stations[a.pollPos]?.map Station.number := by
    rw [← List.getElem?_map, hn, List.getElem?_map]
  obtain ⟨h1, h2⟩ := h
  rw [hp, hi, hl] at h1
  rw [hp, hi, hl, hc] at h2
  exact ⟨h1, h2⟩

theorem PortState.MovedOn.stays {a b c : PortState} {n : Nat} (h : a.MovedOn n b) (k : b.StaysUnvisited c) : a.MovedOn n c :=
  ⟨k.pollPos.trans h.pollPos, k.cyclePolled.trans h.cyclePolled⟩

theorem PortState.endVisit_movedOn {a : PortState} {v : Visit} (hv : a.visit = some v) (hr : v.removed = false) :
    a.MovedOn v.station a.endVisit := by
  unfold PortState.endVisit PortState.advance
  rw [hv]
  by_cases ha : a.stations[a.pollPos]?.map Station.number = some v.station
  · by_cases hl : a.pollPos + 1 < a.stations.length
    · have hl' : ¬ a.stations.length ≤ a.pollPos + 1 := by omega
      constructor <;> simp [hr, ha, hl, hl']
    · have hl' : a.stations.length ≤ a.pollPos + 1 := by omega
      constructor <;> simp [hr, ha, hl, hl']
  · constructor <;> simp [ha]

/-- The end of the visit to a removed station leaves the poll position where the removal has moved it (R4). -/
theorem PortState.endVisit_removed {a : PortState} {v : Visit} (hv : a.visit = some v) (hr : v.removed = true) :
    a.endVisit = { a with visit := none } := by
  unfold PortState.endVisit
  rw [hv]
  simp [hr]

/-! ### The end of an exchange (R5, R6, R17) -/

theorem State.applyDue_nothing {s : State} {p : Port} (h : NothingDue s p) : s.applyDue p = s := by
  cases p
  · rfl
  · have hd : s.line.lineDueG = [] := h rfl
    unfold State.applyDue
    rw [hd, List.foldl_nil, ← hd]

/-- An exchange without MORE ends its visit, and the port takes its send turn. -/
theorem State.finishExchange_over {s : State} {p : Port} (h : (s.port p).awaiting = true) (hd : NothingDue s p) :
    s.finishExchange p false = (s.modPort p fun ps => ps.deaf.endVisit).beginTurn p := by
  have hq : ∀ f, NothingDue (s.modPort p f) p := fun f => by cases p <;> exact hd
  unfold State.finishExchange
  dsimp only
  rw [if_pos h]
  cases (s.port p).visit <;> simp only [Bool.false_and, Bool.false_eq_true, if_false] <;>
    rw [State.applyDue_nothing (hq _)] <;> rfl

theorem State.finishExchange_lineQuiet (s : State) (p : Port) (more : Bool) (h : (s.port p).awaiting = true)
    (hd : NothingDue s p) : LineQuiet (s.modPort p PortState.deaf) (s.finishExchange p more) := by
  cases p
  · exact s.finishExchange_s more h
  · exact s.finishExchange_g more h (hd rfl)

end Sys2Proof.Machine

namespace Sys2Proof.Machine

/-! ### An answer's own effects, before its exchange ends -/

/-- What the work on an answer leaves of the lines: it may change the stations of its port, and frames join the own queues. -/
structure Answering (p : Port) (u w : State) (sts : List Station) : Prop where
  powered : w.powered = u.powered
  storeHeld : w.storeHeld = u.storeHeld
  pending : w.pending = u.pending
  line : QueuesOnly (u.line.modPort p fun a => { a with stations := sts }) w.line
  numbers : sts.map Station.number = (u.port p).stations.map Station.number

theorem Answering.refl (p : Port) (u : State) : Answering p u u (u.port p).stations :=
  ⟨rfl, rfl, rfl, by cases p <;> exact .refl _, rfl⟩

/-- An event on top of an answer's effects. -/
theorem Answering.run {p : Port} {u w : State} {sts : List Station} (h : Answering p u w sts) (f : Ev → Ev) :
    Answering p u (w.run f) sts :=
  ⟨h.powered, h.storeHeld, h.pending, h.line.trans (State.run_queuesOnly w f), h.numbers⟩

theorem PortState.answeredBy_number (ps : PortState) (st : Station) :
    (ps.answeredBy st).map Station.number = ps.stations.map Station.number := by
  unfold PortState.answeredBy
  rw [List.map_map]
  exact List.map_congr_left fun x _ => by simp only [Function.comp]; split <;> rfl

theorem PortState.missedBy_number (ps : PortState) (st : Station) :
    (ps.missedBy st).map Station.number = ps.stations.map Station.number := by
  unfold PortState.missedBy
  rw [List.map_map]
  exact List.map_congr_left fun x _ => by simp only [Function.comp]; (repeat' split) <;> rfl

theorem State.heard_answering (u : State) (p : Port) (st : Station) (a : Bool) :
    Answering p u (u.heard p st a) ((u.port p).answeredBy st) := by
  refine ⟨u.heard_powered p st a, u.heard_storeHeld p st a, u.heard_pending p st a, ?_, PortState.answeredBy_number _ _⟩
  cases p
  · exact u.heard_line_s st a
  · exact u.heard_line_g st a

/-! ### A miss (R8) -/

/-- The miss of a SILENT station, and one of an ACTIVE station before its third, change its counts alone. -/
theorem State.chargeMiss_counted (u : State) (p : Port) {st : Station} (h : ¬ (st.poll = .active ∧ 3 ≤ st.misses + 1)) :
    u.chargeMiss p st = u.modPort p fun a => { a with stations := a.missedBy st } := by
  unfold State.chargeMiss PortState.missedBy
  by_cases hs : st.poll = .silent
  · have e : (u.modPort p fun a => { a with stations := a.stations }) = u := by cases p <;> rfl
    simpa [hs] using e.symm
  · have ha : st.poll = .active := by cases hp : st.poll <;> simp_all
    have h3 : st.misses + 1 < 3 := Nat.lt_of_not_le fun k => h ⟨ha, k⟩
    simp [ha, h3, PortState.modStation]

/-- The event of a station's third miss: STATION_SILENT, and the loss of its lift with what that sets off (R8, R120 ❷). -/
def silentEv (p : Port) (st : Station) (e : Ev) : Ev :=
  let e := e.alert AlertKind.stationSilent (w8 (portCode p) ++ w8 st.number)
  match roleLift st.role with
  | some l => settle (e.modG fun g => g.loseLift l)
  | none => e

theorem State.chargeMiss_third (u : State) (p : Port) {st : Station} (h : st.poll = .active ∧ 3 ≤ st.misses + 1) :
    u.chargeMiss p st = (u.modPort p fun a => { a with stations := a.missedBy st }).run (silentEv p st) := by
  obtain ⟨ha, h3⟩ := h
  have h3' : ¬ st.misses + 1 < 3 := by omega
  unfold State.chargeMiss PortState.missedBy
  simp [ha, h3', PortState.modStation]
  rfl

theorem State.chargeMiss_answering (u : State) (p : Port) (st : Station) :
    Answering p u (u.chargeMiss p st) ((u.port p).missedBy st) := by
  have base : Answering p u (u.modPort p fun a => { a with stations := a.missedBy st }) ((u.port p).missedBy st) :=
    ⟨rfl, rfl, rfl, by cases p <;> exact .refl _, PortState.missedBy_number _ _⟩
  by_cases h : st.poll = .active ∧ 3 ≤ st.misses + 1
  · rw [u.chargeMiss_third p h]; exact base.run _
  · rw [u.chargeMiss_counted p h]; exact base

theorem silentEv_g (p : Port) (st : Station) (g : Garage) : (silentEv p st ⟨g, []⟩).g = match roleLift st.role with
    | some l => (g.loseLift l).afterwards
    | none => g := by
  unfold silentEv
  dsimp only
  split
  · rw [settle_g]; rfl
  · rfl

theorem silentEv_out (p : Port) (st : Station) (g : Garage) : ∃ more, (silentEv p st ⟨g, []⟩).out =
    alertOut g.seconds AlertKind.stationSilent (w8 (portCode p) ++ w8 st.number) :: more := by
  unfold silentEv
  dsimp only
  split
  · exact settle_out _
  · exact ⟨[], rfl⟩

/-! ### The exchange ends -/

/-- What stands when an exchange has ended, from the state that the answer's own effects have left. -/
structure ExchangeOver (p : Port) (u w t : State) (sts : List Station) : Prop where
  quiet : LineQuiet (w.modPort p PortState.deaf) t
  rest : Undisturbed u t
  awaiting : (t.port p).awaiting = false
  stations : (t.port p).stations = sts
  others : (t.port (otherPort p)).stations = (u.port (otherPort p)).stations

theorem QueuesOnly.port {a b : Line} (h : QueuesOnly a b) (p : Port) :
    b.port p = { a.port p with ownQueue := (b.port p).ownQueue } := by
  cases p
  · show b.s = _; rw [h.eq]; rfl
  · show b.g = _; rw [h.eq]; rfl

theorem Answering.port {p : Port} {u w : State} {sts : List Station} (h : Answering p u w sts) :
    w.port p = { u.port p with stations := sts, ownQueue := (w.port p).ownQueue } := by
  have k := h.line.port p
  rwa [Line.modPort_port] at k

theorem Answering.port_other {p : Port} {u w : State} {sts : List Station} (h : Answering p u w sts) :
    w.port (otherPort p) = { u.port (otherPort p) with ownQueue := (w.port (otherPort p)).ownQueue } := by
  have k := h.line.port (otherPort p)
  rwa [Line.modPort_port_other _ _ _ _ (otherPort_ne p)] at k

theorem Answering.nothingDue {p : Port} {u w : State} {sts : List Station} (h : Answering p u w sts)
    (hd : NothingDue u p) : NothingDue w p := fun e => by
  rw [h.line.due, Line.modPort_lineDueG]; exact hd e

/-- A port changed in what a command may change. -/
theorem Line.modPort_sameLines {ln : Line} {p : Port} {f : PortState → PortState} (h : SamePort (ln.port p) (f (ln.port p))) :
    SameLines ln (ln.modPort p f) := by
  cases p
  · exact ⟨h, .refl _, rfl, rfl⟩
  · exact ⟨.refl _, h, rfl, rfl⟩

theorem Answering.sameLines {p : Port} {u w : State} {sts : List Station} (h : Answering p u w sts) :
    SameLines u.line w.line :=
  (Line.modPort_sameLines ⟨rfl, rfl, rfl, rfl, List.suffix_refl _⟩).trans h.line.sameLines

theorem LineQuiet.stations {s t : State} (h : LineQuiet s t) (q : Port) :
    (t.port q).stations = (s.port q).stations := by
  cases q
  · exact h.onS.stations
  · exact h.onG.stations

theorem Answering.over {p : Port} {u w : State} {sts : List Station} (h : Answering p u w sts)
    (ha : (u.port p).awaiting = true) (hd : NothingDue u p) (more : Bool) :
    ExchangeOver p u w (w.finishExchange p more).underHold sts := by
  have hw : (w.port p).awaiting = true := by rw [h.port]; exact ha
  have q := (w.finishExchange_lineQuiet p more hw (h.nothingDue hd)).trans (State.underHold_lineQuiet _)
  have deaf : SameLines w.line (w.modPort p PortState.deaf).line :=
    Line.modPort_sameLines ⟨rfl, rfl, rfl, rfl, List.suffix_refl _⟩
  have hst : ((w.modPort p PortState.deaf).port p).stations = sts := by
    rw [State.modPort_port]; show (w.port p).stations = sts; rw [h.port]
  have hoth : ((w.modPort p PortState.deaf).port (otherPort p)).stations = (u.port (otherPort p)).stations := by
    rw [State.modPort_port_other _ _ _ _ (otherPort_ne p), h.port_other]
  refine ⟨q, ⟨q.powered.trans h.powered, q.storeHeld.trans h.storeHeld, q.pending.trans h.pending,
    h.sameLines.trans (deaf.trans q.sameLines)⟩, ?_, (q.stations p).trans hst,
    (q.stations (otherPort p)).trans hoth⟩
  cases p
  · exact q.onS.awaiting
  · exact q.onG.awaiting

/-- The end of an exchange without MORE ends the visit. -/
theorem Answering.unvisited {p : Port} {u w : State} {sts : List Station} (h : Answering p u w sts)
    (ha : (u.port p).awaiting = true) (hd : NothingDue u p) :
    (w.port p).deaf.endVisit.StaysUnvisited ((w.finishExchange p false).underHold.port p) := by
  have hw : (w.port p).awaiting = true := by rw [h.port]; exact ha
  rw [State.finishExchange_over hw (h.nothingDue hd)]
  have e : ((w.modPort p fun ps => ps.deaf.endVisit).port p) = (w.port p).deaf.endVisit := w.modPort_port p _
  have hv : ((w.modPort p fun ps => ps.deaf.endVisit).port p).visit = none := by rw [e]; exact PortState.endVisit_visit _
  rw [← e]
  have k := State.beginTurn_unvisited hv
  exact k.trans (State.underHold_unvisited k.visit)

/-- The poll position moves on from the polled station as its exchange ends without MORE (R6). -/
theorem Answering.movedOn {p : Port} {u w : State} {sts : List Station} {st : Station} (h : Answering p u w sts)
    (hp : (u.port p).polled = some st) (hd : NothingDue u p) :
    ((w.finishExchange p false).underHold.port p).visit = none ∧
      (u.port p).MovedOn st.number ((w.finishExchange p false).underHold.port p) := by
  obtain ⟨ha, v, hv, hr, hs⟩ := PortState.polled_cases hp
  have k := h.unvisited ha hd
  have hn : v.station = st.number := (by simpa using List.find?_some hs : st.number = v.station).symm
  have hvw : (w.port p).deaf.visit = some v := by rw [h.port]; exact hv
  have m := (PortState.endVisit_movedOn hvw hr).stays k
  rw [hn] at m
  exact ⟨k.visit, m.of_numbers (by rw [h.port]; exact h.numbers) (by rw [h.port]; rfl) (by rw [h.port]; rfl)⟩

/-- What waits, or is counted as lost, before the exchange ends is on its way, or counted, after it. -/
theorem ExchangeOver.sends {p : Port} {s u w t : State} {sts : List Station} (h : ExchangeOver p u w t sts) {r : Role}
    {kind : Byte} {payload : List Byte} (k : w.line.queuedOrLost (s.line.Serves r) s.line.noticeDrops kind payload) :
    Sends s t r kind payload := by
  refine h.quiet.sends ?_
  rcases k with ⟨q, n, m, hP, k⟩ | k | k
  · exact .inl ⟨q, n, m, hP, by cases p <;> cases q <;> exact k⟩
  · exact .inr (.inl (by cases p <;> exact k))
  · exact .inr (.inr k)

theorem ExchangeOver.carries {p : Port} {u w t : State} {sts : List Station} (h : ExchangeOver p u w t sts) {q : Port}
    {f : Frame} (k : (w.port q).carries f) : (t.port q).carries f := by
  have k' : ((w.modPort p PortState.deaf).port q).carries f := by cases p <;> cases q <;> exact k
  cases q
  · exact h.quiet.onS.carries f k'
  · exact h.quiet.onG.carries f k'

theorem State.endExchange_polled {s : State} {p : Port} {st : Station} (h : (s.port p).polled = some st)
    (f : Station → State → State) : s.endExchange p f = (f st s).finishExchange p false := by
  unfold State.endExchange
  rw [if_pos (PortState.polled_awaiting h), h]

/-- What a command that ends an exchange comes to. -/
theorem Asking.react_over {s : State} {p : Port} {st : Station} (ask : Asking s p st) (f : Station → State → State) :
    s.react (fun s => s.endExchange p f) = .next ((f st s).finishExchange p false).underHold := by
  rw [s.react_next _ ask.1, State.endExchange_polled ask.2]

theorem State.tallyFault_polled (s : State) (p : Port) : ((s.tallyFault p).port p).polled = (s.port p).polled := by
  unfold State.tallyFault
  rw [State.modPort_port]
  rfl

theorem State.tallyFault_nothingDue {s : State} {p : Port} (h : NothingDue s p) : NothingDue (s.tallyFault p) p := by
  cases p <;> exact h

/-! ### Misses (R6 to R8) -/

/-- A miss charged to the polled station. -/
theorem State.miss_over (u : State) (p : Port) (st : Station) (hp : (u.port p).polled = some st) (hd : NothingDue u p) :
    let t := ((u.chargeMiss p st).finishExchange p false).underHold
    ExchangeOver p u (u.chargeMiss p st) t ((u.port p).missedBy st) ∧ (t.port p).visit = none ∧
      (u.port p).MovedOn st.number (t.port p) ∧
      (¬ (st.poll = .active ∧ 3 ≤ st.misses + 1) → t.garage = u.garage) ∧
      (st.poll = .active ∧ 3 ≤ st.misses + 1 → t.garage = match roleLift st.role with
        | some l => (u.garage.loseLift l).afterwards
        | none => u.garage) := by
  have a := u.chargeMiss_answering p st
  have o := a.over (PortState.polled_awaiting hp) hd false
  refine ⟨o, (a.movedOn hp hd).1, (a.movedOn hp hd).2, fun h => ?_, fun h => ?_⟩
  · rw [o.quiet.garage, u.chargeMiss_counted p h]; rfl
  · rw [o.quiet.garage, u.chargeMiss_third p h, State.modPort_garage, State.run_garage, silentEv_g]; rfl

/-- STATION_SILENT waits for the office station, or is counted as lost, once the third miss is charged. -/
theorem State.miss_told {s u : State} {p : Port} {st : Station} (h : st.poll = .active ∧ 3 ≤ st.misses + 1)
    (places : (∀ r, u.line.stationOfRole r = s.line.stationOfRole r) ∧ ∀ n, u.line.reaches n = s.line.reaches n)
    (notices : u.line.noticeDrops = s.line.noticeDrops) (now : u.garage = s.garage) :
    (u.chargeMiss p st).line.queuedOrLost (s.line.Serves .office) s.line.noticeDrops Kind.alert
      (w8 AlertKind.stationSilent ++ w32 s.garage.seconds ++ (w8 (portCode p) ++ w8 st.number)) := by
  rw [u.chargeMiss_third p h]
  have e : (u.modPort p fun a => { a with stations := a.missedBy st }) = u.modPort p fun a => a.modStation st.number fun x =>
      { x with misses := 3, poll := .silent, skips := 0 } := by
    have h3 : ¬ st.misses + 1 < 3 := by omega
    simp [PortState.missedBy, PortState.modStation, h.1, h3]
  have k := u.line.modStation_places p st.number (fun x => { x with misses := 3, poll := .silent, skips := 0 })
    fun x => ⟨rfl, rfl⟩
  obtain ⟨more, ho⟩ := silentEv_out p st u.garage
  rw [e]
  rw [State.run_line, State.modPort_garage, ← now]
  refine Line.queueAll_queued (o := alertOut u.garage.seconds AlertKind.stationSilent (w8 (portCode p) ++ w8 st.number))
    (by rw [ho]; exact List.mem_cons_self) rfl
    (fun q n h1 h2 => Line.serves_of (by rw [← places.1, ← k.1]; exact h1) (by rw [← places.2, ← k.2]; exact h2)) ?_
  rw [State.modPort_line, Line.modPort_noticeDrops, notices]

/-- Settles O13: a miss and a mismatch are the same charge, from the state itself and from the state with one fault more. -/
theorem missCharged : Obligations.MissCharged := by
  intro s p st ask hd
  have places : (∀ r, (s.tallyFault p).line.stationOfRole r = s.line.stationOfRole r) ∧
      ∀ n, (s.tallyFault p).line.reaches n = s.line.reaches n := by cases p <;> exact ⟨fun _ => rfl, fun _ => rfl⟩
  constructor
  · have o := s.miss_over p st ask.2 hd
    refine ⟨_, ask.react_over _, ?_⟩
    exact ⟨o.1.rest, o.1.awaiting, o.2.1, ⟨o.2.2.1.pollPos, o.2.2.1.cyclePolled⟩, o.1.stations, o.1.others, o.2.2.2.1,
      o.2.2.2.2, fun h => o.1.sends (State.miss_told h ⟨fun _ => rfl, fun _ => rfl⟩ rfl rfl)⟩
  · have o := (s.tallyFault p).miss_over p st ((s.tallyFault_polled p).trans ask.2) (State.tallyFault_nothingDue hd)
    refine ⟨_, ask.react_over _, ?_⟩
    have told := fun h => o.1.sends (State.miss_told (s := s) (p := p) h places (by cases p <;> rfl) rfl)
    obtain ⟨o, hv, ⟨hm, hc⟩, hg, h3⟩ := o
    exact ⟨o.rest, o.awaiting, hv, by cases p <;> exact ⟨hm, hc⟩, by cases p <;> exact o.stations,
      by cases p <;> exact o.others, hg, h3, told⟩

end Sys2Proof.Machine

namespace Sys2Proof.Machine

/-! ### Answers (R6, R8, R10, R11) -/

/-- The blocks behind the ports once a station is heard with an accepted answer. -/
theorem State.heard_garage_accepted (u : State) (p : Port) (st : Station) :
    (u.heard p st true).garage = u.garage.heardAs st := by
  unfold Garage.heardAs
  split
  · rename_i l hl; exact u.heard_garage_lift p st l hl
  · rename_i hl; exact u.heard_garage p st true hl

/-- An answer that is not accepted brings back the lift of a SILENT station only (R8, R120). -/
theorem State.heard_garage_discarded (u : State) (p : Port) (st : Station) :
    (u.heard p st false).garage = if st.poll = .silent then u.garage.heardAs st else u.garage := by
  rw [State.heard_garage_eq]
  unfold heardEv Garage.heardAs Garage.heardLift
  obtain ⟨n, role, poll, m, k⟩ := st
  have same : ∀ l, u.garage.modLift l (fun u => u) = u.garage := fun l => by cases l <;> rfl
  cases poll <;> cases roleLift role <;> simp [LiftUnit.answered, same]

theorem State.heard_out_back (p : Port) {st : Station} (h : st.poll = .silent) (a : Bool) (g : Garage) :
    (heardEv p st a ⟨g, []⟩).out = [alertOut g.seconds AlertKind.stationBack (w8 (portCode p) ++ w8 st.number)] := by
  rw [heardEv_out, h]; rfl

/-- STATION_BACK waits for the office station once a SILENT station is heard, when the queue has room (R8). -/
theorem State.heard_alerts {u : State} {p : Port} {st : Station} {a : Bool} (h : st.poll = .silent) {n : Nat}
    (ho : OfficeHears u n) : (u.heard p st a).line.s.carries
      (alertFrame n u.garage.seconds AlertKind.stationBack (w8 (portCode p) ++ w8 st.number)) := by
  obtain ⟨hn, hs, hl⟩ := ho
  let f : Station → Station := fun x =>
    { x with misses := 0, poll := .active, skips := if st.poll == .silent then 0 else x.skips }
  let w := u.modPort p fun ps => ps.modStation st.number f
  have k := u.line.modStation_places p st.number f fun x => ⟨rfl, rfl⟩
  have hst : w.line.s.hasStation n = true := by
    rw [← hs]
    cases p
    · unfold PortState.hasStation
      show (u.line.s.stations.map _).any _ = _
      rw [List.any_map]
      congr 1
      funext x
      simp only [Function.comp]
      split <;> rfl
    · rfl
  have hq : w.line.s.ownQueue = u.line.s.ownQueue := by cases p <;> rfl
  exact .inr (State.run_alerts w (heardEv p st a) n u.garage.seconds AlertKind.stationBack _ [] []
    (State.heard_out_back p h a _) ((k.1 _).trans hn) hst (by rw [hq]; simp; omega))

/-- An answer of the polled station, accepted or not, ends its exchange. -/
theorem State.answer_over (u : State) (p : Port) (st : Station) (a : Bool) (hp : (u.port p).polled = some st)
    (hd : NothingDue u p) :
    let t := ((u.heard p st a).finishExchange p false).underHold
    ExchangeOver p u (u.heard p st a) t ((u.port p).answeredBy st) ∧ (t.port p).visit = none ∧
      (u.port p).MovedOn st.number (t.port p) ∧ t.garage = (u.heard p st a).garage ∧
      (st.poll = .silent → Alerted u t AlertKind.stationBack (w8 (portCode p) ++ w8 st.number)) := by
  have k := u.heard_answering p st a
  have o := k.over (PortState.polled_awaiting hp) hd false
  have m := k.movedOn hp hd
  refine ⟨o, m.1, m.2, ?_, fun h n ho => o.carries (q := .s) (State.heard_alerts h ho)⟩
  rw [o.quiet.garage]; rfl

/-- Settles O14: an answer is heard, from the state itself or from the state with one fault more. -/
theorem answersHeard : Obligations.AnswersHeard := by
  intro s p st ask hd movedOn after discarded g
  have fault : ∃ t, s.react (fun s => s.endExchange p fun st s => s.discardAnswer p st) = .next t ∧ after discarded t g := by
    have o := (s.tallyFault p).answer_over p st false ((s.tallyFault_polled p).trans ask.2) (State.tallyFault_nothingDue hd)
    obtain ⟨o, hv, ⟨hm, hc⟩, hg, ha⟩ := o
    exact ⟨_, ask.react_over _, o.rest, o.awaiting, hv, by cases p <;> exact ⟨hm, hc⟩, by cases p <;> exact o.stations,
      by cases p <;> exact o.others, hg.trans (State.heard_garage_discarded _ p st), by cases p <;> exact ha⟩
  obtain ⟨o, hv, ⟨hm, hc⟩, hg, ha⟩ := s.answer_over p st true ask.2 hd
  exact ⟨⟨_, ask.react_over _, o.rest, o.awaiting, hv, ⟨hm, hc⟩, o.stations, o.others,
    hg.trans (s.heard_garage_accepted p st), ha⟩, fault, fault⟩

end Sys2Proof.Machine

namespace Sys2Proof.Machine

/-! ### Answers that nothing awaits (log 2, 5, 6) -/

/-- A command's effect that ends the exchange of a port: nothing when none is in progress, and nothing but its end when its
station has left the table (R4, log 5). -/
structure EndsExchange (p : Port) (f : State → State) : Prop where
  unawaited : ∀ s, (s.port p).awaiting = false → f s = s
  removed : ∀ s, (s.port p).awaiting = true → (s.port p).polled = none → f s = s.finishExchange p false

theorem endExchange_ends (p : Port) (f : Station → State → State) : EndsExchange p fun s => s.endExchange p f where
  unawaited s h := by simp [State.endExchange, h]
  removed s h hp := by simp [State.endExchange, h, hp]

theorem dataFrame_ends (p : Port) (flags : Byte) (pl : List Byte) (f : Station → State → State) :
    EndsExchange p fun s => s.dataFrame p flags pl f where
  unawaited s h := by simp [State.dataFrame, h]
  removed s h hp := by simp [State.dataFrame, h, hp]

/-- Every answer's command ends the exchange of its port. -/
theorem answer_ends {p : Port} {kind flags : Byte} {pl : List Byte} {f : Frame} {c : Instr}
    (h : c ∈ [.miss p, .empty p, .frameDiscarded p, .idleTimeEnd p, .sourceMismatch p, .transit p f,
        .unknownKind p kind flags pl] ∨ frameCommand p kind flags pl = some c) :
    ∃ e, EndsExchange p e ∧ ∀ s, exec c s = s.react e := by
  rcases h with h | h
  · simp only [List.mem_cons, List.not_mem_nil, or_false] at h
    rcases h with rfl | rfl | rfl | rfl | rfl | rfl | rfl
    · exact ⟨_, endExchange_ends p _, fun _ => rfl⟩
    · exact ⟨_, endExchange_ends p _, fun _ => rfl⟩
    · exact ⟨_, endExchange_ends p _, fun _ => rfl⟩
    · exact ⟨_, endExchange_ends p _, fun _ => rfl⟩
    · exact ⟨_, endExchange_ends p _, fun _ => rfl⟩
    · exact ⟨_, dataFrame_ends p _ _ _, fun _ => rfl⟩
    · exact ⟨_, dataFrame_ends p _ _ _, fun _ => rfl⟩
  · exact ⟨_, dataFrame_ends p _ _ _, exec_frameCommand h⟩

theorem State.underHold_quiet {s : State} (h : s.line.pollHold = false) : s.underHold = s := by
  simp [State.underHold, h]

/-- A data frame too long for the part ends as an answer that the idle time ends (log 6). -/
theorem State.dataFrame_long {s : State} {p : Port} {st : Station} {flags : Byte} {pl : List Byte}
    (h : (s.port p).polled = some st) (hl : 48 < pl.length) (f : Station → State → State) :
    s.dataFrame p flags pl f = s.endExchange p fun st s => s.discardAnswer p st := by
  unfold State.dataFrame
  rw [if_pos (PortState.polled_awaiting h), h, State.endExchange_polled h]
  exact if_pos hl

/-- No station is polled when the one of the visit has been removed, or is in the table no more. -/
theorem PortState.polled_gone {a : PortState}
    (h : ∀ v, a.visit = some v → v.removed = true ∨ ∀ x ∈ a.stations, x.number ≠ v.station) : a.polled = none := by
  cases hp : a.polled with
  | none => rfl
  | some st =>
    obtain ⟨-, v, hv, hr, hs⟩ := PortState.polled_cases hp
    rcases h v hv with k | k
    · rw [hr] at k; cases k
    · exact absurd (by simpa using List.find?_some hs) (k st (List.mem_of_find?_eq_some hs))

/-- A part without power takes no command but those of its supply (log 2). -/
theorem State.react_off {s : State} (h : s.powered = false) (f : State → State) : s.react f = .next s := by
  simp [State.react, h]

theorem exec_off {s : State} (h : s.powered = false) (d : Instr) (hu : ∀ b, d ≠ .powerUp b) (hl : ∀ b, d ≠ .powerLoss b) :
    exec d s = .next s := by
  cases d
  case powerUp b => exact absurd rfl (hu b)
  case powerLoss b => exact absurd rfl (hl b)
  case tick => exact State.react_off h fun s => s.ticked.expireAll s.ticked.garage.dueOrder
  case frameSent p => unfold exec execFrameSent; exact State.react_off h _
  case moveOrderSent l => unfold exec execMoveOrderSent; exact State.react_off h _
  case lineSettingsTakeEffect p => unfold exec execLineSettingsTakeEffect; exact State.react_off h _
  all_goals exact State.react_off h _

/-- Settles O15: every answer ends the exchange of its port, and only that when its station has left the table. -/
theorem answersOutOfPlace : Obligations.AnswersOutOfPlace := by
  intro s p kind flags pl f c hc
  obtain ⟨e, he, hx⟩ := answer_ends hc
  refine ⟨fun hp ha hh => ?_, fun hp ha hgone hd => ?_, fun st ask => ⟨fun hl hk => ?_, fun hl => ?_, fun hl => ?_⟩, exec_off⟩
  · rw [hx, s.react_next _ hp, he.unawaited s ha, State.underHold_quiet hh]
  · have a := Answering.refl p s
    have o := a.over ha hd false
    have k := a.unvisited ha hd
    refine ⟨_, by rw [hx, s.react_next _ hp, he.removed s ha (PortState.polled_gone hgone)], o.rest, o.quiet.garage,
      o.awaiting, k.visit, o.stations, fun v hv hr => ?_, o.others⟩
    have hv' : (s.port p).deaf.visit = some v := hv
    rw [k.pollPos, k.cyclePolled, PortState.endVisit_removed hv' hr]
    exact ⟨rfl, rfl⟩
  · rw [exec_frameCommand hk]
    exact congrArg (fun t : State => s.react fun _ => t) (State.dataFrame_long ask.2 hl _)
  · exact congrArg (fun t : State => s.react fun _ => t) (State.dataFrame_long ask.2 hl _)
  · exact congrArg (fun t : State => s.react fun _ => t) (State.dataFrame_long ask.2 hl _)

end Sys2Proof.Machine

namespace Sys2Proof.Machine

/-! ### Frames that the gates turn away (R21, R34, R197) -/

@[simp] theorem Garage.heardAs_mode (g : Garage) (st : Station) : (g.heardAs st).mode = g.mode := by
  unfold Garage.heardAs; split <;> simp

@[simp] theorem Garage.heardAs_seconds (g : Garage) (st : Station) : (g.heardAs st).seconds = g.seconds := by
  unfold Garage.heardAs Garage.heardLift; split <;> simp

theorem Garage.heardAs_none (g : Garage) {st : Station} (h : roleLift st.role = none) : g.heardAs st = g := by
  unfold Garage.heardAs; rw [h]

/-- A frame to the part goes through its kind's body, be the kind known or not. -/
theorem exec_toPart {p : Port} {kind flags : Byte} {pl : List Byte} {c : Instr}
    (h : c = .unknownKind p kind flags pl ∨ frameCommand p kind flags pl = some c) (s : State) :
    exec c s = s.frame p kind flags pl (bodyOf kind) := by
  rcases h with rfl | h
  · rfl
  · exact exec_frameCommand h s

/-- A frame of the polled station is judged once the station is heard, and its exchange then ends. -/
theorem Asking.frame_judged {s : State} {p : Port} {st : Station} (ask : Asking s p st) (kind flags : Byte) {pl : List Byte}
    (h48 : pl.length ≤ 48) (body : Body) : s.frame p kind flags pl body =
      .next ((((s.heard p st true).judge ⟨p, st.number, st.role⟩ kind pl body).finishExchange p (moreFlag flags)).underHold) := by
  have hn : ¬ 48 < pl.length := by omega
  unfold State.frame State.receive State.dataFrame
  rw [s.react_next _ ask.1, if_pos (PortState.polled_awaiting ask.2), ask.2]
  simp [hn]

/-- What a gate makes of a frame that its role does not permit. -/
theorem State.judge_role {u : State} {c : Caller} {kind : Byte} (h : permits c.role kind = false) (pl : List Byte)
    (body : Body) : u.judge c kind pl body = u.run fun e => e.reply c kind .refused [] := by
  simp [State.judge, h]

theorem State.judge_mode {u : State} {c : Caller} {kind : Byte} (hp : permits c.role kind = true)
    (h : takenIn u.garage.mode kind = false) (pl : List Byte) (body : Body) :
    u.judge c kind pl body = u.run fun e => modeRefused c kind e := by
  simp [State.judge, hp, h]

theorem State.judge_shape {u : State} {c : Caller} {kind : Byte} {pl : List Byte} (hp : permits c.role kind = true)
    (hm : takenIn u.garage.mode kind = true) (h : wellShaped kind pl = false) (body : Body) :
    u.judge c kind pl body = u.run fun e => malformed c kind pl e := by
  simp [State.judge, hp, hm, h]

theorem State.heard_mode (s : State) (p : Port) (st : Station) : (s.heard p st true).garage.mode = s.garage.mode := by
  rw [State.heard_garage_accepted, Garage.heardAs_mode]

/-- An exchange that an accepted answer has ended: its station is heard, nothing else of the lines has changed. -/
theorem ExchangeOver.heard {p : Port} {s w t : State} {st : Station} (h : ExchangeOver p s w t ((s.port p).answeredBy st)) :
    Heard p s t st := by
  cases p <;> exact ⟨h.rest, h.awaiting, h.stations, h.others⟩

/-- What comes of an event run between the hearing of a station and the end of its exchange. -/
structure EventOver (p : Port) (s : State) (st : Station) (f : Ev → Ev) (t : State) : Prop where
  exchange : ExchangeOver p s ((s.heard p st true).run f) t ((s.port p).answeredBy st)
  garage : t.garage = (f ⟨s.garage.heardAs st, []⟩).g
  sends : ∀ o ∈ (f ⟨s.garage.heardAs st, []⟩).out, ∀ r, o.dest = .role r → Sends s t r o.kind o.payload

theorem Asking.event_over {s : State} {p : Port} {st : Station} (ask : Asking s p st) (hd : NothingDue s p) (f : Ev → Ev)
    (more : Bool) : EventOver p s st f (((s.heard p st true).run f).finishExchange p more).underHold := by
  have o := ((s.heard_answering p st true).run f).over (PortState.polled_awaiting ask.2) hd more
  refine ⟨o, ?_, fun x hx r hr => o.sends ?_⟩
  · rw [o.quiet.garage, State.modPort_garage, State.run_garage, State.heard_garage_accepted]
  · have hp := s.heard_places p st true
    rw [State.run_line, State.heard_garage_accepted]
    exact Line.queueAll_queued hx hr (fun q n h1 h2 => Line.serves_of (hp.1 r ▸ h1) (hp.2 n ▸ h2))
      (s.heard_notices p st true)

/-! ### The office station's port -/

/-- The office station is reached on Port S, when the tables are as R3 lets them be. -/
theorem Line.reaches_office {ln : Line} (ok : ln.TablesSound) {n : Nat} (h : ln.stationOfRole .office = some n) :
    ln.reaches n = some .s := by
  obtain ⟨st, hf, rfl⟩ := Option.map_eq_some_iff.mp h
  have hr : st.role = .office := by simpa using List.find?_some hf
  have hs : st ∈ ln.s.stations := by
    rcases List.mem_append.mp (List.mem_of_find?_eq_some hf) with hs | hg
    · exact hs
    · have := ok.g.roles st hg
      rw [hr] at this
      exact absurd this (by decide)
  unfold Line.reaches
  rw [if_pos (Line.hasStation_of hs)]

/-- A frame for the office station joins Port S's own queue, or is lost when there is no office station (R13). -/
theorem Line.queueOut_office {ln : Line} (reached : ∀ n, ln.stationOfRole .office = some n → ln.reaches n = some .s) {o : Out}
    (ho : o.dest = .role .office) : ln.queueOut o = match ln.stationOfRole .office with
      | some n => ln.enqueue .s ⟨originated n o.kind o.payload, o.mark⟩
      | none => ln.dropNotice := by
  unfold Line.queueOut
  rw [ho]
  dsimp only
  cases hn : ln.stationOfRole .office with
  | none => rfl
  | some n => simp [Line.sendTo, reached n hn]

theorem Line.enqueue_s_g (ln : Line) (q : QFrame) : (ln.enqueue .s q).g = ln.g := by
  unfold Line.enqueue
  split
  · dsimp only
    split <;> rfl
  · rfl

/-- The hearing of a station leaves Port G's own queue as it was, when the tables are as R3 lets them be. -/
theorem State.heard_ownQueue_g (s : State) (p : Port) (st : Station) (ok : s.line.TablesSound) :
    (s.heard p st true).line.g.ownQueue = s.line.g.ownQueue := by
  let f : Station → Station := fun x =>
    { x with misses := 0, poll := .active, skips := if st.poll == .silent then 0 else x.skips }
  have k := s.line.modStation_places p st.number f fun x => ⟨rfl, rfl⟩
  have e : (s.heard p st true).line = (heardEv p st true ⟨s.garage, []⟩).out.foldl Line.queueOut
      (s.line.modPort p fun ps => ps.modStation st.number f) := rfl
  have q0 : (s.line.modPort p fun ps => ps.modStation st.number f).g.ownQueue = s.line.g.ownQueue := by cases p <;> rfl
  rw [e, heardEv_out]
  split
  · rw [Ev.alert_out, List.nil_append, List.foldl_cons, List.foldl_nil,
      Line.queueOut_office (fun n hn => by rw [k.2]; exact Line.reaches_office ok (by rw [← k.1]; exact hn)) rfl]
    split
    · rw [Line.enqueue_s_g, q0]
    · exact q0
  · exact q0

/-- Port G's own queue takes a REPLY while it holds fewer than six frames (R15). -/
theorem Line.enqueue_reply_g {ln : Line} {q : QFrame} (hk : q.frame.kind ≠ Kind.moveOrder) (h : ln.g.ownQueue.length < 6) :
    ln.enqueue .g q = { ln with g := { ln.g with ownQueue := ln.g.ownQueue ++ [q] } } := by
  simp [Line.enqueue, Line.takes, hk, Config.replyRoomG, h]

/-- What a REPLY of refusal leaves when the exchange is over. -/
theorem EventOver.refused {p : Port} {s t : State} {st : Station} {kind : Byte} {r : Result} {detail : List Byte}
    {f : Ev → Ev} (hf : ∀ g, f ⟨g, []⟩ = ⟨g, [⟨.reply p st.number, Kind.reply, kind :: BitVec.ofNat 8 r.code :: detail, .plain⟩]⟩)
    (h : EventOver p s st f t) : t.garage = s.garage.heardAs st ∧ Heard p s t st ∧
      (p = .s → s.line.s.hasRoom → t.line.s.carries (replyFrame st kind r detail)) ∧
      (p = .g → s.line.TablesSound → s.line.g.ownQueue.length < 6 → t.line.g.carries (replyFrame st kind r detail)) := by
  refine ⟨by rw [h.garage, hf], h.exchange.heard, fun hp room => ?_, fun hp ok room => ?_⟩
  · subst hp
    exact h.exchange.carries (q := .s) (.inr ⟨_, State.run_answers (s.heard .s st true) f st.number Kind.reply _ .plain []
      (by rw [hf]) (by decide) (s.heard_room .s st true room), rfl⟩)
  · subst hp
    refine h.exchange.carries (q := .g) (.inr ⟨⟨replyFrame st kind r detail, .plain⟩, ?_, rfl⟩)
    show _ ∈ ((s.heard .g st true).run f).line.g.ownQueue
    rw [State.run_line, hf, List.foldl_cons, List.foldl_nil]
    show _ ∈ (Line.enqueue _ .g _).g.ownQueue
    rw [Line.enqueue_reply_g (show Kind.reply ≠ Kind.moveOrder by decide) (by rw [State.heard_ownQueue_g s .g st ok]; exact room)]
    exact List.mem_append_right _ (List.mem_singleton.mpr rfl)

/-- A request of Port S that is turned away with a REPLY, with the blocks behind the ports as they were. -/
theorem Replies.of_turnedAway {s : State} {st : Station} {kind flags : Byte} {pl : List Byte} {body : Body} {r : Result}
    {detail : List Byte} {f : Ev → Ev} (ask : Asking s .s st) (hl : roleLift st.role = none) (h48 : pl.length ≤ 48)
    (hj : (s.heard .s st true).judge ⟨.s, st.number, st.role⟩ kind pl body = (s.heard .s st true).run f)
    (hf : ∀ g, f ⟨g, []⟩ = ⟨g, [⟨.reply .s st.number, Kind.reply, kind :: BitVec.ofNat 8 r.code :: detail, .plain⟩]⟩) :
    Replies (s.frame .s kind flags pl body) s st s.garage kind r detail := by
  have o := (ask.event_over (p := .s) (fun h => nomatch h) f (moreFlag flags)).refused hf
  refine ⟨_, (ask.frame_judged kind flags h48 body).trans (by rw [hj]), ?_, o.2.1, o.2.2.1 rfl⟩
  rw [o.1, Garage.heardAs_none _ hl]

/-- What a malformed report of any station comes to (R197). -/
theorem malformed_over {s : State} {p : Port} {st : Station} {kind flags : Byte} {pl : List Byte} {body : Body}
    (ask : Asking s p st) (hd : NothingDue s p) (hp : permits st.role kind = true) (hm : takenIn s.garage.mode kind = true)
    (h48 : pl.length ≤ 48) (hw : wellShaped kind pl = false) (hk : kind ∈ reportKinds) :
    ∃ t, s.frame p kind flags pl body = .next t ∧ t.garage = s.garage.heardAs st ∧ Heard p s t st ∧
      Told s t AlertKind.reportMalformed (w8 (portCode p) ++ w8 st.number ++ [kind] ++ w8 pl.length) := by
  have hc : reportKinds.contains kind = true := by simpa using hk
  have hf : ∀ g, malformed ⟨p, st.number, st.role⟩ kind pl ⟨g, []⟩ =
      ⟨g, [alertOut g.seconds AlertKind.reportMalformed (w8 (portCode p) ++ w8 st.number ++ [kind] ++ w8 pl.length)]⟩ := by
    intro g
    unfold malformed
    rw [if_pos hc]
    rfl
  have o := ask.event_over hd (fun e => malformed ⟨p, st.number, st.role⟩ kind pl e) (moreFlag flags)
  refine ⟨_, (ask.frame_judged kind flags h48 body).trans
    (by rw [State.judge_shape hp (by rw [State.heard_mode]; exact hm) hw]), by rw [o.garage, hf], o.exchange.heard, ?_⟩
  have k := o.sends (alertOut s.garage.seconds AlertKind.reportMalformed _)
    (by rw [hf, Garage.heardAs_seconds]; exact List.mem_singleton.mpr rfl) .office rfl
  exact k

/-- Settles O21: each gate's refusal, by the gate that stops the frame. -/
theorem gatesRefuse : Obligations.GatesRefuse := by
  refine ⟨fun s p st kind flags pl c hc ask hd hp h48 => ?_, fun s st kind flags pl c hc ask hl hp h48 hm => ?_,
    fun s p st kind flags pl c hc ask hd hp hm h48 => ?_⟩
  · rw [exec_toPart hc, ask.frame_judged kind flags h48, State.judge_role hp]
    exact ⟨_, rfl, (ask.event_over hd _ (moreFlag flags)).refused fun g => rfl⟩
  · rw [exec_frameCommand hc]
    have hn : takenIn s.garage.mode kind = false := by
      rcases hm with ⟨hm, hk⟩ | ⟨hm, hk⟩
      · have k : commissioningKinds.contains kind = true := List.contains_iff_mem.mpr hk
        rw [hm, takenIn, k]; rfl
      · have k : serviceKinds.contains kind = true := List.contains_iff_mem.mpr hk
        rw [hm, takenIn, k]; rfl
    refine Replies.of_turnedAway ask hl h48 (State.judge_mode hp (by rw [State.heard_mode]; exact hn) pl _) fun g => ?_
    unfold modeRefused
    split <;> rfl
  · have report : ∀ k ∈ reportKinds, kind = k → wellShaped kind pl = false → _ := fun k hk e hw =>
      malformed_over (flags := flags) (body := bodyOf kind) ask hd hp hm h48 hw (e ▸ hk)
    rw [exec_frameCommand hc]
    refine ⟨fun hw hk hps hl => ?_, fun hw hk => report kind hk rfl hw, fun hk _ h1 => report _ (by decide) hk ?_,
      fun hk _ h2 => report _ (by decide) hk ?_, fun hk _ h1 => report _ (by decide) hk ?_⟩
    · subst hps
      refine Replies.of_turnedAway ask hl h48 (State.judge_shape hp (by rw [State.heard_mode]; exact hm) hw _) fun g => ?_
      unfold malformed
      rw [if_neg (by simpa using hk)]
      rfl
    · simp [wellShaped, hk, h1]
    · simp [wellShaped, hk, h2]
    · simp [wellShaped, hk, h1]

end Sys2Proof.Machine

namespace Sys2Proof.Machine

/-! ### Requests of the office station -/

/-- A frame of the office station that passes the gates runs its kind's body, and its exchange then ends. -/
theorem AskedBy.office_body {s : State} {st : Station} {kind flags : Byte} {pl : List Byte} {body : Body}
    (ask : AskedBy s st .office) (hp : permits .office kind = true) (hg : Passes s kind pl) :
    s.frame .s kind flags pl body =
      .next ((((body ⟨.s, st.number, st.role⟩ pl (s.heard .s st true)).finishExchange .s (moreFlag flags)).underHold)) := by
  obtain ⟨ask, role⟩ := ask
  have hm := hg.mode
  rw [← s.heard_mode .s st] at hm
  rw [ask.frame_judged kind flags hg.fits]
  simp [State.judge, role, hp, hm, hg.shape]

theorem AskedBy.office_lift {s : State} {st : Station} (ask : AskedBy s st .office) : roleLift st.role = none := by
  rw [ask.2]; rfl

/-- A request of the office station whose body answers with a REPLY alone. -/
theorem AskedBy.office_replies {s : State} {st : Station} {kind flags : Byte} {pl : List Byte} {body : Body} {r : Result}
    {detail : List Byte} (ask : AskedBy s st .office) (hp : permits .office kind = true) (hg : Passes s kind pl)
    (h : body ⟨.s, st.number, st.role⟩ pl (s.heard .s st true) =
      (s.heard .s st true).run fun e => e.reply ⟨.s, st.number, st.role⟩ kind r detail) :
    Replies (s.frame .s kind flags pl body) s st s.garage kind r detail := by
  have hm := hg.mode
  rw [← s.heard_mode .s st] at hm
  refine Replies.of_turnedAway ask.1 ask.office_lift hg.fits (Eq.trans ?_ h) fun g => rfl
  simp [State.judge, ask.2, hp, hm, hg.shape]

/-- The gates of mode and length, for a kind taken in both modes whose length is that of its count. -/
theorem Passes.of_count {s : State} {kind : Byte} {pl : List Byte} {n : Nat} (h : pl.length = n) (h48 : pl.length ≤ 48)
    (hm : (serviceKinds ++ commissioningKinds).contains kind = false) (hc : countedLength kind pl = some n)
    (hk : (kind == Kind.liftStatus || kind == Kind.moveFault || kind == Kind.moveRefused) = false) : Passes s kind pl := by
  simp only [Bool.or_eq_false_iff] at hk
  refine ⟨takenIn_both _ hm, ?_, h48⟩
  unfold wellShaped
  rw [hc, hk.1.1, hk.1.2, hk.2]
  simp [h]

/-! ### Entries applied in frame order -/

/-- Entries that all apply, each to what those before it have made. -/
theorem applyEntries_ok {α : Type} {f : Nat → α → Except Result α} {base size : Nat} (made : Nat → α) (n i : Nat)
    (h : ∀ j, i ≤ j → j < i + n → f (base + size * j) (made j) = .ok (made (j + 1))) :
    applyEntries f base size n i (made i) = .ok (made (i + n)) := by
  induction n generalizing i with
  | zero => rfl
  | succ n ih =>
    unfold applyEntries
    rw [h i (Nat.le_refl i) (by omega)]
    dsimp only
    rw [ih (i + 1) fun j h1 h2 => h j (by omega) (by omega), Nat.add_right_comm, Nat.add_assoc]

/-- The first entry that does not apply ends the request with its position, counted from 1. -/
theorem applyEntries_error {α : Type} {f : Nat → α → Except Result α} {base size : Nat} (made : Nat → α) {r : Result}
    (k n i : Nat) (hk : k < n) (h : ∀ j, i ≤ j → j < i + k → f (base + size * j) (made j) = .ok (made (j + 1)))
    (he : f (base + size * (i + k)) (made (i + k)) = .error r) :
    applyEntries f base size n i (made i) = .error (r, i + k + 1) := by
  induction k generalizing n i with
  | zero =>
    obtain ⟨n, rfl⟩ : ∃ m, n = m + 1 := ⟨n - 1, by omega⟩
    unfold applyEntries
    rw [Nat.add_zero] at he
    rw [he]
  | succ k ih =>
    obtain ⟨n, rfl⟩ : ∃ m, n = m + 1 := ⟨n - 1, by omega⟩
    have e : i + 1 + k = i + (k + 1) := by omega
    unfold applyEntries
    rw [h i (Nat.le_refl i) (by omega)]
    dsimp only
    rw [ih n (i + 1) (by omega) (fun j h1 h2 => h j (by omega) (by omega)) (by rw [e]; exact he), e]

/-! ### LOAD_PASS (R20) -/

/-- What the four actions of the pass table read as (R194). -/
theorem actionOf_lt {n : Nat} (h : n ≤ 3) : actionOf n =
    some (if n = 0 then .pass else if n = 1 then .drop else if n = 2 then .gateA else .gateB) := by
  obtain rfl | rfl | rfl | rfl : n = 0 ∨ n = 1 ∨ n = 2 ∨ n = 3 := by omega
  all_goals rfl

theorem actionOf_ge {n : Nat} (h : 3 < n) : actionOf n = none := by
  unfold actionOf
  split <;> first | omega | rfl

theorem QueuesOnly.passTable {a b : Line} (h : QueuesOnly a b) (t : List PassEntry) :
    QueuesOnly { a with passTable := t } { b with passTable := t } := by
  refine ⟨?_⟩
  rw [h.eq]

/-- Settles O43: the entries applied in frame order, and the table put together from them. -/
theorem passLoaded : Obligations.PassLoaded := by
  intro s st flags pl ask hlen h48 table start count at' bad entry outside answers after
  have hp : permits .office Kind.loadPass = true := by decide
  have hg : Passes s Kind.loadPass pl := Passes.of_count hlen h48 (by decide) rfl (by decide)
  have ht : (s.heard .s st true).line.passTable = table := (s.heard_answering .s st true).sameLines.passTable
  have refuses : ∀ r pos, loadedPass table pl = .error (r, pos) → answers r (w8 pos) := fun r pos h =>
    ask.office_replies hp hg (by unfold loadPassBody; rw [ht, h])
  have good : ∀ i, ¬ bad i → passEntry pl (3 + 5 * i) ((List.range i).map entry) = .ok ((List.range (i + 1)).map entry) := by
    intro i hb
    have hb' : ¬ (126 < u8 pl (3 + 5 * i) ∨ u8 pl (3 + 5 * i + 1) < 1 ∨ 126 < u8 pl (3 + 5 * i + 1) ∨
      u8 pl (3 + 5 * i + 3) < u8 pl (3 + 5 * i + 2) ∨ 3 < u8 pl (3 + 5 * i + 4)) := hb
    unfold passEntry
    dsimp only
    rw [if_neg (by omega), if_neg (by omega), actionOf_lt (by omega), List.range_succ, List.map_append]
    rfl
  have faulty : ∀ i, bad i → passEntry pl (3 + 5 * i) ((List.range i).map entry) = .error .badRequest := by
    intro i hb
    have hb' : 126 < u8 pl (3 + 5 * i) ∨ u8 pl (3 + 5 * i + 1) < 1 ∨ 126 < u8 pl (3 + 5 * i + 1) ∨
      u8 pl (3 + 5 * i + 3) < u8 pl (3 + 5 * i + 2) ∨ 3 < u8 pl (3 + 5 * i + 4) := hb
    unfold passEntry
    dsimp only
    split
    · rfl
    · split
      · rfl
      · rw [actionOf_ge (by omega)]
  have loads : ¬ outside → loadedPass table pl = match applyEntries (passEntry pl) 3 5 count 0 [] with
      | .error x => .error x
      | .ok entries => .ok (table.take start ++ entries ++ if flag8 pl 1 then [] else table.drop (start + count)) :=
    fun ho => if_neg ho
  refine ⟨fun ho => refuses _ _ (if_pos ho), fun ho => ⟨fun i hi hb hj => refuses _ _ ?_, fun hall => ?_⟩⟩
  · have stops : applyEntries (passEntry pl) 3 5 count 0 [] = .error (.badRequest, 0 + i + 1) :=
      applyEntries_error (fun i => (List.range i).map entry) i count 0 hi (fun j _ h => good j (hj j (by omega)))
        (by rw [Nat.zero_add]; exact faulty i hb)
    rw [loads ho, stops, Nat.zero_add]
  · have hl : loadedPass table pl = .ok after := by
      have made : applyEntries (passEntry pl) 3 5 count 0 [] = .ok ((List.range (0 + count)).map entry) :=
        applyEntries_ok (fun i => (List.range i).map entry) count 0 fun j _ h => good j (hall j (by omega))
      rw [loads ho, made, Nat.zero_add]
      simp [after, flag8]
    let s' : State := { s with line := { s.line with passTable := after } }
    let u : State := { s.heard .s st true with line := { (s.heard .s st true).line with passTable := after } }
    let f : Ev → Ev := fun e => e.reply ⟨.s, st.number, st.role⟩ Kind.loadPass .taken (w8 after.length)
    have k := s.heard_answering .s st true
    have k' : Answering .s s' u (s.line.s.answeredBy st) :=
      ⟨k.powered, k.storeHeld, k.pending, k.line.passTable after, k.numbers⟩
    have o := (k'.run f).over (PortState.polled_awaiting ask.1.2) (fun h => nomatch h) (moreFlag flags)
    refine ⟨_, (ask.office_body hp hg).trans (by unfold loadPassBody; rw [ht, hl]), ?_,
      ⟨o.rest, o.awaiting, o.stations, o.others⟩, fun room => o.carries (q := .s)
        (.inr ⟨⟨replyFrame st Kind.loadPass .taken (w8 after.length), .plain⟩, ?_, rfl⟩)⟩
    · rw [o.quiet.garage]
      exact s.heard_garage .s st true ask.office_lift
    · exact State.run_answers u f st.number Kind.reply _ .plain [] rfl (by decide) (s.heard_room .s st true room)

end Sys2Proof.Machine

namespace Sys2Proof.Machine

/-! ### Records of the queries (R198 to R200) -/

/-- A number's place in a list, by the index of its first occurrence. -/
theorem placeIn_eq (l : List Nat) (n : Nat) : placeIn l n = ((l.findIdx? fun m => m == n).map fun i => i + 1).getD 0 := by
  induction l with
  | nil => rfl
  | cons m rest ih =>
    unfold placeIn
    rw [List.findIdx?_cons, ih]
    by_cases h : m = n
    · simp [h]
    · cases rest.findIdx? (fun m => m == n) <;> simp [h]

/-- The hall code of a ticket record. -/
theorem hallOf_code (g : Garage) (n : Nat) : w8 (orFF ((g.hallOf n).map liftCode)) =
    if g.liftA.hall.map Prod.snd = some n then [0] else if g.liftB.hall.map Prod.snd = some n then [1] else [0xFF] := by
  unfold Garage.hallOf
  split
  · rfl
  · split <;> rfl

theorem wMeasure_eq (m : Option Measure) : wMeasure m = w16 ((m.bind Measure.parkedMinutes).getD 0) ++
    w16 ((m.bind Measure.waitSeconds).getD 0) ++ w16 ((m.bind Measure.handoverSeconds).getD 0) := by
  cases m <;> rfl

theorem clamp_eq_min {lo hi : Nat} (h : lo ≤ hi) (v : Nat) : clamp lo hi v = min (max v lo) hi := by
  unfold clamp; split <;> [skip; split] <;> omega

/-- The members of a convoy channel are held by a lift or not (R158). -/
theorem channelRecord_eq (g : Garage) (c : Chan) (start : Nat) : channelRecord g c start =
    (let k := g.chan c
      let blocked := (k.list.filter fun n => ((g.ticket n).map Ticket.blocked).getD false).length
      let shown := (k.list.drop (start - 1)).take 16
      w8 (chanStateCode k.state) ++ w8 (k.blockLength - 1) ++ w8 k.level ++ wFlag k.mix ++ w8 (g.members c)
        ++ w8 k.list.length ++ w8 blocked ++ w16 k.delivered
        ++ (match g.tenureOf c with
          | some l => w8 (liftCode l) ++ w8 (k.blockLevel.getD 0xFF) ++ w8 k.blockCount
          | none => [0xFF, 0xFF, 0xFF])
        ++ w8 ((k.request.map fun r => liftCode r.1).getD 0xFF) ++ w8 shown.length ++ shown.flatMap w16) := by
  unfold channelRecord
  dsimp only
  cases g.tenureOf c
  · simp only [List.append_assoc]; rfl
  · simp only [List.append_assoc]; rfl

end Sys2Proof.Machine

namespace Sys2Proof.Machine

theorem liftOf_none {n : Nat} (h : 1 < n) : liftOf n = none := by
  unfold liftOf; split <;> first | omega | rfl

theorem liftOf_code {n : Nat} {l : Lift} (h : n = liftCode l) : liftOf n = some l := by subst h; cases l <;> rfl

theorem chanOf_none {n : Nat} (h : 1 < n) : chanOf n = none := by
  unfold chanOf; split <;> first | omega | rfl

theorem chanOf_code {n : Nat} {c : Chan} (h : n = chanCode c) : chanOf n = some c := by subst h; cases c <;> rfl

theorem bayRecord_none {g : Garage} {n : Nat} (h : g.bay n = none) : bayRecord g n =
    w16 n ++ [0, 0xFF, 0, 0xFF, 0xFF, 0xFF, 0xFF, 0xFF, 0, 0, 0xFF, 0xFF, 0xFF, 0xFF] := by
  unfold bayRecord
  rw [h]
  rfl

/-- What a bay's record says of the bay itself (R198). -/
def bayPart (n : Nat) (b : Bay) : List Byte :=
  w16 n ++ [1] ++ w8 b.stack ++ w8 b.position ++ wFlag b.large ++ wFlag b.charger ++ wFlag b.swap
    ++ w8 (serviceStateCode b.service) ++ w8 (occupancyCode b.occ) ++ w16 (b.occ.ticket?.getD 0)

theorem bayRecord_some {g : Garage} {n : Nat} {b : Bay} (h : g.bay n = some b) : bayRecord g n =
    bayPart n b ++ (w8 (orFF ((g.stackRecs.find b.stack).map Stack.zone)) ++ w8 (orFF ((g.stackRecs.find b.stack).map Stack.depth))
      ++ w8 (orFF (((g.stackRecs.find b.stack).bind fun k => g.zoneRecs.find k.zone).map fun z => liftCode z.lift))
      ++ w8 (orFF (((g.stackRecs.find b.stack).bind fun k => g.zoneRecs.find k.zone).map Zone.level))) := by
  unfold bayRecord
  rw [h]
  rfl

/-! ### Port S's own queue when an ALERT joins it (R14) -/

theorem Line.enqueue_s_room {ln : Line} (h : ln.s.ownQueue.length < 48) (q : QFrame) :
    ln.enqueue .s q = { ln with s := { ln.s with ownQueue := ln.s.ownQueue ++ [q] } } := by
  simp [Line.enqueue, Line.takes, Config.ownCapacityS, h]

theorem Line.enqueue_s_full {ln : Line} (h : 48 ≤ ln.s.ownQueue.length) (q : QFrame) :
    (ln.enqueue .s q).s.ownQueue.length = ln.s.ownQueue.length ∧
      (ln.enqueue .s q).noticeDrops = tallyUp ln.noticeDrops := by
  have hn : ¬ ln.s.ownQueue.length < 48 := by omega
  unfold Line.enqueue
  split
  · rename_i ht
    have ha : holdsAlert ln.s.ownQueue = true := by simpa [Line.takes, Config.ownCapacityS, hn] using ht
    dsimp only
    rw [if_neg (by simpa [Config.ownCapacityS] using h)]
    have hl := dropOldestAlert_length ha
    exact ⟨by simp only [Line.dropNotice, List.length_append, List.length_singleton]; omega, rfl⟩
  · exact ⟨rfl, rfl⟩

/-- A role that a station of Port S has is found there, and that port reaches its station. -/
theorem Line.role_on_s {ln : Line} {st : Station} (h : st ∈ ln.s.stations) :
    ∃ n, ln.stationOfRole st.role = some n ∧ ln.reaches n = some .s := by
  have hf : (ln.s.stations.find? fun x => x.role == st.role).isSome = true := by
    rw [List.find?_isSome]
    exact ⟨st, h, by simp⟩
  obtain ⟨x, hx⟩ := Option.isSome_iff_exists.mp hf
  refine ⟨x.number, ?_, ?_⟩
  · unfold Line.stationOfRole
    rw [List.find?_append, hx]
    rfl
  · unfold Line.reaches
    rw [if_pos (Line.hasStation_of (List.mem_of_find?_eq_some hx))]

/-- The hearing of a SILENT station of Port S, when the office station is there: the lines with the station's answer, and
STATION_BACK for the office station in Port S's own queue. -/
theorem State.heard_back {s : State} {st x : Station} (hb : st.poll = .silent) (hx : x ∈ s.line.s.stations)
    (hr : x.role = .office) : ∃ q, (s.heard .s st true).line =
      Line.enqueue { s.line with s := { s.line.s with stations := s.line.s.answeredBy st } } .s q := by
  let f : Station → Station := fun x =>
    { x with misses := 0, poll := .active, skips := if st.poll == .silent then 0 else x.skips }
  have k := s.line.modStation_places .s st.number f fun x => ⟨rfl, rfl⟩
  obtain ⟨n, hn, hp⟩ := Line.role_on_s hx
  rw [hr] at hn
  have e : (s.line.modPort .s fun ps => ps.modStation st.number f) =
      { s.line with s := { s.line.s with stations := s.line.s.answeredBy st } } := by
    simp only [f, Line.modPort, PortState.modStation, PortState.answeredBy, beq_iff_eq]
  have l : (s.heard .s st true).line = (heardEv .s st true ⟨s.garage, []⟩).out.foldl Line.queueOut
      (s.line.modPort .s fun ps => ps.modStation st.number f) := rfl
  let o := alertOut s.garage.seconds AlertKind.stationBack (w8 (portCode .s) ++ w8 st.number)
  refine ⟨⟨originated n o.kind o.payload, o.mark⟩, ?_⟩
  rw [l, State.heard_out_back .s hb, List.foldl_cons, List.foldl_nil,
    Line.queueOut_office (fun m hm => by rw [k.2]; rw [k.1, hn] at hm; rw [← Option.some.inj hm]; exact hp) rfl, k.1, hn, e]

/-! ### STATUS (R23, R199) -/

theorem statusRecord_eq (s : State) : statusRecord s = w8 (modeCode s.garage.mode) ++ w8 (liftStateCode s.garage.liftA.state)
    ++ w8 (liftStateCode s.garage.liftB.state)
    ++ w16 (s.garage.countState .allocated) ++ w16 (s.garage.countState .parking) ++ w16 (s.garage.countState .parked)
    ++ w16 (s.garage.countState .overflow) ++ w16 (s.garage.countState .queued) ++ w16 (s.garage.countState .retrieving)
    ++ w16 (s.garage.countState .held) ++ w16 (s.garage.countState .ready) ++ w16 (s.garage.countState .outbound)
    ++ w16 (s.garage.countState .check) ++ w8 s.garage.queue.length ++ w16 s.garage.readyCount ++ w8 s.garage.overflowCount
    ++ portStatus s.line.s ++ portStatus s.line.g ++ wFlag s.line.pollHold ++ w16 s.line.noticeDrops := by
  simp only [statusRecord, ticketStates, List.flatMap_cons, List.flatMap_nil, List.append_nil, List.append_assoc]

/-- The status record of a heard office station: only the poll hold flag and the notice drop tally can differ, by its
STATION_BACK (R8, R199). -/
theorem State.heard_status {s : State} {st : Station} (ask : AskedBy s st .office) :
    (s.heard .s st true).line.pollHold = decide ((if st.poll = .silent then 31 else 32) < s.line.s.ownQueue.length) ∧
      (s.heard .s st true).line.noticeDrops = if st.poll = .silent ∧ 48 ≤ s.line.s.ownQueue.length
        then tallyUp s.line.noticeDrops else s.line.noticeDrops := by
  unfold Line.pollHold Config.holdThreshold
  by_cases hb : st.poll = .silent
  · have hst : st ∈ s.line.s.stations := List.mem_of_find?_eq_some (PortState.station_of_polled ask.1.2)
    obtain ⟨q, hq⟩ := s.heard_back hb hst ask.2
    rw [hq, if_pos hb]
    by_cases hf : 48 ≤ s.line.s.ownQueue.length
    · obtain ⟨hl, hd⟩ := Line.enqueue_s_full (ln := { s.line with s := { s.line.s with stations := s.line.s.answeredBy st } }) hf q
      rw [hl, hd, if_pos ⟨hb, hf⟩]
      exact ⟨decide_eq_decide.mpr ⟨fun _ => by omega, fun _ => by show 32 < s.line.s.ownQueue.length; omega⟩, rfl⟩
    · rw [Line.enqueue_s_room (ln := { s.line with s := { s.line.s with stations := s.line.s.answeredBy st } })
        (Nat.lt_of_not_le hf), if_neg fun h => hf h.2]
      refine ⟨decide_eq_decide.mpr ?_, rfl⟩
      simp only [List.length_append, List.length_singleton]
      omega
  · have e : (s.heard .s st true).line = List.foldl Line.queueOut _ (heardEv .s st true ⟨s.garage, []⟩).out := rfl
    have ho : (heardEv .s st true ⟨s.garage, []⟩).out = [] := by rw [heardEv_out, if_neg (by simpa using hb)]
    rw [ho] at e
    rw [e, if_neg hb, if_neg fun h => hb h.1]
    exact ⟨rfl, rfl⟩

/-- Settles O41: each query's own event, and the record of which it consists. -/
theorem queriesAnswered : Obligations.QueriesAnswered := by
  intro s st flags pl g place part
  have hpart : ∀ n t, statePart g n t = part n t := by
    intro n t
    have hq : ∀ l, placeIn l n = place l n := fun l => placeIn_eq l n
    unfold statePart Garage.waitingPlace Garage.queuePlace Garage.lanePlace
    simp only [part, ← hallOf_code, ← hq]
    cases t.state
    case check => cases t.unresolved <;> rfl
    case queued => cases t.convoy <;> rfl
    case retrieving => cases t.convoy <;> rfl
    case held => cases t.convoy <;> rfl
    all_goals rfl
  refine ⟨fun ask hm hl => ?_, fun ask hl => ⟨fun hn => ?_, fun hn hb => ?_, fun b hn hb => ?_⟩,
    fun ask hl => ⟨fun hn => ?_, fun l hn => ?_⟩, fun ask hl => ⟨fun hn => ?_, fun c hn => ?_⟩, fun ask => ?_⟩
  · have hg : Passes s Kind.queryTicket pl := Passes.of_length hl (by rw [show s.garage.mode = _ from hm]; decide)
      rfl rfl (by decide) (by decide)
    have answers : ∀ {r d}, queryTicket ⟨.s, st.number, st.role⟩ pl ⟨g, []⟩ = ⟨g, [replyOut st Kind.queryTicket r d]⟩ →
        Replies (exec (.queryTicket .s flags pl) s) s st g Kind.queryTicket r d := fun h => by
      rcases ask with ask | ask | ask
      · exact Replies.of_event ask rfl (by decide) hg h
      · exact Replies.of_event ask rfl (by decide) hg h
      · exact Replies.of_event ask rfl (by decide) hg h
    refine ⟨fun h1 h2 => answers ?_, fun h1 h2 => answers ?_, fun h1 h2 h3 => answers ?_, fun n t ht hn => answers ?_⟩
    · simp [queryTicket, h1, h2]; rfl
    · simp [queryTicket, h1, h2, Garage.queried]; rfl
    · simp [queryTicket, h1, h2, Garage.queried, findKey_tag h3]; rfl
    · have hq : g.queried (u16 pl 0) (u32 pl 2) = some n ∧ ¬ (u16 pl 0 = 0 ∧ u32 pl 2 = 0) := by
        rcases hn with ⟨h1, rfl⟩ | ⟨h1, h2, h3⟩
        · simp [Garage.queried, h1, ht]
        · simp [Garage.queried, h1, h2, h3]
      simp only [queryTicket, if_neg hq.2, hq.1, ht]
      unfold ticketRecord ticketCommon padTo
      rw [hpart, wMeasure_eq]
      simp only [List.append_assoc]
      rfl
  · have hg : Passes s Kind.queryBay pl := Passes.of_length hl (takenIn_both _ (by decide)) rfl rfl (by decide) (by decide)
    exact Replies.of_event ask rfl (by decide) hg (more := []) (by simp [queryBay, hn]; rfl)
  · have hg : Passes s Kind.queryBay pl := Passes.of_length hl (takenIn_both _ (by decide)) rfl rfl (by decide) (by decide)
    refine Replies.of_event ask rfl (by decide) hg (more := []) ?_
    unfold queryBay
    rw [if_neg (by omega), bayRecord_none hb]
    rfl
  · have hg : Passes s Kind.queryBay pl := Passes.of_length hl (takenIn_both _ (by decide)) rfl rfl (by decide) (by decide)
    have answers : ∀ d, bayRecord g (u16 pl 0) = bayPart (u16 pl 0) b ++ d →
        Replies (exec (.queryBay .s flags pl) s) s st g Kind.queryBay .taken (bayPart (u16 pl 0) b ++ d) := fun d h => by
      refine Replies.of_event ask rfl (by decide) hg (more := []) ?_
      unfold queryBay
      rw [if_neg (by omega), h]
      rfl
    refine ⟨fun hs => answers _ ?_, fun k hs => ⟨fun hz => answers _ ?_, fun z hz => answers _ ?_⟩⟩
    · rw [bayRecord_some hb, hs]; rfl
    · rw [bayRecord_some hb, hs, Option.bind_some, hz]; rfl
    · rw [bayRecord_some hb, hs, Option.bind_some, hz]
      simp only [List.append_assoc]
      rfl
  · have hg : Passes s Kind.liftReport pl := Passes.of_length hl (takenIn_both _ (by decide)) rfl rfl (by decide) (by decide)
    refine Replies.of_event ask rfl (by decide) hg (more := []) ?_
    unfold liftReport
    rw [liftOf_none hn]
    rfl
  · have hg : Passes s Kind.liftReport pl := Passes.of_length hl (takenIn_both _ (by decide)) rfl rfl (by decide) (by decide)
    refine Replies.of_event ask rfl (by decide) hg (more := []) ?_
    unfold liftReport
    rw [liftOf_code hn]
    by_cases h1 : u8 pl 1 ≠ 0
    · simp [flag8, h1, liftRecord]; rfl
    · simp [flag8, h1, liftRecord]; rfl
  · have hg : Passes s Kind.convoyQuery pl := Passes.of_length hl (takenIn_both _ (by decide)) rfl rfl (by decide) (by decide)
    refine Replies.of_event ask rfl (by decide) hg (more := []) ?_
    unfold convoyQuery
    rw [chanOf_none hn]
    rfl
  · have hg : Passes s Kind.convoyQuery pl := Passes.of_length hl (takenIn_both _ (by decide)) rfl rfl (by decide) (by decide)
    refine Replies.of_event ask rfl (by decide) hg (more := []) ?_
    unfold convoyQuery
    rw [chanOf_code hn]
    dsimp only
    rw [channelRecord_eq, clamp_eq_min (by decide)]
    rfl
  · have hg : Passes s Kind.status [] := Passes.of_length rfl (takenIn_both _ (by decide)) rfl rfl (by decide) (by decide)
    have k := (s.heard_answering .s st true).sameLines
    refine Eq.subst (motive := fun d => Replies _ _ _ _ _ _ d) ?_ (ask.office_replies (by decide) hg (flags := flags) rfl)
    rw [statusRecord_eq, (s.heard_status ask).1, (s.heard_status ask).2, s.heard_garage .s st true ask.office_lift]
    unfold portStatus
    rw [k.s.mode, k.s.faultTally, k.s.dropTally, k.g.mode, k.g.faultTally, k.g.dropTally]

end Sys2Proof.Machine

namespace Sys2Proof.Machine

/-! ### LOAD_STATIONS: the entries (R3, R4) -/

/-- The role codes that a port's table takes (R3). -/
def allowedCodes : Port → List Nat
  | .s => [1, 2, 3, 4, 5]
  | .g => [6, 7]

theorem roleOf_large {code : Nat} (h : 7 < code) : roleOf code = none := by
  unfold roleOf; split <;> first | omega | rfl

/-- The codes 1 to 7 are roles, and a port's table takes those that it allows. -/
theorem roleOf_role (p : Port) {code : Nat} (h : code ≤ 7) (h0 : code ≠ 0) :
    ∃ r, roleOf code = some (some r) ∧ (allowsRole p r = true ↔ code ∈ allowedCodes p) := by
  have : ∀ c : Fin 8, c.val ≠ 0 → ∃ r, roleOf c.val = some (some r) := by
    intro c hc
    fin_cases c <;> first | exact absurd rfl hc | exact ⟨_, rfl⟩
  obtain ⟨r, hr⟩ := this ⟨code, by omega⟩ h0
  refine ⟨r, hr, ?_⟩
  interval_cases code <;> first | exact absurd rfl h0 | (cases hr; cases p <;> decide)

theorem allowedCodes_range {p : Port} {code : Nat} (h : code ∈ allowedCodes p) : code ≤ 7 ∧ code ≠ 0 := by
  cases p <;> simp [allowedCodes] at h <;> omega

section
variable {pl : List Byte} {p : Port} {other table : List Station} {service : Bool} {off : Nat}

theorem stationEntry_outside (h : u8 pl off < 1 ∨ 126 < u8 pl off ∨ 7 < u8 pl (off + 1)) :
    stationEntry pl p other service off table = .error .badRequest := by
  unfold stationEntry
  dsimp only
  split
  · rfl
  · rw [roleOf_large (by omega)]

variable (h1 : 1 ≤ u8 pl off) (h126 : u8 pl off ≤ 126)
include h1 h126

/-- An entry that removes a station. -/
theorem stationEntry_none (h0 : u8 pl (off + 1) = 0) : stationEntry pl p other service off table =
    (if (table.find? fun st => st.number == u8 pl off).isNone then .error .badRequest
    else if other.any fun st => st.number == u8 pl off then .error .badRequest
    else if service && ((table.find? fun st => st.number == u8 pl off).map fun st => st.role.guarded).getD false then
      .error .refused
    else .ok (table.filter fun st => st.number != u8 pl off)) := by
  unfold stationEntry
  dsimp only
  rw [if_neg (by omega), h0]
  rfl

/-- An entry that gives a station a role. -/
theorem stationEntry_role {r : Role} (hr : roleOf (u8 pl (off + 1)) = some (some r)) :
    stationEntry pl p other service off table =
    (if !allowsRole p r then .error .badRequest
    else if other.any fun st => st.number == u8 pl off then .error .badRequest
    else if (service && ((table.find? fun st => st.number == u8 pl off).map fun st => st.role.guarded).getD false) &&
      (table.find? fun st => st.number == u8 pl off).map Station.role != some r then .error .refused
    else .ok (giveRole (u8 pl off) r table)) := by
  unfold stationEntry
  dsimp only
  rw [if_neg (by omega), hr]

theorem stationEntry_forbidden (h7 : u8 pl (off + 1) ≤ 7) (h0 : u8 pl (off + 1) ≠ 0) (ha : u8 pl (off + 1) ∉ allowedCodes p) :
    stationEntry pl p other service off table = .error .badRequest := by
  obtain ⟨r, hr, hi⟩ := roleOf_role p h7 h0
  have hn : allowsRole p r = false := by
    rw [Bool.eq_false_iff]; exact fun k => ha (hi.mp k)
  rw [stationEntry_role h1 h126 hr, hn]
  rfl

theorem stationEntry_elsewhere (ha : u8 pl (off + 1) ∈ allowedCodes p ∨ u8 pl (off + 1) = 0)
    (he : ∃ x ∈ other, x.number = u8 pl off) : stationEntry pl p other service off table = .error .badRequest := by
  have hany : (other.any fun st => st.number == u8 pl off) = true := by simpa using he
  rcases ha with ha | h0
  · obtain ⟨h7, h0⟩ := allowedCodes_range ha
    obtain ⟨r, hr, hi⟩ := roleOf_role p h7 h0
    rw [stationEntry_role h1 h126 hr, hi.mpr ha, hany]
    rfl
  · rw [stationEntry_none h1 h126 h0, hany]
    split <;> rfl

theorem stationEntry_removesNone (hn : ∀ x ∈ table, x.number ≠ u8 pl off) (h0 : u8 pl (off + 1) = 0) :
    stationEntry pl p other service off table = .error .badRequest := by
  have hf : (table.find? fun st => st.number == u8 pl off) = none := by simpa using hn
  rw [stationEntry_none h1 h126 h0, hf]
  rfl

variable (he : ¬ ∃ x ∈ other, x.number = u8 pl off)
include he

theorem stationEntry_new (hn : ∀ x ∈ table, x.number ≠ u8 pl off) {r : Role} (ha : u8 pl (off + 1) ∈ allowedCodes p)
    (hr : roleOf (u8 pl (off + 1)) = some (some r)) :
    stationEntry pl p other service off table = .ok (table ++ [⟨u8 pl off, r, .active, 0, 0⟩]) := by
  have hf : (table.find? fun st => st.number == u8 pl off) = none := by simpa using hn
  have hany : (other.any fun st => st.number == u8 pl off) = false := by simpa using he
  have ht : (table.any fun st => st.number == u8 pl off) = false := by simpa using hn
  obtain ⟨h7, h0⟩ := allowedCodes_range ha
  obtain ⟨r', hr', hi⟩ := roleOf_role p h7 h0
  have e : r' = r := by rw [hr] at hr'; exact (Option.some.inj (Option.some.inj hr')).symm
  subst e
  rw [stationEntry_role h1 h126 hr, hi.mpr ha, hany, hf]
  simp [giveRole, ht]

variable {x : Station} (hx : (table.find? fun y => y.number == u8 pl off) = some x)
include hx

theorem stationEntry_remove (h0 : u8 pl (off + 1) = 0) : stationEntry pl p other service off table =
    if (service && x.role.guarded) = true then .error .refused
    else .ok (table.filter fun y => y.number != u8 pl off) := by
  have hany : (other.any fun st => st.number == u8 pl off) = false := by simpa using he
  rw [stationEntry_none h1 h126 h0, hany, hx]
  rfl

theorem stationEntry_change {r : Role} (ha : u8 pl (off + 1) ∈ allowedCodes p)
    (hr : roleOf (u8 pl (off + 1)) = some (some r)) : stationEntry pl p other service off table =
    if (service && x.role.guarded) = true ∧ x.role ≠ r then .error .refused
    else .ok (table.map fun y => if y.number = u8 pl off then { y with role := r } else y) := by
  have hany : (other.any fun st => st.number == u8 pl off) = false := by simpa using he
  have ht : (table.any fun st => st.number == u8 pl off) = true := by
    rw [List.any_eq_true]
    exact ⟨x, List.mem_of_find?_eq_some hx, by simpa using List.find?_some hx⟩
  obtain ⟨h7, h0⟩ := allowedCodes_range ha
  obtain ⟨r', hr', hi⟩ := roleOf_role p h7 h0
  have e : r' = r := by rw [hr] at hr'; exact (Option.some.inj (Option.some.inj hr')).symm
  subst e
  rw [stationEntry_role h1 h126 hr, hi.mpr ha, hany, hx]
  simp [giveRole, ht]

end

theorem Role.guarded_iff (r : Role) : r.guarded = true ↔ r = .cabinet ∨ r = .liftA ∨ r = .liftB := by
  cases r <;> decide

/-! ### LOAD_STATIONS: the poll position and the visit (R4, log 20) -/

theorem stationIndex_first {b c : List Station} {y : Station} {n : Nat} (hy : y.number = n) (hb : ∀ w ∈ b, w.number ≠ n) :
    stationIndex (b ++ y :: c) n = some b.length := by
  unfold stationIndex
  rw [List.findIdx?_append, List.findIdx?_eq_none_iff.mpr (by simpa using hb)]
  simp [List.findIdx?_cons, hy]

theorem stationIndex_none {sts : List Station} {n : Nat} (h : ∀ w ∈ sts, w.number ≠ n) : stationIndex sts n = none := by
  unfold stationIndex
  rw [List.findIdx?_eq_none_iff]
  simpa using h

theorem movedPosition_first {old a rest b c : List Station} {x y : Station} {pos : Nat} (ho : old.drop pos = a ++ x :: rest)
    (ha : ∀ z ∈ a, ∀ w ∈ b ++ y :: c, w.number ≠ z.number) (hy : y.number = x.number) (hb : ∀ w ∈ b, w.number ≠ x.number) :
    movedPosition old (b ++ y :: c) pos = b.length := by
  unfold movedPosition
  rw [ho, List.findSome?_append, List.findSome?_eq_none_iff.mpr fun z hz => stationIndex_none (ha z hz), Option.none_or,
    List.findSome?_cons, stationIndex_first hy hb]
  rfl

theorem movedPosition_none {old sts : List Station} {pos : Nat}
    (h : ∀ z ∈ old.drop pos, ∀ w ∈ sts, w.number ≠ z.number) : movedPosition old sts pos = 0 := by
  unfold movedPosition
  rw [List.findSome?_eq_none_iff.mpr fun z hz => stationIndex_none (h z hz)]
  rfl

theorem Visit.reload_stays {awaiting : Bool} {sts : List Station} {v : Visit} (h : ∃ w ∈ sts, w.number = v.station) :
    v.reload awaiting sts = some v := by
  unfold Visit.reload
  rw [if_pos (by simpa using h)]

theorem Visit.reload_gone {awaiting : Bool} {sts : List Station} {v : Visit} (h : ∀ w ∈ sts, w.number ≠ v.station) :
    v.reload awaiting sts = if awaiting then some { v with removed := true } else none := by
  unfold Visit.reload
  rw [if_neg (by simpa using h)]

end Sys2Proof.Machine

namespace Sys2Proof.Machine

/-! ### LOAD_STATIONS: the request (R4, R120) -/

theorem portOf_none {n : Nat} (h : 1 < n) : portOf n = none := by
  unfold portOf; split <;> first | omega | rfl

theorem portOf_code {n : Nat} {p : Port} (h : n = portCode p) : portOf n = some p := by subst h; cases p <;> rfl

/-- The table that a LOAD_STATIONS makes depends on the two tables and the mode alone. -/
theorem State.loadedStations_congr {s u : State} (p : Port) (pl : List Byte)
    (hs : ∀ q, (u.port q).stations = (s.port q).stations) (hm : u.garage.mode = s.garage.mode) :
    u.loadedStations p pl = s.loadedStations p pl := by
  unfold State.loadedStations
  rw [hs, hs, hm]

/-- The lines when a station of Port S has answered, without the frames that its answer sends off. -/
def State.answeredOnS (s : State) (st : Station) : State := s.modPort .s fun ps => { ps with stations := ps.answeredBy st }

theorem State.heard_port (s : State) (st : Station) (q : Port) : (s.heard .s st true).port q =
    { (s.answeredOnS st).port q with ownQueue := ((s.heard .s st true).port q).ownQueue } := by
  have k := s.heard_answering .s st true
  cases q
  · exact k.port
  · exact k.port_other

theorem AskedBy.heard_loads {s : State} {st : Station} (ask : AskedBy s st .office) (p : Port) (pl : List Byte) :
    (s.heard .s st true).loadedStations p pl = (s.answeredOnS st).loadedStations p pl :=
  State.loadedStations_congr p pl (fun q => by rw [s.heard_port st q])
    (by rw [s.heard_garage .s st true ask.office_lift]; rfl)

/-- The event of a LOAD_STATIONS taken: its REPLY, and the loss of the lifts whose stations have left Port G. -/
def stationsTaken (c : Caller) (p : Port) (old sts : List Station) (e : Ev) : Ev :=
  let e := e.reply c Kind.loadStations .taken (w8 sts.length)
  match p with
  | .s => e
  | .g => settle (loseUnserved old sts .b (loseUnserved old sts .a e))

/-- The block once a LOAD_STATIONS is taken. -/
def State.reloaded (u : State) (c : Caller) (p : Port) (sts : List Station) : State :=
  (u.modPort p fun ps => ps.reload sts).run (stationsTaken c p (u.port p).stations sts)

theorem loadStationsBody_refused {c : Caller} {pl : List Byte} {u : State} {p : Port} {r : Result} {pos : Nat}
    (h1 : 1 ≤ u8 pl 1) (h8 : u8 pl 1 ≤ 8) (hp : u8 pl 0 = portCode p) (h : u.loadedStations p pl = .error (r, pos)) :
    loadStationsBody c pl u = u.run fun e => e.reply c Kind.loadStations r (w8 pos) := by
  unfold loadStationsBody
  dsimp only
  rw [if_neg (by omega), portOf_code hp]
  dsimp only
  rw [h]

theorem loadStationsBody_taken {c : Caller} {pl : List Byte} {u : State} {p : Port} {sts : List Station}
    (h1 : 1 ≤ u8 pl 1) (h8 : u8 pl 1 ≤ 8) (hp : u8 pl 0 = portCode p) (h : u.loadedStations p pl = .ok sts) :
    loadStationsBody c pl u = u.reloaded c p sts := by
  unfold loadStationsBody
  dsimp only
  rw [if_neg (by omega), portOf_code hp]
  dsimp only
  rw [h]
  rfl

/-- A lift whose station has left Port G's table, or has its role there no more (R120 ❹). -/
def LeavesG (old new : List Station) (l : Lift) : Prop :=
  ∃ x, (old.find? fun x => x.role == liftRole l) = some x ∧ ¬ ∃ y ∈ new, y.number = x.number ∧ y.role = liftRole l

theorem loseUnserved_gone {old new : List Station} {l : Lift} (h : LeavesG old new l) (e : Ev) :
    loseUnserved old new l e = e.modG fun g => g.loseLift l := by
  obtain ⟨x, hx, hn⟩ := h
  unfold loseUnserved
  rw [hx]
  exact if_neg (by simpa using hn)

theorem loseUnserved_kept {old new : List Station} {l : Lift} (h : ¬ LeavesG old new l) (e : Ev) :
    loseUnserved old new l e = e := by
  unfold loseUnserved
  split
  · rename_i x hx
    have hn : ∃ y ∈ new, y.number = x.number ∧ y.role = liftRole l := Classical.not_not.mp fun hn => h ⟨x, hx, hn⟩
    exact if_pos (by simpa using hn)
  · rfl

theorem loseUnserved_out (old new : List Station) (l : Lift) (e : Ev) : (loseUnserved old new l e).out = e.out := by
  by_cases h : LeavesG old new l
  · rw [loseUnserved_gone h]; rfl
  · rw [loseUnserved_kept h]

theorem stationsTaken_out (c : Caller) (p : Port) (old sts : List Station) (g : Garage) :
    ∃ more, (stationsTaken c p old sts ⟨g, []⟩).out = ⟨.reply c.port c.station, Kind.reply,
      Kind.loadStations :: BitVec.ofNat 8 Result.taken.code :: w8 sts.length, .plain⟩ :: more := by
  cases p
  · exact ⟨[], rfl⟩
  · obtain ⟨more, h⟩ := settle_out (loseUnserved old sts .b (loseUnserved old sts .a
      ((⟨g, []⟩ : Ev).reply c Kind.loadStations .taken (w8 sts.length))))
    rw [loseUnserved_out, loseUnserved_out] at h
    exact ⟨more, h⟩

theorem stationsTaken_g (c : Caller) (old sts : List Station) (g : Garage) : (stationsTaken c .g old sts ⟨g, []⟩).g =
    (loseUnserved old sts .b (loseUnserved old sts .a
      ((⟨g, []⟩ : Ev).reply c Kind.loadStations .taken (w8 sts.length)))).g.afterwards := settle_g _

theorem State.reloaded_port (u : State) (c : Caller) (p : Port) (sts : List Station) :
    (u.reloaded c p sts).port p = { (u.port p).reload sts with ownQueue := ((u.reloaded c p sts).port p).ownQueue } := by
  have k := (State.run_queuesOnly (u.modPort p fun ps => ps.reload sts) (stationsTaken c p (u.port p).stations sts)).port p
  rw [State.modPort_line, Line.modPort_port] at k
  exact k

theorem State.reloaded_port_other (u : State) (c : Caller) (p : Port) (sts : List Station) :
    (u.reloaded c p sts).port (otherPort p) =
      { u.port (otherPort p) with ownQueue := ((u.reloaded c p sts).port (otherPort p)).ownQueue } := by
  have k := (State.run_queuesOnly (u.modPort p fun ps => ps.reload sts)
    (stationsTaken c p (u.port p).stations sts)).port (otherPort p)
  rw [State.modPort_line, Line.modPort_port_other _ _ _ _ (otherPort_ne p)] at k
  exact k

theorem State.reloaded_sameLines (u : State) (c : Caller) (p : Port) (sts : List Station) :
    SameLines u.line (u.reloaded c p sts).line :=
  (Line.modPort_sameLines (p := p) (f := fun ps => ps.reload sts) ⟨rfl, rfl, rfl, rfl, List.suffix_refl _⟩).trans
    (State.run_queuesOnly (u.modPort p fun ps => ps.reload sts) (stationsTaken c p (u.port p).stations sts)).sameLines

/-- The entries of a LOAD_STATIONS and the check of the table that they make. -/
theorem stationEntries (s : State) (p : Port) (pl : List Byte) (tables : Nat → List Station)
    (h0 : tables 0 = (s.port p).stations) :
    ((∀ i, i < u8 pl 1 → stationEntry pl p (s.port (otherPort p)).stations (s.garage.mode == .service) (2 + 2 * i) (tables i)
        = .ok (tables (i + 1))) →
      s.loadedStations p pl = if tableStands p (tables (u8 pl 1)) then .ok (tables (u8 pl 1)) else .error (.notApplicable, 0)) ∧
    (∀ k r, k < u8 pl 1 → (∀ i, i < k →
        stationEntry pl p (s.port (otherPort p)).stations (s.garage.mode == .service) (2 + 2 * i) (tables i)
          = .ok (tables (i + 1))) →
      stationEntry pl p (s.port (otherPort p)).stations (s.garage.mode == .service) (2 + 2 * k) (tables k) = .error r →
      s.loadedStations p pl = .error (r, k + 1)) := by
  refine ⟨fun h => ?_, fun k r hk h he => ?_⟩
  · have made := applyEntries_ok (f := stationEntry pl p (s.port (otherPort p)).stations (s.garage.mode == .service))
      (base := 2) (size := 2) tables (u8 pl 1) 0 fun j _ hj => h j (by omega)
    rw [h0, Nat.zero_add] at made
    unfold State.loadedStations
    rw [made]
  · have stops := applyEntries_error (f := stationEntry pl p (s.port (otherPort p)).stations (s.garage.mode == .service))
      (base := 2) (size := 2) (r := r) tables k (u8 pl 1) 0 hk (fun j _ hj => h j (by omega)) (by rw [Nat.zero_add]; exact he)
    rw [h0, Nat.zero_add] at stops
    unfold State.loadedStations
    rw [stops]

/-- The block once a LOAD_STATIONS of a station of Port S is taken, against the lines with that station's answer. -/
theorem State.reloaded_heard (s : State) (st : Station) (p : Port) (sts : List Station) :
    let w := (s.heard .s st true).reloaded ⟨.s, st.number, st.role⟩ p sts
    w.port p = { ((s.answeredOnS st).port p).reload sts with ownQueue := (w.port p).ownQueue } ∧
      w.port (otherPort p) = { (s.answeredOnS st).port (otherPort p) with ownQueue := (w.port (otherPort p)).ownQueue } := by
  intro w
  refine ⟨((s.heard .s st true).reloaded_port _ p sts).trans ?_,
    ((s.heard .s st true).reloaded_port_other _ p sts).trans ?_⟩
  · rw [s.heard_port st p]; rfl
  · rw [s.heard_port st (otherPort p)]

theorem State.reloaded_awaiting (s : State) (st : Station) (p : Port) (sts : List Station) :
    (((s.heard .s st true).reloaded ⟨.s, st.number, st.role⟩ p sts).port .s).awaiting = (s.port .s).awaiting := by
  obtain ⟨h, ho⟩ := s.reloaded_heard st p sts
  cases p
  · rw [h]; rfl
  · exact (congrArg PortState.awaiting ho).trans rfl

/-- The whole of a LOAD_STATIONS that is taken. -/
theorem AskedBy.stations_next {s : State} {st : Station} (ask : AskedBy s st .office) {flags : Byte} {pl : List Byte} {p : Port}
    {sts : List Station} (hlen : pl.length = 2 + 2 * u8 pl 1) (h48 : pl.length ≤ 48) (h1 : 1 ≤ u8 pl 1) (h8 : u8 pl 1 ≤ 8)
    (hc : u8 pl 0 = portCode p) (h : (s.answeredOnS st).loadedStations p pl = .ok sts) :
    exec (.loadStations .s flags pl) s =
      .next ((((s.heard .s st true).reloaded ⟨.s, st.number, st.role⟩ p sts).finishExchange .s (moreFlag flags)).underHold) := by
  have hg : Passes s Kind.loadStations pl := Passes.of_count hlen h48 (by decide) rfl (by decide)
  exact (ask.office_body (by decide) hg).trans (by rw [loadStationsBody_taken h1 h8 hc (by rw [ask.heard_loads]; exact h)])

/-- What a LOAD_STATIONS that is taken leaves on the lines. -/
theorem AskedBy.stations_lines {s : State} {st : Station} (ask : AskedBy s st .office) (flags : Byte) (p : Port)
    (sts : List Station) :
    let w := (s.heard .s st true).reloaded ⟨.s, st.number, st.role⟩ p sts
    let t := (w.finishExchange .s (moreFlag flags)).underHold
    t.garage = w.garage ∧ t.line.s.awaiting = false ∧ (t.port p).stations = sts ∧
      (t.port (otherPort p)).stations = ((s.answeredOnS st).port (otherPort p)).stations ∧ SameLines s.line t.line ∧
      (s.line.s.hasRoom → t.line.s.carries (replyFrame st Kind.loadStations .taken (w8 sts.length))) := by
  intro w t
  obtain ⟨hp, ho⟩ := s.reloaded_heard st p sts
  have ha : (w.port .s).awaiting = true := (s.reloaded_awaiting st p sts).trans (PortState.polled_awaiting ask.1.2)
  have q := (w.finishExchange_lineQuiet .s (moreFlag flags) ha (fun h => nomatch h)).trans (State.underHold_lineQuiet _)
  have deaf : SameLines w.line (w.modPort .s PortState.deaf).line :=
    Line.modPort_sameLines (p := .s) (f := PortState.deaf) ⟨rfl, rfl, rfl, rfl, List.suffix_refl _⟩
  have stations : ∀ x, ((w.modPort .s PortState.deaf).port x).stations = (w.port x).stations := fun x => by cases x <;> rfl
  refine ⟨q.garage, q.onS.awaiting, ?_, ?_, ?_, fun room => ?_⟩
  · rw [q.stations p, stations, show w.port p = _ from hp]; rfl
  · rw [q.stations (otherPort p), stations, show w.port (otherPort p) = _ from ho]
  · exact (s.heard_answering .s st true).sameLines.trans ((State.reloaded_sameLines _ _ _ _).trans (deaf.trans q.sameLines))
  · obtain ⟨more, hout⟩ := stationsTaken_out ⟨.s, st.number, st.role⟩ p ((s.heard .s st true).port p).stations sts
      (s.heard .s st true).garage
    refine q.onS.carries _ (.inr ⟨⟨replyFrame st Kind.loadStations .taken (w8 sts.length), .plain⟩, ?_, rfl⟩)
    refine State.run_answers ((s.heard .s st true).modPort p fun ps => ps.reload sts) _ st.number Kind.reply _ .plain more hout
      (by decide) ?_
    have room' := s.heard_room .s st true room
    cases p <;> exact room'

/-- What a LOAD_STATIONS that is taken does behind the ports. -/
theorem AskedBy.stations_garage {s : State} {st : Station} (ask : AskedBy s st .office) (p : Port) (sts : List Station) :
    ((s.heard .s st true).reloaded ⟨.s, st.number, st.role⟩ p sts).garage =
      (stationsTaken ⟨.s, st.number, st.role⟩ p ((s.answeredOnS st).port p).stations sts ⟨s.garage, []⟩).g := by
  rw [← s.heard_garage .s st true ask.office_lift]
  have e := congrArg PortState.stations (s.heard_port st p)
  exact congrArg (fun old => (stationsTaken ⟨.s, st.number, st.role⟩ p old sts ⟨(s.heard .s st true).garage, []⟩).g) e

/-- Settles O42: the request by its gates, the table by its entries, and the poll position by the table. -/
theorem stationsLoaded : Obligations.StationsLoaded := by
  refine ⟨fun s st flags pl ask hlen h48 => ?_, fun s p pl => ?_, fun ps sts => ?_,
    fun s st flags pl p sts ask hlen h48 h1 h8 hc hl => ?_⟩
  · intro answers heard
    have hg : Passes s Kind.loadStations pl := Passes.of_count hlen h48 (by decide) rfl (by decide)
    have hp : permits .office Kind.loadStations = true := by decide
    refine ⟨fun h => ask.office_replies hp hg (if_pos h), fun h1 h8 h => ask.office_replies hp hg ?_,
      fun p h1 h8 hc => ⟨fun r pos h => ask.office_replies hp hg (loadStationsBody_refused h1 h8 hc ?_), fun sts h => ?_⟩⟩
    · unfold loadStationsBody
      dsimp only
      rw [if_neg (by omega), portOf_none h]
      rfl
    · rw [ask.heard_loads]; exact h
    · intro gone
      have old : ((s.answeredOnS st).port .g).stations = s.line.g.stations := rfl
      obtain ⟨hgar, ha, hst, ho, hl, hr⟩ := ask.stations_lines flags p sts
      rw [ask.stations_garage] at hgar
      refine ⟨_, ask.stations_next hlen h48 h1 h8 hc h, ha, hst, ho, hl, hr, fun e => ?_, fun e ga gb => ?_, fun e ga gb => ?_,
        fun e ga gb => ?_, fun e ga gb => ?_⟩
      all_goals
        subst e
        rw [hgar]
      · rfl
      · rw [stationsTaken_g, old, loseUnserved_kept ga, loseUnserved_kept gb]; rfl
      · rw [stationsTaken_g, old, loseUnserved_gone ga, loseUnserved_kept gb]; rfl
      · rw [stationsTaken_g, old, loseUnserved_kept ga, loseUnserved_gone gb]; rfl
      · rw [stationsTaken_g, old, loseUnserved_gone ga, loseUnserved_gone gb]; rfl
  · intro elsewhere allowed one
    have hallowed : allowed = allowedCodes p := by cases p <;> rfl
    refine ⟨fun off table => ⟨stationEntry_outside, fun h1 h126 h7 h0 ha => ?_, fun h1 h126 ha he => ?_,
      fun h1 h126 he hn => ⟨stationEntry_removesNone h1 h126 hn, fun r ha hr => ?_⟩, fun x h1 h126 he hx => ?_⟩,
      stationEntries s p pl⟩
    · exact stationEntry_forbidden h1 h126 h7 h0 (hallowed ▸ ha)
    · exact stationEntry_elsewhere h1 h126 (hallowed ▸ ha) he
    · exact stationEntry_new h1 h126 he hn (hallowed ▸ ha) hr
    · intro guarded
      have hguard : guarded ↔ ((s.garage.mode == .service) && x.role.guarded) = true := by
        rw [Bool.and_eq_true, beq_iff_eq, Role.guarded_iff]
      refine ⟨fun h0 hgd => (stationEntry_remove h1 h126 he hx h0).trans (if_pos (hguard.mp hgd)),
        fun h0 hgd => (stationEntry_remove h1 h126 he hx h0).trans (if_neg fun h => hgd (hguard.mpr h)), fun r ha hr =>
        ⟨fun hgd hne => (stationEntry_change h1 h126 he hx (hallowed ▸ ha) hr).trans (if_pos ⟨hguard.mp hgd, hne⟩),
        fun hor => (stationEntry_change h1 h126 he hx (hallowed ▸ ha) hr).trans (if_neg fun h => ?_)⟩⟩
      exact hor.elim (fun hgd => hgd (hguard.mpr h.1)) h.2
  · refine ⟨rfl, fun a x rest b y c ho ha hs hy hb => ?_, movedPosition_none, fun hv => ?_, fun v hv => ?_⟩
    · subst hs
      exact movedPosition_first ho ha hy hb
    · show ps.visit.bind _ = none
      rw [hv]
      rfl
    · have e : (ps.reload sts).visit = v.reload ps.awaiting sts := by
        show ps.visit.bind _ = _
        rw [hv]
        rfl
      rw [e]
      refine ⟨Visit.reload_stays, fun ha h => ?_, fun ha h => ?_⟩ <;> rw [Visit.reload_gone h, ha] <;> rfl
  · exact ⟨_, ask.stations_next hlen h48 h1 h8 hc hl, s.reloaded_heard st p sts⟩

end Sys2Proof.Machine

namespace Sys2Proof.Machine

/-! ### Both lifts lost as Port G is turned off (R22, R120 ❹) -/

/-- The states of the lifts and of the convoy channels are the same. -/
structure Garage.SameStates (g k : Garage) : Prop where
  lift : ∀ l, (k.lift l).state = (g.lift l).state
  chan : ∀ c, (k.chan c).state = (g.chan c).state

theorem Garage.SameStates.refl (g : Garage) : g.SameStates g := ⟨fun _ => rfl, fun _ => rfl⟩

theorem Garage.SameStates.trans {a b c : Garage} (h : a.SameStates b) (k : b.SameStates c) : a.SameStates c :=
  ⟨fun l => (k.lift l).trans (h.lift l), fun d => (k.chan d).trans (h.chan d)⟩

theorem Garage.modLift_sameStates (g : Garage) (l : Lift) (f : LiftUnit → LiftUnit) (h : ∀ u, (f u).state = u.state) :
    g.SameStates (g.modLift l f) := by
  refine ⟨fun k => ?_, fun c => by rw [Garage.modLift_chan]⟩
  by_cases e : k = l
  · subst e; rw [Garage.modLift_lift, h]
  · rw [Garage.modLift_lift_other _ _ _ _ e]

theorem Garage.modChan_sameStates (g : Garage) (c : Chan) (f : Channel → Channel) (h : ∀ u, (f u).state = u.state) :
    g.SameStates (g.modChan c f) := by
  refine ⟨fun l => by rw [Garage.modChan_lift], fun d => ?_⟩
  by_cases e : d = c
  · subst e; rw [Garage.modChan_chan, h]
  · rw [Garage.modChan_chan_other _ _ _ _ e]

theorem Releases.sameStates {g k : Garage} (h : Releases g k) : g.SameStates k := by
  obtain ⟨b, t, rfl⟩ := h.rest
  exact ⟨fun l => by cases l <;> rfl, fun c => by cases c <;> rfl⟩

theorem Garage.endPlan_sameStates (g : Garage) (l : Lift) (p : Plan) : g.SameStates (g.endPlan l p) := by
  unfold Garage.endPlan
  dsimp only
  refine ((releaseRelocs_releases p.relocs g).sameStates.trans ?_).trans
    (Garage.modLift_sameStates _ _ _ fun u => by split <;> rfl)
  split
  · exact Garage.modLift_sameStates _ _ _ fun u => rfl
  · exact .refl _

theorem Garage.returnTarget_sameStates (g : Garage) (n : Nat) : g.SameStates (g.returnTarget n) := by
  refine ⟨fun l => by rw [returnTarget_lift], fun c => ?_⟩
  unfold Garage.returnTarget Garage.modChan
  (repeat' split) <;> cases c <;> rfl

theorem Garage.dropPlan_sameStates (g : Garage) (l : Lift) : g.SameStates (g.dropPlan l) := by
  unfold Garage.dropPlan
  refine Garage.SameStates.trans ?_ (Garage.modLift_sameStates _ _ _ fun u => rfl)
  split
  · exact (g.endPlan_sameStates l _).trans (Garage.returnTarget_sameStates _ _)
  · exact .refl g

/-- A lift that is lost is not READY; nothing else of the lifts' and channels' states changes. -/
theorem Garage.loseLift_states (g : Garage) (l : Lift) : ((g.loseLift l).lift l).state ≠ .ready ∧
    (∀ k, k ≠ l → ((g.loseLift l).lift k).state = (g.lift k).state) ∧
    ∀ c, ((g.loseLift l).chan c).state = (g.chan c).state := by
  have stops : ((g.stopIdleLift l .offline).lift l).state ≠ .ready ∧
      (∀ k, k ≠ l → ((g.stopIdleLift l .offline).lift k).state = (g.lift k).state) ∧
      ∀ c, ((g.stopIdleLift l .offline).chan c).state = (g.chan c).state := by
    have d : (g.stopLift l .offline).SameStates (g.stopIdleLift l .offline) := Garage.dropPlan_sameStates _ l
    have block : g.SameStates (match (g.lift l).tenure with
        | some (.channel c) => g.clearBlock c
        | _ => g) := by
      split
      · exact Garage.modChan_sameStates _ _ _ fun u => rfl
      · exact .refl g
    refine ⟨?_, fun k hk => ?_, fun c => ?_⟩
    · rw [d.lift, Garage.stopLift, Garage.modLift_lift]
      simp
    · rw [d.lift, Garage.stopLift, Garage.modLift_lift_other _ _ _ _ hk]
      exact block.lift k
    · rw [d.chan, Garage.stopLift, Garage.modLift_chan]
      exact block.chan c
  unfold Garage.loseLift
  split
  · exact stops
  · exact stops
  · rename_i h _
    exact ⟨h, fun _ _ => rfl, fun _ => rfl⟩

/-- Both lifts lost with both channels IDLE leave no work. -/
theorem Garage.loseBoth_resting {g : Garage} (h0 : g.chan0.state = .idle) (h1 : g.chan1.state = .idle) :
    ((g.loseLift .a).loseLift .b).Resting := by
  obtain ⟨a, -, ac⟩ := g.loseLift_states .a
  obtain ⟨b, bo, bc⟩ := (g.loseLift .a).loseLift_states .b
  exact ⟨(bo .a (by decide)).trans_ne a, b, ((bc .c0).trans (ac .c0)).trans h0, ((bc .c1).trans (ac .c1)).trans h1⟩

/-- With both convoy channels IDLE, the loss of both lifts sends nothing. -/
theorem settle_loseBoth_out {g : Garage} (h0 : g.chan0.state = .idle) (h1 : g.chan1.state = .idle) :
    (settle ⟨(g.loseLift .a).loseLift .b, []⟩).out = [] := by
  rw [settle_resting _ (Garage.loseBoth_resting h0 h1)]
  rfl

/-! ### Line settings taking effect (R22) -/

/-- A port with the settings of a SET_LINE. -/
def PortState.withSettings (r : LineRequest) (a : PortState) : PortState := { a with settings := r.settings }

section
variable (s : State) {r : LineRequest}

theorem State.applyLine_s (h : r.port = .s) : s.applyLine r = s.modPort .s (PortState.withSettings r) := by
  unfold State.applyLine
  rw [h]
  rfl

variable (h : r.port = .g)
include h

theorem State.applyLine_g : s.applyLine r =
    let s' := s.modPort .g (PortState.withSettings r)
    if r.enable then
      if s.line.g.mode = .disabled then s'.modPort .g fun ps => { ps.refresh with mode := .running } else s'
    else if s.line.g.mode = .disabled then s'
    else State.run { s' with line := s'.line.disableG } fun e => settle (e.modG fun g => (g.loseLift .a).loseLift .b) := by
  unfold State.applyLine
  rw [h]
  rfl

theorem State.applyLine_kept (he : r.enable = true ∧ s.line.g.mode ≠ .disabled ∨ r.enable = false ∧ s.line.g.mode = .disabled) :
    s.applyLine r = s.modPort .g (PortState.withSettings r) := by
  rw [s.applyLine_g h]
  rcases he with ⟨he, hm⟩ | ⟨he, hm⟩ <;> simp [he, hm]

theorem State.applyLine_started (he : r.enable = true) (hm : s.line.g.mode = .disabled) : s.applyLine r =
    s.modPort .g fun a => { (PortState.withSettings r a).refresh with mode := .running } := by
  rw [s.applyLine_g h]
  simp only [he, hm, if_true]
  rfl

/-- The lines as Port G is turned off. -/
def Line.turnedOff (ln : Line) (r : LineRequest) : Line := (ln.modPort .g (PortState.withSettings r)).disableG

theorem State.applyLine_off (he : r.enable = false) (hm : s.line.g.mode ≠ .disabled) : s.applyLine r =
    let e := settle ⟨(s.garage.loseLift .a).loseLift .b, []⟩
    { s with garage := e.g, line := e.out.foldl Line.queueOut (s.line.turnedOff r) } := by
  rw [s.applyLine_g h]
  simp only [he, hm, if_false, Bool.false_eq_true]
  rfl

end

end Sys2Proof.Machine

namespace Sys2Proof.Machine

/-! ### Own queues give up frames from their heads alone -/

theorem PortState.enterHold_ownQueue (a : PortState) : a.enterHold.ownQueue = a.ownQueue := by
  unfold PortState.enterHold
  show a.cutVisit.ownQueue = a.ownQueue
  rw [a.cutVisit_pollsOnly.eq]

theorem PortState.sendNext_ownQueue (a : PortState) (hold : Bool) : (a.sendNext hold).ownQueue <:+ a.ownQueue := by
  rcases a.sendNext_cases hold with e | ⟨-, e | ⟨left, -, ⟨q, own, k, ho, -, e⟩ | ⟨f, rest, -, e⟩⟩⟩
  · rw [e]
  · rw [e]
  · rw [e, ho]; exact List.suffix_cons q own
  · rw [e]

theorem State.sendNext_ownQueue (s : State) (p q : Port) : ((s.sendNext p).port q).ownQueue <:+ (s.port q).ownQueue := by
  have k : (s.enterHold.port q).ownQueue = (s.port q).ownQueue := by
    rw [State.enterHold_port]
    split
    · exact PortState.enterHold_ownQueue _
    · rfl
  rw [State.sendNext_port, ← k]
  split
  · rename_i h
    subst h
    exact PortState.sendNext_ownQueue _ _
  · exact List.suffix_refl _

theorem State.beginTurn_ownQueue (s : State) (p q : Port) : ((s.beginTurn p).port q).ownQueue <:+ (s.port q).ownQueue := by
  have k := State.sendNext_ownQueue (s.modPort p fun ps => { ps with turnLeft := 2 }) p q
  cases p <;> cases q <;> exact k

theorem State.underHold_ownQueue (s : State) (q : Port) : (s.underHold.port q).ownQueue <:+ (s.port q).ownQueue := by
  unfold State.underHold
  split
  · exact (State.sendNext_ownQueue _ .g q).trans (s.sendNext_ownQueue .s q)
  · exact List.suffix_refl _

theorem PortState.visitOver_ownQueue (a : PortState) (again : Bool) :
    (if again then a.deaf else a.deaf.endVisit).ownQueue = a.ownQueue := by
  split
  · rfl
  · rw [(PortState.endVisit_pollsOnly _).eq]
    rfl

theorem State.finishExchange_ownQueue (s : State) {p : Port} (more : Bool) (hd : NothingDue s p) (q : Port) :
    ((s.finishExchange p more).port q).ownQueue <:+ (s.port q).ownQueue := by
  unfold State.finishExchange
  dsimp only
  split
  · rw [State.applyDue_nothing (by cases p <;> exact hd)]
    refine (State.beginTurn_ownQueue _ p q).trans ?_
    by_cases e : q = p
    · subst e
      rw [State.modPort_port]
      exact Eq.subst (motive := fun l => l <:+ (s.port q).ownQueue) (PortState.visitOver_ownQueue (s.port q) _).symm
        (List.suffix_refl _)
    · rw [State.modPort_port_other _ _ _ _ e]
  · exact List.suffix_refl _

/-! ### Tallies -/

theorem tallyUp_eq_tallyAdd (n : Nat) : tallyUp n = tallyAdd n 1 := by
  unfold tallyUp tallyAdd Config.max16; split <;> omega

theorem tallyAdd_tallyAdd (n a b : Nat) : tallyAdd (tallyAdd n a) b = tallyAdd n (a + b) := by
  unfold tallyAdd Config.max16; omega

theorem tallyAdd_mono (n : Nat) {a b : Nat} (h : a ≤ b) : tallyAdd n a ≤ tallyAdd n b := by
  unfold tallyAdd Config.max16; omega

/-! ### The settings of Port G, taken (R22, R120 ❹) -/

/-- Frames that are no REPLY leave a DISABLED Port G as it is (R13). -/
theorem Line.queueAll_disabled {outs : List Out} {ln : Line} (hm : ln.g.mode = .disabled)
    (ho : ∀ o ∈ outs, ∀ p n, o.dest ≠ .reply p n) : (outs.foldl Line.queueOut ln).g = ln.g := by
  have one : ∀ (ln : Line) (o : Out), ln.g.mode = .disabled → (∀ p n, o.dest ≠ .reply p n) → (ln.queueOut o).g = ln.g := by
    intro ln o hm ho
    have sends : ∀ n, (ln.sendTo n o).g = ln.g := fun n => by
      unfold Line.sendTo Line.reaches
      by_cases hs : ln.s.hasStation n = true
      · simp only [hs, if_true]; exact Line.enqueue_s_g _ _
      · simp [hs, hm, Line.dropNotice]
    unfold Line.queueOut
    split
    · rename_i p n h; exact absurd h (ho p n)
    · exact sends _
    · split
      · exact sends _
      · rfl
  induction outs generalizing ln with
  | nil => rfl
  | cons o rest ih =>
    have e := one ln o hm (ho o List.mem_cons_self)
    rw [List.foldl_cons, ih (by rw [e]; exact hm) fun x hx => ho x (List.mem_cons_of_mem _ hx), e]

/-- What the settings of a SET_LINE for Port G have brought about since `a`, by the enable flag. -/
structure GSettingsTaken (a : State) (r : LineRequest) (t : State) : Prop where
  settings : t.line.g.settings = r.settings
  due : t.line.lineDueG = a.line.lineDueG
  enabled : r.enable = true → t.garage = a.garage
  stays : r.enable = true → a.line.g.mode ≠ .disabled →
    t.line.g.mode = a.line.g.mode ∧ t.line.g.stations = a.line.g.stations
  starts : r.enable = true → a.line.g.mode = .disabled → t.line.g.mode = .running ∧
    t.line.g.stations = a.line.g.stations.map fun x => { x with poll := .active, misses := 0, skips := 0 }
  off : r.enable = false → a.line.g.mode = .disabled → t.line.g.mode = .disabled ∧ t.garage = a.garage
  turnsOff : r.enable = false → a.line.g.mode ≠ .disabled →
    t.line.g.mode = .disabled ∧ t.line.g.ownQueue = [] ∧ t.line.g.transitQueue = [] ∧
    t.line.g.dropTally = tallyAdd a.line.g.dropTally a.line.g.transitQueue.length ∧
    tallyAdd a.line.noticeDrops a.line.g.ownQueue.length ≤ t.line.noticeDrops ∧
    (a.garage.chan0.state = .idle → a.garage.chan1.state = .idle →
      t.line.noticeDrops = tallyAdd a.line.noticeDrops a.line.g.ownQueue.length) ∧
    t.garage = ((a.garage.loseLift .a).loseLift .b).afterwards

/-- Polls and sends after the settings have taken effect leave that as it is. -/
theorem GSettingsTaken.quiet {a w t : State} {r : LineRequest} (h : GSettingsTaken a r w) (q : LineQuiet w t)
    (own : t.line.g.ownQueue <:+ w.line.g.ownQueue) : GSettingsTaken a r t where
  settings := q.onG.same.settings.trans h.settings
  due := q.due.trans h.due
  enabled he := q.garage.trans (h.enabled he)
  stays he hm := by rw [q.onG.same.mode, q.onG.stations]; exact h.stays he hm
  starts he hm := by rw [q.onG.same.mode, q.onG.stations]; exact h.starts he hm
  off he hm := by rw [q.onG.same.mode, q.garage]; exact h.off he hm
  turnsOff he hm := by
    obtain ⟨h1, h2, h3, h4, h5, h6, h7⟩ := h.turnsOff he hm
    have ht := q.onG.same.transit
    rw [h2] at own
    rw [h3] at ht
    rw [q.onG.same.mode, q.onG.same.dropTally, q.notices, q.garage]
    exact ⟨h1, List.suffix_nil.mp own, List.suffix_nil.mp ht, h4, h5, h6, h7⟩

theorem State.applyLine_taken (a : State) {r : LineRequest} (h : r.port = .g) : GSettingsTaken a r (a.applyLine r) := by
  cases he : r.enable with
  | true =>
    have no : ∀ {P : Prop}, r.enable = false → P := fun k => by rw [he] at k; cases k
    by_cases hm : a.line.g.mode = .disabled
    · rw [a.applyLine_started h he hm]
      exact ⟨rfl, rfl, fun _ => rfl, fun _ k => absurd hm k, fun _ _ => ⟨rfl, rfl⟩, no, no⟩
    · rw [a.applyLine_kept h (.inl ⟨he, hm⟩)]
      exact ⟨rfl, rfl, fun _ => rfl, fun _ _ => ⟨rfl, rfl⟩, fun _ k => absurd k hm, no, no⟩
  | false =>
    have no : ∀ {P : Prop}, r.enable = true → P := fun k => by rw [he] at k; cases k
    by_cases hm : a.line.g.mode = .disabled
    · rw [a.applyLine_kept h (.inr ⟨he, hm⟩)]
      exact ⟨rfl, rfl, no, no, no, fun _ _ => ⟨hm, rfl⟩, fun _ k => absurd hm k⟩
    · rw [a.applyLine_off h he hm]
      have told := (settle_works ⟨(a.garage.loseLift .a).loseLift .b, []⟩).told
      have hg := Line.queueAll_disabled (ln := a.line.turnedOff r) rfl fun o ho => (told o ho).resolve_left (by simp)
      have q := Line.queueAll_queuesOnly (settle ⟨(a.garage.loseLift .a).loseLift .b, []⟩).out (a.line.turnedOff r)
      have hn := Line.queueAll_notices (settle ⟨(a.garage.loseLift .a).loseLift .b, []⟩).out (a.line.turnedOff r)
      refine ⟨congrArg PortState.settings hg, q.due, no, no, no, fun _ k => absurd k hm, fun _ _ =>
        ⟨congrArg PortState.mode hg, congrArg PortState.ownQueue hg, congrArg PortState.transitQueue hg,
          congrArg PortState.dropTally hg, hn, fun h0 h1 => ?_, settle_g _⟩⟩
      dsimp only
      rw [settle_loseBoth_out h0 h1]
      rfl

end Sys2Proof.Machine

namespace Sys2Proof.Machine

/-! ### A REPLY that cannot be queued (R14, R22, R44) -/

theorem Line.takes_iff (ln : Line) (kind : Byte) : ln.takes .s kind = true ↔ ln.s.hasRoom := by
  unfold Line.takes PortState.hasRoom holdsAlert Config.ownCapacityS
  simp

/-- A frame that finds no room in Port S's own queue is counted on the notice drop tally (R14). -/
theorem Line.enqueue_s_lost {ln : Line} (h : ¬ ln.s.hasRoom) (q : QFrame) : ln.enqueue .s q = ln.dropNotice := by
  unfold Line.enqueue
  rw [if_neg fun k => h ((ln.takes_iff _).mp k)]

/-- The office station is heard while Port S's own queue has no room: a STATION_BACK is counted as lost. -/
theorem AskedBy.unheard_line {s : State} {st : Station} (ask : AskedBy s st .office) (full : ¬ s.line.s.hasRoom) :
    (s.heard .s st true).line = { s.line with
      s := { s.line.s with stations := s.line.s.answeredBy st }
      noticeDrops := if st.poll = .silent then tallyUp s.line.noticeDrops else s.line.noticeDrops } := by
  have hst : st ∈ s.line.s.stations := List.mem_of_find?_eq_some (PortState.station_of_polled ask.1.2)
  by_cases hb : st.poll = .silent
  · obtain ⟨q, hq⟩ := s.heard_back hb hst ask.2
    rw [hq, Line.enqueue_s_lost (ln := { s.line with s := { s.line.s with stations := s.line.s.answeredBy st } }) full, if_pos hb]
    rfl
  · have e : (s.heard .s st true).line = List.foldl Line.queueOut (s.line.modPort .s fun ps => ps.modStation st.number fun x =>
        { x with misses := 0, poll := .active, skips := if st.poll == .silent then 0 else x.skips })
        (heardEv .s st true ⟨s.garage, []⟩).out := rfl
    have ho : (heardEv .s st true ⟨s.garage, []⟩).out = [] := by rw [heardEv_out, if_neg (by simpa using hb)]
    rw [e, ho, if_neg hb]
    simp only [List.foldl_nil, Line.modPort, PortState.modStation, PortState.answeredBy, beq_iff_eq]

/-- The office station is heard, and the part's REPLY to it cannot be queued: the REPLY is counted as lost, and a
STATION_BACK before it. -/
theorem AskedBy.unheard {s : State} {st : Station} (ask : AskedBy s st .office) (full : ¬ s.line.s.hasRoom) {f : Ev → Ev}
    {n : Nat} {kind : Byte} {payload : List Byte} {m : Mark}
    (hf : f ⟨s.garage, []⟩ = ⟨s.garage, [⟨.reply .s n, kind, payload, m⟩]⟩) :
    (s.heard .s st true).run f = { s with line := { s.line with
      s := { s.line.s with stations := s.line.s.answeredBy st }
      noticeDrops := tallyAdd s.line.noticeDrops (if st.poll = .silent then 2 else 1) } } := by
  have hg := s.heard_garage .s st true ask.office_lift
  have line := ask.unheard_line full
  have lost : (s.heard .s st true).line.enqueue .s ⟨originated n kind payload, m⟩ = (s.heard .s st true).line.dropNotice :=
    Line.enqueue_s_lost (by rw [line]; exact full) _
  have e : (s.heard .s st true).run f =
      { s.heard .s st true with garage := s.garage, line := (s.heard .s st true).line.dropNotice } := by
    unfold State.run
    rw [hg, hf]
    exact congrArg (fun ln => ({ s.heard .s st true with garage := s.garage, line := ln } : State)) lost
  have ht : tallyUp (if st.poll = .silent then tallyUp s.line.noticeDrops else s.line.noticeDrops) =
      tallyAdd s.line.noticeDrops (if st.poll = .silent then 2 else 1) := by
    split
    · rw [tallyUp_eq_tallyAdd, tallyUp_eq_tallyAdd, tallyAdd_tallyAdd]
    · rw [tallyUp_eq_tallyAdd]
  rw [e, line, ← ht]
  rfl

/-- A REPLY with a mark joins Port S's own queue, and the office station's request is over. -/
theorem AskedBy.marked_reply {s : State} {st : Station} (ask : AskedBy s st .office) (room : s.line.s.hasRoom) {f : Ev → Ev}
    {kind : Byte} {r : Result} {detail : List Byte} {m : Mark}
    (hf : f ⟨s.garage, []⟩ = ⟨s.garage, [⟨.reply .s st.number, Kind.reply, kind :: BitVec.ofNat 8 r.code :: detail, m⟩]⟩)
    (more : Bool) : let t := (((s.heard .s st true).run f).finishExchange .s more).underHold
    t.garage = s.garage ∧ HeardS s t st ∧ t.line.s.holds ⟨replyFrame st kind r detail, m⟩ := by
  intro t
  have hg := Garage.heardAs_none s.garage ask.office_lift
  have o := ask.1.event_over (p := .s) (fun h => nomatch h) f more
  refine ⟨by rw [o.garage, hg, hf], o.exchange.heard, o.exchange.quiet.onS.holds _ (.inr ?_)⟩
  exact State.run_answers (s.heard .s st true) f st.number Kind.reply _ m []
    (by rw [s.heard_garage .s st true ask.office_lift, hf]) (by decide) (s.heard_room .s st true room)

/-! ### SET_LINE (R2, R22) -/

theorem parityOf_none {n : Nat} (h : 2 < n) : parityOf n = none := by
  unfold parityOf; split <;> first | omega | rfl

theorem parityOf_code {n : Nat} {par : Parity} (h : n = parityCode par) : parityOf n = some par := by
  subst h; cases par <;> rfl

theorem parityOf_some {n : Nat} (h : n ≤ 2) : ∃ par, parityOf n = some par := by
  obtain rfl | rfl | rfl : n = 0 ∨ n = 1 ∨ n = 2 := by omega
  all_goals exact ⟨_, rfl⟩

/-- The values that a SET_LINE will use, by their ranges (R2). -/
theorem lineValues_eq (pl : List Byte) (par : Parity) :
    lineValues pl par = ⟨u8 pl 1 % 8, min (u8 pl 2) 240, par, min (max (u8 pl 4) 4) 64⟩ := by
  unfold lineValues
  rw [clamp_eq_min (by decide)]
  rfl

theorem flag8_iff (pl : List Byte) (i : Nat) : flag8 pl i = true ↔ u8 pl i ≠ 0 := by simp [flag8]

/-- The event of a SET_LINE that is taken. -/
def lineTakenEv (c : Caller) (r : LineRequest) (e : Ev) : Ev :=
  e.replyMarked c Kind.setLine .taken (lineDetail r) (.lineReply r)

theorem State.setLineTaken_queued {u : State} {c : Caller} (hc : c.port = .s) (h : u.line.s.hasRoom) (r : LineRequest) :
    u.setLineTaken c r = u.run (lineTakenEv c r) := by
  unfold State.setLineTaken
  dsimp only
  rw [if_pos (by rw [hc]; exact (u.line.takes_iff _).mpr h)]
  rfl

theorem State.setLineTaken_lost {u : State} {c : Caller} (hc : c.port = .s) (h : ¬ u.line.s.hasRoom) (r : LineRequest) :
    u.setLineTaken c r = (u.run (lineTakenEv c r)).lineRequestDue r := by
  unfold State.setLineTaken
  dsimp only
  rw [if_neg (by rw [hc]; exact fun k => h ((u.line.takes_iff _).mp k))]
  rfl

/-- A SET_LINE is taken for a port that stays enabled, and for Port G in COMMISSIONING whatever its enable flag. -/
theorem setLineBody_taken {c : Caller} {pl : List Byte} {u : State} {p : Port} {par : Parity} (hp : u8 pl 0 = portCode p)
    (hpar : u8 pl 3 = parityCode par) (h : u8 pl 5 ≠ 0 ∨ (p = .g ∧ u.garage.mode = .commissioning)) :
    setLineBody c pl u = u.setLineTaken c ⟨p, lineValues pl par, decide (u8 pl 5 ≠ 0)⟩ := by
  unfold setLineBody
  rw [portOf_code hp, parityOf_code hpar]
  dsimp only
  by_cases h5 : u8 pl 5 ≠ 0
  · rw [if_pos ((flag8_iff pl 5).mpr h5), decide_eq_true h5]
  · obtain ⟨rfl, hm⟩ := h.resolve_left h5
    rw [if_neg (fun k => h5 ((flag8_iff pl 5).mp k)), decide_eq_false h5]
    dsimp only
    rw [if_neg (by rw [hm]; decide)]

end Sys2Proof.Machine

namespace Sys2Proof.Machine

/-- The block as the office station's request is heard and its REPLY is lost. -/
def State.unanswered (s : State) (st : Station) : State :=
  { s with line := { s.line with
    s := { s.line.s with stations := s.line.s.answeredBy st }
    noticeDrops := tallyAdd s.line.noticeDrops (if st.poll = .silent then 2 else 1) } }

/-- A SET_LINE that is taken while its REPLY cannot be queued. -/
theorem AskedBy.setLine_lost {s : State} {st : Station} (ask : AskedBy s st .office) (full : ¬ s.line.s.hasRoom)
    (r : LineRequest) :
    (s.heard .s st true).setLineTaken ⟨.s, st.number, st.role⟩ r = (s.unanswered st).lineRequestDue r := by
  rw [State.setLineTaken_lost rfl (by rw [ask.unheard_line full]; exact full),
    ask.unheard full (f := lineTakenEv ⟨.s, st.number, st.role⟩ r) rfl]
  rfl

/-- An exchange of the office station from which nothing but its answer and counted losses have come, since `s'`. -/
theorem Answering.of_lines {s s' w : State} {st : Station} (hw : w.powered = s'.powered) (hs : w.storeHeld = s'.storeHeld)
    (hp : w.pending = s'.pending) (hst : s'.line.s.stations = s.line.s.stations)
    (hl : w.line = { s'.line with
      s := { s'.line.s with stations := s.line.s.answeredBy st }, noticeDrops := w.line.noticeDrops }) :
    Answering .s s' w (s.line.s.answeredBy st) := by
  refine ⟨hw, hs, hp, ⟨?_⟩, ?_⟩
  · rw [hl]; rfl
  · rw [PortState.answeredBy_number]; exact congrArg _ hst.symm

/-- Settings for Port G leave Port S as it was, but for frames in its own queue. -/
theorem State.applyLine_port_s (x : State) {r : LineRequest} (h : r.port = .g) :
    (x.applyLine r).line.s = { x.line.s with ownQueue := (x.applyLine r).line.s.ownQueue } := by
  by_cases hm : x.line.g.mode = .disabled <;> cases he : r.enable
  · rw [x.applyLine_kept h (.inr ⟨he, hm⟩)]; rfl
  · rw [x.applyLine_started h he hm]; rfl
  · rw [x.applyLine_off h he hm]
    exact (Line.queueAll_queuesOnly _ (x.line.turnedOff r)).port .s
  · rw [x.applyLine_kept h (.inl ⟨he, hm⟩)]; rfl

/-- The exchange of Port S ends once the settings of Port G have taken effect. -/
theorem State.applyLine_over (x : State) {r : LineRequest} (h : r.port = .g) (ha : x.line.s.awaiting = true) (more : Bool) :
    let t := ((x.applyLine r).finishExchange .s more).underHold
    t.line.s.awaiting = false ∧ t.line.s.stations = x.line.s.stations ∧ GSettingsTaken x r t := by
  intro t
  have hs := x.applyLine_port_s h
  have hw : ((x.applyLine r).port .s).awaiting = true := (congrArg PortState.awaiting hs).trans ha
  have q := ((x.applyLine r).finishExchange_lineQuiet .s more hw (fun h => nomatch h)).trans (State.underHold_lineQuiet _)
  have k := x.applyLine_taken h
  have k' : GSettingsTaken x r ((x.applyLine r).modPort .s PortState.deaf) :=
    ⟨k.settings, k.due, k.enabled, k.stays, k.starts, k.off, k.turnsOff⟩
  have own : t.line.g.ownQueue <:+ (x.applyLine r).line.g.ownQueue :=
    (State.underHold_ownQueue _ .g).trans (State.finishExchange_ownQueue (p := .s) _ more (fun h => nomatch h) .g)
  have hst : (x.applyLine r).line.s.stations = x.line.s.stations := by rw [hs]
  exact ⟨q.onS.awaiting, q.onS.stations.trans hst, k'.quiet q own⟩

/-! ### The warm start of a RESTART (R44) -/

theorem foldl_emit_g (outs : List Out) (e : Ev) : (outs.foldl Ev.emit e).g = e.g := by
  induction outs generalizing e with
  | nil => rfl
  | cons o rest ih => exact ih _

theorem warmEffects_g (e : Ev) : (warmEffects e).g = e.g.warm := by
  unfold warmEffects
  dsimp only
  rw [foldl_emit_g]
  split <;> rfl

theorem restartBody_queued {u : State} {c : Caller} (hc : c.port = .s) (h : u.line.s.hasRoom) (pl : List Byte) :
    restartBody c pl u = u.run fun e => e.replyMarked c Kind.restart .taken [] .restartReply := by
  unfold restartBody
  rw [if_pos (by rw [hc]; exact (u.line.takes_iff _).mpr h)]

theorem restartBody_lost {u : State} {c : Caller} (hc : c.port = .s) (h : ¬ u.line.s.hasRoom) (pl : List Byte) :
    restartBody c pl u = u.warmStart := by
  unfold restartBody
  rw [if_neg (by rw [hc]; exact fun k => h ((u.line.takes_iff _).mp k))]

/-- After a warm start no exchange is in progress. -/
theorem State.warmStart_awaiting (u : State) (p : Port) : (u.warmStart.port p).awaiting = false := by
  have q := (State.run_queuesOnly { u with line := u.line.warm } warmEffects).port p
  rw [show u.warmStart.port p = _ from q]
  cases p <;> rfl

theorem AskedBy.restart_lost {s : State} {st : Station} (ask : AskedBy s st .office) (more : Bool) :
    let t := ((s.heard .s st true).warmStart.finishExchange .s more).underHold
    t.garage = s.garage.warm ∧ t.line.s.awaiting = false ∧ t.line.g.awaiting = false := by
  intro t
  have e : (s.heard .s st true).warmStart.finishExchange .s more = (s.heard .s st true).warmStart := by
    unfold State.finishExchange
    dsimp only
    rw [if_neg (by rw [State.warmStart_awaiting]; simp)]
  have q := State.underHold_lineQuiet (s.heard .s st true).warmStart
  rw [← e] at q
  refine ⟨?_, q.onS.awaiting.trans ?_, q.onG.awaiting.trans ?_⟩
  · rw [q.garage, e, ← s.heard_garage .s st true ask.office_lift]
    exact warmEffects_g _
  · rw [e]; exact State.warmStart_awaiting _ .s
  · rw [e]; exact State.warmStart_awaiting _ .g

/-! ### STATUS_CLEAR (R23) -/

/-- What a STATUS_CLEAR comes to on the lines. -/
theorem AskedBy.clear_over {s : State} {st : Station} (ask : AskedBy s st .office) (more : Bool) :
    let w := statusClearBody ⟨.s, st.number, st.role⟩ [] (s.heard .s st true)
    let t := (w.finishExchange .s more).underHold
    t.garage = s.garage ∧ t.line.s.awaiting = false ∧ t.line.s.stations = s.line.s.answeredBy st ∧
      t.line.g.stations = s.line.g.stations ∧ t.line.s.faultTally = 0 ∧ t.line.s.dropTally = 0 ∧
      t.line.g.faultTally = 0 ∧ t.line.g.dropTally = 0 ∧
      (s.line.s.ownQueue.length < 47 → t.line.noticeDrops = 0 ∧
        t.line.s.carries (replyFrame st Kind.statusClear .taken [])) := by
  intro w t
  obtain ⟨-, hst, hg, ha, -⟩ := s.heard_s st true
  have hgst : (s.heard .s st true).line.g.stations = s.line.g.stations := by rw [hg]
  have k := State.run_queuesOnly { s.heard .s st true with line := (s.heard .s st true).line.clearTallies }
    fun e => e.reply ⟨.s, st.number, st.role⟩ Kind.statusClear .taken []
  have ks := k.port .s
  have kg := k.port .g
  have hw : (w.port .s).awaiting = true := by
    rw [show w.port .s = _ from ks]
    exact ha.trans (PortState.polled_awaiting ask.1.2)
  have q := (w.finishExchange_lineQuiet .s more hw (fun h => nomatch h)).trans (State.underHold_lineQuiet _)
  refine ⟨q.garage.trans (s.heard_garage .s st true ask.office_lift), q.onS.awaiting,
    q.onS.stations.trans ((congrArg PortState.stations ks).trans hst),
    q.onG.stations.trans ((congrArg PortState.stations kg).trans hgst),
    q.onS.same.faultTally.trans (congrArg PortState.faultTally ks),
    q.onS.same.dropTally.trans (congrArg PortState.dropTally ks),
    q.onG.same.faultTally.trans (congrArg PortState.faultTally kg),
    q.onG.same.dropTally.trans (congrArg PortState.dropTally kg), fun hl => ?_⟩
  have hlen := s.heard_length .s st true
  have hroom : (s.heard .s st true).line.clearTallies.s.ownQueue.length < 48 := by
    show (s.heard .s st true).line.s.ownQueue.length < 48
    omega
  have e : w.line = (s.heard .s st true).line.clearTallies.enqueue .s ⟨replyFrame st Kind.statusClear .taken [], .plain⟩ := rfl
  rw [Line.enqueue_s_room hroom] at e
  refine ⟨q.notices.trans (congrArg Line.noticeDrops e), q.onS.carries _
    (.inr ⟨⟨replyFrame st Kind.statusClear .taken [], .plain⟩, ?_, rfl⟩)⟩
  show _ ∈ w.line.s.ownQueue
  rw [e]
  exact List.mem_append_right _ (List.mem_singleton.mpr rfl)

/-! ### SET_LINE and RESTART as a whole -/

section
variable {s : State} {st : Station} (ask : AskedBy s st .office) (full : ¬ s.line.s.hasRoom) {r : LineRequest} (more : Bool)
include ask full

/-- The settings of Port S take effect at once when their REPLY is lost. -/
theorem AskedBy.setLine_lost_s (h : r.port = .s) :
    let t := (((s.heard .s st true).setLineTaken ⟨.s, st.number, st.role⟩ r).finishExchange .s more).underHold
    t.garage = s.garage ∧ HeardS (s.modPort .s (PortState.withSettings r)) t st := by
  have e : (s.unanswered st).lineRequestDue r = (s.unanswered st).modPort .s (PortState.withSettings r) := by
    unfold State.lineRequestDue
    rw [if_neg (by rw [h]; simp), State.applyLine_s _ h]
  rw [ask.setLine_lost full, e]
  have a : Answering .s (s.modPort .s (PortState.withSettings r)) ((s.unanswered st).modPort .s (PortState.withSettings r))
      (s.line.s.answeredBy st) := Answering.of_lines rfl rfl rfl rfl rfl
  have o := a.over (PortState.polled_awaiting ask.1.2) (fun h => nomatch h) more
  exact ⟨o.quiet.garage, o.rest, o.awaiting, o.stations, o.others⟩

/-- The settings of Port G wait for its exchange or frame in progress when their REPLY is lost. -/
theorem AskedBy.setLine_lost_busy (h : r.port = .g) (hb : s.line.g.busy = true) :
    let t := (((s.heard .s st true).setLineTaken ⟨.s, st.number, st.role⟩ r).finishExchange .s more).underHold
    t.garage = s.garage ∧ HeardS { s with line := { s.line with lineDueG := s.line.lineDueG ++ [r] } } t st := by
  have e : (s.unanswered st).lineRequestDue r = { s.unanswered st with
      line := { (s.unanswered st).line with lineDueG := s.line.lineDueG ++ [r] } } := by
    unfold State.lineRequestDue
    rw [if_pos (by rw [h]; exact hb)]
    rfl
  rw [ask.setLine_lost full, e]
  have a : Answering .s { s with line := { s.line with lineDueG := s.line.lineDueG ++ [r] } } { s.unanswered st with
      line := { (s.unanswered st).line with lineDueG := s.line.lineDueG ++ [r] } } (s.line.s.answeredBy st) :=
    Answering.of_lines rfl rfl rfl rfl rfl
  have o := a.over (p := .s) (PortState.polled_awaiting ask.1.2) (fun h => nomatch h) more
  exact ⟨o.quiet.garage, o.rest, o.awaiting, o.stations, o.others⟩

/-- The settings of Port G take effect at once when their REPLY is lost and the port is idle. -/
theorem AskedBy.setLine_lost_idle (h : r.port = .g) (hb : s.line.g.busy = false) :
    let t := (((s.heard .s st true).setLineTaken ⟨.s, st.number, st.role⟩ r).finishExchange .s more).underHold
    t.line.s.awaiting = false ∧ t.line.s.stations = s.line.s.answeredBy st ∧ GSettingsTaken (s.unanswered st) r t := by
  have e : (s.unanswered st).lineRequestDue r = (s.unanswered st).applyLine r := by
    unfold State.lineRequestDue
    exact if_neg (by rw [show (s.unanswered st).line.g.busy = false from hb]; simp)
  rw [ask.setLine_lost full, e]
  have ha : s.line.s.awaiting = true := PortState.polled_awaiting ask.1.2
  exact (s.unanswered st).applyLine_over h ha more

end

/-- The frames that Port G loses as it is turned off, and the REPLY lost before it, on the notice drop tally. -/
theorem State.unanswered_notices (s : State) (st : Station) (k : Nat) :
    tallyAdd (s.unanswered st).line.noticeDrops k = tallyAdd s.line.noticeDrops (k + if st.poll = .silent then 2 else 1) := by
  unfold State.unanswered
  rw [tallyAdd_tallyAdd, Nat.add_comm]

theorem PortState.busy_iff (a : PortState) : a.busy = true ↔ a.awaiting = true ∨ a.sending ≠ none := by
  simp [PortState.busy]

/-- What the body of a SET_LINE does with one that is refused (R22, log 21). -/
theorem setLineBody_refused (c : Caller) (pl : List Byte) (u : State) :
    (1 < u8 pl 0 → setLineBody c pl u = u.run fun e => e.reply c Kind.setLine .badRequest [0]) ∧
    (u8 pl 0 ≤ 1 → 2 < u8 pl 3 → setLineBody c pl u = u.run fun e => e.reply c Kind.setLine .badRequest [3]) ∧
    (u8 pl 0 = 0 → u8 pl 3 ≤ 2 → u8 pl 5 = 0 → setLineBody c pl u = u.run fun e => e.reply c Kind.setLine .notApplicable [5]) ∧
    (u8 pl 0 = 1 → u8 pl 3 ≤ 2 → u8 pl 5 = 0 → u.garage.mode = .service →
      setLineBody c pl u = u.run fun e => e.reply c Kind.setLine .refused [5]) := by
  refine ⟨fun h0 => ?_, fun h0 h3 => ?_, fun h0 h3 h5 => ?_, fun h0 h3 h5 hm => ?_⟩
  · unfold setLineBody
    rw [portOf_none h0]
    rfl
  · obtain h0 | h0 : u8 pl 0 = 0 ∨ u8 pl 0 = 1 := by omega
    all_goals
      unfold setLineBody
      rw [h0, parityOf_none h3]
      rfl
  · obtain ⟨par, hpar⟩ := parityOf_some h3
    unfold setLineBody
    rw [h0, hpar]
    exact if_neg (by simp [flag8, h5])
  · obtain ⟨par, hpar⟩ := parityOf_some h3
    unfold setLineBody
    rw [h0, hpar]
    exact (if_neg (by simp [flag8, h5])).trans (if_pos hm)

/-- Settles O44: a SET_LINE by its fields and by the room for its REPLY, and its settings by port and enable flag. -/
theorem lineManagement : Obligations.LineManagement := by
  constructor
  · intro s st flags pl ask g queued
    constructor
    · intro hl answers
      have hg : Passes s Kind.setLine pl := Passes.of_length hl (takenIn_both _ (by decide)) rfl rfl (by decide) (by decide)
      have hp : permits .office Kind.setLine = true := by decide
      have mode : (s.heard .s st true).garage.mode = s.garage.mode := s.heard_mode .s st
      obtain ⟨b0, b3, b5, b5'⟩ := setLineBody_refused ⟨.s, st.number, st.role⟩ pl (s.heard .s st true)
      refine ⟨fun h0 => ask.office_replies hp hg (b0 h0), fun h0 h3 => ask.office_replies hp hg (b3 h0 h3),
        fun h0 h3 h5 => ask.office_replies hp hg (b5 h0 h3 h5),
        fun h0 h3 h5 hm => ask.office_replies hp hg (b5' h0 h3 h5 (mode.trans hm)), fun p par hc hpar h5 => ?_⟩
      intro r reply
      have hr : (⟨p, lineValues pl par, decide (u8 pl 5 ≠ 0)⟩ : LineRequest) = r := by rw [lineValues_eq]
      have next : exec (.setLine .s flags pl) s = .next ((((s.heard .s st true).setLineTaken ⟨.s, st.number, st.role⟩
          r).finishExchange .s (moreFlag flags)).underHold) := by
        refine (ask.office_body (body := setLineBody) hp hg).trans ?_
        rw [setLineBody_taken hc hpar (h5.imp_right fun h => ⟨h.1, mode.trans h.2⟩), hr]
      rw [next]
      refine ⟨fun room => ?_, fun full hps => ⟨_, rfl, ask.setLine_lost_s full (moreFlag flags) hps⟩, fun full hpg => ?_⟩
      · have k := ask.marked_reply room (f := lineTakenEv ⟨.s, st.number, st.role⟩ r) (m := .lineReply r) rfl (moreFlag flags)
        rw [State.setLineTaken_queued rfl (s.heard_room .s st true room)]
        exact ⟨_, rfl, k⟩
      · intro busy
        by_cases hb : busy
        · obtain ⟨hgar, heard⟩ := ask.setLine_lost_busy full (r := r) (moreFlag flags) hpg (s.line.g.busy_iff.mpr hb)
          exact ⟨_, rfl, heard.ended, heard.stations, fun _ => ⟨hgar, heard⟩, fun h => absurd hb h⟩
        · obtain ⟨haw, hst, k⟩ := ask.setLine_lost_idle full (r := r) (moreFlag flags) hpg
            (Bool.eq_false_iff.mpr fun h => hb (s.line.g.busy_iff.mp h))
          refine ⟨_, rfl, haw, hst, fun h => absurd h hb, fun _ => ⟨k.settings, k.due, k.enabled, k.stays, k.starts, k.off,
            fun he hm => ?_⟩⟩
          obtain ⟨h1, h2, h3, h4, h5, h6, h7⟩ := k.turnsOff he hm
          rw [s.unanswered_notices] at h5 h6
          exact ⟨h1, h2, h3, h4, Nat.le_trans (tallyAdd_mono _ (by
            show s.line.g.ownQueue.length + 1 ≤ s.line.g.ownQueue.length + _
            split <;> omega)) h5, h6, h7⟩
    · intro hl
      have passes : ∀ kind, (serviceKinds ++ commissioningKinds).contains kind = false → countedLength kind pl = none →
          fixedLength kind = 0 → (kind == Kind.liftStatus || kind == Kind.moveFault || kind == Kind.moveRefused) = false →
          Passes s kind pl := fun kind hm hc hf hk => Passes.of_length hl (takenIn_both _ hm) hc hf hk (by decide)
      have next : exec (.restart .s flags pl) s = _ :=
        ask.office_body (body := restartBody) (by decide) (passes _ (by decide) rfl rfl (by decide))
      refine ⟨fun room => ?_, fun full => ?_, ?_⟩
      · rw [next, restartBody_queued rfl (s.heard_room .s st true room)]
        exact ⟨_, rfl, ask.marked_reply room rfl (moreFlag flags)⟩
      · rw [next, restartBody_lost rfl (by rw [ask.unheard_line full]; exact full)]
        exact ⟨_, rfl, ask.restart_lost (moreFlag flags)⟩
      · exact ⟨_, ask.office_body (body := statusClearBody) (by decide) (passes _ (by decide) rfl rfl (by decide)),
          ask.clear_over (moreFlag flags)⟩
  · intro s r on becomes
    exact ⟨s.applyLine_s, fun h => ⟨fun he hm => s.applyLine_kept h (.inl ⟨he, hm⟩),
      fun he hm => s.applyLine_kept h (.inr ⟨he, hm⟩), fun he hm => s.applyLine_started h he hm,
      fun he hm => s.applyLine_off h he hm⟩⟩

end Sys2Proof.Machine

namespace Sys2Proof.Machine

/-! ### The Port G settings that wait, beside everything else (R22) -/

/-- The block with other Port G settings waiting. -/
def State.waits (u : State) (due : List LineRequest) : State := { u with line := { u.line with lineDueG := due } }

/-- The block once the Port G settings that waited have taken effect, in their order. -/
def State.applied (u : State) : State := u.line.lineDueG.foldl State.applyLine (u.waits [])

theorem State.applyDue_g (u : State) : u.applyDue .g = u.applied := rfl

theorem Line.enqueue_waits (ln : Line) (p : Port) (q : QFrame) (due : List LineRequest) :
    ({ ln with lineDueG := due } : Line).enqueue p q = { ln.enqueue p q with lineDueG := due } := by
  have ht : ({ ln with lineDueG := due } : Line).takes p q.frame.kind = ln.takes p q.frame.kind := by cases p <;> rfl
  unfold Line.enqueue
  rw [ht]
  split
  · cases p
    · dsimp only
      split <;> rfl
    · rfl
  · rfl

theorem Line.queueOut_waits (ln : Line) (o : Out) (due : List LineRequest) :
    ({ ln with lineDueG := due } : Line).queueOut o = { ln.queueOut o with lineDueG := due } := by
  have sends : ∀ n, ({ ln with lineDueG := due } : Line).sendTo n o = { ln.sendTo n o with lineDueG := due } := fun n => by
    have hr : ({ ln with lineDueG := due } : Line).reaches n = ln.reaches n := rfl
    unfold Line.sendTo
    rw [hr]
    split
    · exact ln.enqueue_waits _ _ due
    · rfl
  have hs : ∀ r, ({ ln with lineDueG := due } : Line).stationOfRole r = ln.stationOfRole r := fun r => rfl
  unfold Line.queueOut
  split
  · exact ln.enqueue_waits _ _ due
  · exact sends _
  · rw [hs]
    split
    · exact sends _
    · rfl

/-- The frames of an event join the queues whatever settings wait. -/
theorem Line.queueAll_waits (outs : List Out) (ln : Line) (due : List LineRequest) :
    outs.foldl Line.queueOut { ln with lineDueG := due } = { outs.foldl Line.queueOut ln with lineDueG := due } := by
  induction outs generalizing ln with
  | nil => rfl
  | cons o rest ih => rw [List.foldl_cons, List.foldl_cons, Line.queueOut_waits, ih]

/-- A command's effect that goes on beside the settings that wait. -/
def Beside (f : State → State) : Prop := ∀ u due, f (State.waits u due) = (f u).waits due

theorem run_beside (f : Ev → Ev) : Beside fun u => u.run f := fun u due => by
  show (⟨_, _, List.foldl Line.queueOut { u.line with lineDueG := due } _, _, _⟩ : State) = _
  rw [Line.queueAll_waits]
  rfl

theorem modPort_beside (p : Port) (f : PortState → PortState) : Beside fun u => u.modPort p f := fun u due => by
  cases p <;> rfl

theorem Beside.comp {f h : State → State} (hf : Beside f) (hh : Beside h) : Beside fun u => f (h u) := fun u due => by
  show f (h (u.waits due)) = _
  rw [hh, hf]

/-! ### The end of a frame, and of the reply to a SET_LINE (R17, R22) -/

/-- The transmission of a frame that brings about nothing but the next. -/
theorem State.endTransmission_eq {s : State} {p : Port} {q : QFrame} (h : (s.port p).sending = some q) :
    s.endTransmission p = ((((s.modPort p fun ps => { ps with sending := none }).applyMark q.mark).applyDue p).sendNext p) := by
  unfold State.endTransmission
  rw [h]

theorem exec_lineSettingsTakeEffect (p : Port) (s : State) :
    exec (.lineSettingsTakeEffect p) s = execLineSettingsTakeEffect p s := rfl

theorem exec_moveOrderSent (l : Lift) (s : State) : exec (.moveOrderSent l) s = execMoveOrderSent l s := rfl

/-- The end of the reply to a SET_LINE on Port S: its settings are due, and the arbiter goes on. -/
theorem exec_replySent {s : State} (hp : s.powered = true) {f : Frame} {r : LineRequest}
    (h : s.line.s.sending = some ⟨f, .lineReply r⟩) : exec (.lineSettingsTakeEffect r.port) s =
      .next ((((s.modPort .s fun ps => { ps with sending := none }).lineRequestDue r).sendNext .s).underHold) := by
  have e : s.endTransmission .s =
      ((s.modPort .s fun ps => { ps with sending := none }).lineRequestDue r).sendNext .s := State.endTransmission_eq (p := .s) h
  rw [exec_lineSettingsTakeEffect, execLineSettingsTakeEffect, s.react_next _ hp]
  rw [h]
  dsimp only
  rw [if_pos (show Mark.isLineReplyFor r.port (.lineReply r) = true by simp [Mark.isLineReplyFor]), e]

/-- Settings for Port G leave the commands that wait and the pass table. -/
theorem State.applyLine_rest (x : State) {r : LineRequest} (h : r.port = .g) :
    (x.applyLine r).pending = x.pending ∧ (x.applyLine r).line.passTable = x.line.passTable := by
  by_cases hm : x.line.g.mode = .disabled <;> cases he : r.enable
  · rw [x.applyLine_kept h (.inr ⟨he, hm⟩)]; exact ⟨rfl, rfl⟩
  · rw [x.applyLine_started h he hm]; exact ⟨rfl, rfl⟩
  · rw [x.applyLine_off h he hm]
    exact ⟨rfl, (Line.queueAll_queuesOnly _ (x.line.turnedOff r)).sameLines.passTable⟩
  · rw [x.applyLine_kept h (.inl ⟨he, hm⟩)]; exact ⟨rfl, rfl⟩

/-- Settings that are due leave the stations of Port S, the pass table and the commands that wait. -/
theorem State.lineRequestDue_keeps (u : State) (r : LineRequest) : (u.lineRequestDue r).pending = u.pending ∧
    (u.lineRequestDue r).line.s.stations = u.line.s.stations ∧ (u.lineRequestDue r).line.passTable = u.line.passTable ∧
    (r.port = .g → (u.lineRequestDue r).line.s.settings = u.line.s.settings) := by
  unfold State.lineRequestDue
  split
  · exact ⟨rfl, rfl, rfl, fun _ => rfl⟩
  · cases hp : r.port with
    | s => rw [u.applyLine_s hp]; exact ⟨rfl, rfl, rfl, fun h => nomatch h⟩
    | g =>
      have hs := u.applyLine_port_s hp
      obtain ⟨hn, ht⟩ := u.applyLine_rest hp
      exact ⟨hn, by rw [hs], ht, fun _ => by rw [hs]⟩

theorem State.pollHold_of_own {s t : State} (h : t.line.s.ownQueue <:+ s.line.s.ownQueue) (hs : s.line.pollHold = false) :
    t.line.pollHold = false := by
  have := h.length_le
  unfold Line.pollHold at *
  rw [decide_eq_false_iff_not] at *
  omega

/-- Without poll hold, sending on one port leaves the other as it is. -/
theorem State.sendNext_port_other {s : State} {p q : Port} (h : q ≠ p) (hs : s.line.pollHold = false) :
    (s.sendNext p).port q = s.port q := by
  rw [State.sendNext_port, if_neg h, State.enterHold_port, hs]
  rfl

/-- The end of the reply to a SET_LINE, and what its settings have then brought about. -/
theorem replySent_over (s : State) (r : LineRequest) :
    let s' := s.modPort .s fun ps => { ps with sending := none }
    let t := ((s'.lineRequestDue r).sendNext .s).underHold
    LineQuiet (s'.lineRequestDue r) t ∧ t.line.g.ownQueue <:+ (s'.lineRequestDue r).line.g.ownQueue :=
  ⟨(State.sendNext_lineQuiet _ .s).trans (State.underHold_lineQuiet _),
    (State.underHold_ownQueue _ .g).trans (State.sendNext_ownQueue _ .s .g)⟩

/-- A DISABLED Port G that starts begins at its first entry, and with its pass-over count at 0 (R22). -/
theorem replySent_started (s : State) {r : LineRequest} (h : r.port = .g) (he : r.enable = true)
    (hm : s.line.g.mode = .disabled) (hb : s.line.g.busy = false) :
    let t := (((s.modPort .s fun ps => { ps with sending := none }).lineRequestDue r).sendNext .s).underHold
    (s.line.g.visit = none → t.line.g.pollPos = 0) ∧ (s.line.pollHold = false → t.line.g.passOver = 0) := by
  intro t
  have e : (s.modPort .s fun ps => { ps with sending := none }).lineRequestDue r =
      (s.modPort .s fun ps => { ps with sending := none }).modPort .g fun a =>
        { (PortState.withSettings r a).refresh with mode := .running } := by
    unfold State.lineRequestDue
    rw [if_neg (by rw [show (State.modPort s .s _).line.g.busy = false from hb]; simp)]
    exact State.applyLine_started _ h he hm
  refine ⟨fun hv => ?_, fun hh => ?_⟩
  · have k := State.sendNext_unvisited (s := (s.modPort .s fun ps => { ps with sending := none }).lineRequestDue r) (p := .g) .s
      (by rw [e]; exact hv)
    have k' := k.trans (State.underHold_unvisited k.visit)
    refine k'.pollPos.trans ?_
    rw [e]
    rfl
  · have hold : ((s.modPort .s fun ps => { ps with sending := none }).lineRequestDue r).line.pollHold = false := by
      rw [e]; exact hh
    have k := State.pollHold_of_own (State.sendNext_ownQueue
      ((s.modPort .s fun ps => { ps with sending := none }).lineRequestDue r) .s .s) hold
    have e' : t = ((s.modPort .s fun ps => { ps with sending := none }).lineRequestDue r).sendNext .s :=
      State.underHold_quiet k
    have g := State.sendNext_port_other (q := .g) (p := .s) (by decide) hold
    rw [e', show (State.sendNext _ .s).line.g = _ from g, e]
    rfl

/-- The settings that wait take effect as nothing is in progress on Port G (R22). -/
theorem exec_settingsDue {s : State} (hp : s.powered = true) (hb : s.line.g.busy = false)
    (hr : ∀ f r, s.line.s.sending = some ⟨f, .lineReply r⟩ → r.port = .s) :
    exec (.lineSettingsTakeEffect .g) s = .next s.applied.underHold := by
  rw [exec_lineSettingsTakeEffect, execLineSettingsTakeEffect, s.react_next _ hp]
  rw [hb]
  have due : (if (decide (Port.g = Port.g) && !false) = true then s.applyDue .g else s) = s.applied := rfl
  split
  · rename_i q hq
    obtain ⟨f, m⟩ := q
    have hm : m.isLineReplyFor .g = false := by
      unfold Mark.isLineReplyFor
      split
      · rename_i r
        rw [hr f r hq]
        rfl
      · rfl
    rw [if_neg (by rw [hm]; simp), due]
  · rw [due]

/-- The end of a frame on Port G: what its mark brings about, the settings that wait, and the next frame. -/
theorem State.endTransmission_g {s : State} {q : QFrame} (h : s.line.g.sending = some q) : s.endTransmission .g =
    (((s.modPort .g fun ps => { ps with sending := none }).applyMark q.mark).applied).sendNext .g :=
  State.endTransmission_eq (p := .g) h

/-- A port as it detects a break (R12). -/
def PortState.broken (a : PortState) : PortState :=
  { PortState.endVisit { a with awaiting := false } with mode := .lineFault, turnLeft := 0 }

/-- The block as a port detects a break, before the settings that wait take effect (R12). -/
def State.lineBroken (s : State) (p : Port) : State :=
  ((s.loseSending p).modPort p PortState.broken).run fun e => e.alert AlertKind.lineBreak (w8 (portCode p))

theorem State.breakLine_eq (s : State) (p : Port) : s.breakLine p = (s.lineBroken p).applyDue p := rfl

/-- A break takes effect beside the settings that wait, which then take effect (R12, R22). -/
theorem breakLine_g (s : State) (due : List LineRequest) :
    (s.waits due).breakLine .g = ((s.lineBroken .g).waits due).applied := by
  have lose : (s.waits due).loseSending .g = (s.loseSending .g).waits due := by
    unfold State.loseSending
    rw [show ((s.waits due).port .g).sending = (s.port .g).sending from rfl]
    split <;> rfl
  rw [State.breakLine_eq, State.lineBroken, lose, State.applyDue_g]
  exact congrArg State.applied (((run_beside _).comp (modPort_beside .g _)) _ due)

/-- Settles O18: the end of the reply on Port S, and of the exchanges and frames for which settings of Port G wait. -/
theorem lineSettingsTakeEffect : Obligations.LineSettingsTakeEffect := by
  constructor
  · intro s f r hp hs
    refine ⟨_, exec_replySent hp hs, ?_⟩
    obtain ⟨q, own⟩ := replySent_over s r
    obtain ⟨kp, kst, kt, ks⟩ := State.lineRequestDue_keeps (s.modPort .s fun ps => { ps with sending := none }) r
    refine ⟨q.pending.trans kp, q.onS.stations.trans kst, q.passTable.trans kt, fun h => ?_, fun h => ?_, fun h hb => ?_,
      fun h ha hn => ?_⟩
    · have e : (s.modPort .s fun ps => { ps with sending := none }).lineRequestDue r =
          (s.modPort .s fun ps => { ps with sending := none }).modPort .s (PortState.withSettings r) := by
        unfold State.lineRequestDue
        rw [if_neg (by rw [h]; simp), State.applyLine_s _ h]
      rw [e] at q ⊢
      exact ⟨q.onS.same.settings, q.onG.same, q.garage, q.due⟩
    · exact q.onS.same.settings.trans (ks h)
    · have e : (s.modPort .s fun ps => { ps with sending := none }).lineRequestDue r =
          (s.modPort .s fun ps => { ps with sending := none }).waits (s.line.lineDueG ++ [r]) := by
        unfold State.lineRequestDue
        rw [if_pos (by rw [h]; exact s.line.g.busy_iff.mpr hb)]
        rfl
      rw [e] at q ⊢
      exact ⟨q.due, q.onG.same.settings, q.onG.same.mode, q.garage⟩
    · have hb : s.line.g.busy = false := Bool.eq_false_iff.mpr fun k => by
        rcases s.line.g.busy_iff.mp k with k | k
        · rw [ha] at k; cases k
        · exact k hn
      have e : (s.modPort .s fun ps => { ps with sending := none }).lineRequestDue r =
          (s.modPort .s fun ps => { ps with sending := none }).applyLine r := by
        unfold State.lineRequestDue
        exact if_neg (by rw [show (State.modPort s .s _).line.g.busy = false from hb]; simp)
      have k := State.applyLine_taken (s.modPort .s fun ps => { ps with sending := none }) h
      rw [← e] at k
      have k := k.quiet q own
      refine ⟨k.settings, k.due, k.enabled, k.stays, fun he hm => ?_, k.off, k.turnsOff⟩
      obtain ⟨hp', ho'⟩ := replySent_started s h he hm hb
      obtain ⟨h1, h2⟩ := k.starts he hm
      exact ⟨h1, hp', ho', h2⟩
  · intro s hp
    refine ⟨fun q hq hm => ?_, fun l f n hq => ?_, fun hm => ⟨s.lineBroken .g, fun due => ?_⟩, fun ha hn hr => ?_⟩
    · refine (s.react_next (fun s => s.endTransmission .g) hp).trans ?_
      rw [State.endTransmission_g hq, hm]
      rfl
    · rw [exec_moveOrderSent, execMoveOrderSent, s.react_next _ hp]
      dsimp only
      rw [hq]
      dsimp only
      rw [if_pos (show Mark.isOrderOf l (.moveOrder l n) = true by simp [Mark.isOrderOf]), State.endTransmission_g hq]
      rfl
    · refine ((s.waits due).react_next (fun s => if (s.port .g).mode = .running then s.breakLine .g else s) hp).trans ?_
      dsimp only
      rw [if_pos (show ((s.waits due).port .g).mode = .running from hm), breakLine_g]
      rfl
    · refine (exec_settingsDue hp (Bool.eq_false_iff.mpr fun k => ?_) hr).trans rfl
      rcases s.line.g.busy_iff.mp k with k | k
      · rw [ha] at k; cases k
      · exact k hn

end Sys2Proof.Machine

namespace Sys2Proof.Machine

/-! ### Breaks (R12, R14, R135) -/

/-- A port with no visit and no send turn is left alone by what poll hold does to both ports. -/
theorem PortState.enterHold_free {a : PortState} (hv : a.visit = none) (ht : a.turnLeft = 0) : a.enterHold = a := by
  unfold PortState.enterHold PortState.cutVisit
  rw [hv, ← ht]

/-- A port with no visit, no send turn and nothing to send is left alone by what follows an event. -/
theorem State.underHold_done {w : State} {p : Port} (hs : ∀ hold, (w.port p).sendNext hold = w.port p)
    (hv : (w.port p).visit = none) (ht : (w.port p).turnLeft = 0) : w.underHold.port p = w.port p := by
  have sends : ∀ (w : State) (q : Port), (∀ hold, (w.port p).sendNext hold = w.port p) → (w.port p).visit = none →
      (w.port p).turnLeft = 0 → (w.sendNext q).port p = w.port p := by
    intro w q hs hv ht
    have enters : w.enterHold.port p = w.port p := by
      rw [State.enterHold_port, PortState.enterHold_free hv ht, ite_self]
    rw [State.sendNext_port]
    split
    · rename_i e
      subst e
      rw [enters, hs]
    · exact enters
  unfold State.underHold
  split
  · have e := sends w .s hs hv ht
    rw [sends _ .g (by rw [e]; exact hs) (by rw [e]; exact hv) (by rw [e]; exact ht), e]
  · rfl

theorem PortState.sendNext_waits {a : PortState} (h : a.canSend = false) (hold : Bool) : a.sendNext hold = a := by
  unfold PortState.sendNext
  rw [h]
  rfl

/-- A port that is not RUNNING, with no visit and no send turn, is left alone by what follows an event. -/
theorem State.underHold_idle {w : State} {p : Port} (hm : (w.port p).mode ≠ .running) (hv : (w.port p).visit = none)
    (ht : (w.port p).turnLeft = 0) : w.underHold.port p = w.port p :=
  State.underHold_done (PortState.sendNext_waits (by simp [PortState.canSend, hm])) hv ht

theorem dropOldestAlert_eq (qs : List QFrame) : dropOldestAlert qs = qs.eraseP fun q => q.frame.kind == Kind.alert := by
  induction qs with
  | nil => rfl
  | cons q rest ih =>
    unfold dropOldestAlert
    rw [List.eraseP_cons, ih]
    by_cases h : q.frame.kind = Kind.alert
    · rw [if_pos h, beq_iff_eq.mpr h]
      rfl
    · rw [if_neg h, beq_eq_false_iff_ne.mpr h]
      rfl

/-- Port S's own queue once a frame is offered to it (R14). -/
theorem Line.enqueue_s_ownQueue (ln : Line) (x : QFrame) : (ln.enqueue .s x).s.ownQueue =
    if ln.s.ownQueue.length < 48 then ln.s.ownQueue ++ [x]
    else if (ln.s.ownQueue.any fun q => q.frame.kind == Kind.alert) = true then
      (ln.s.ownQueue.eraseP fun q => q.frame.kind == Kind.alert) ++ [x]
    else ln.s.ownQueue := by
  by_cases hl : ln.s.ownQueue.length < 48
  · rw [Line.enqueue_s_room hl, if_pos hl]
  · rw [if_neg hl]
    split
    · rename_i ha
      have ht : ln.takes .s x.frame.kind = true := by simp only [Line.takes, holdsAlert, ha, Bool.or_true]
      unfold Line.enqueue
      rw [if_pos ht]
      dsimp only
      rw [if_neg (by simpa [Config.ownCapacityS] using hl), dropOldestAlert_eq]
      rfl
    · rename_i ha
      rw [Line.enqueue_s_lost]
      · rfl
      · rintro (h | ⟨q, hq, hk⟩)
        · exact hl h
        · exact ha (List.any_eq_true.mpr ⟨q, hq, by simpa using hk⟩)

theorem State.loseSending_port (s : State) (p : Port) : (s.loseSending p).port p = { s.port p with sending := none } := by
  unfold State.loseSending
  dsimp only
  split <;> cases p <;> rfl

theorem State.loseSending_other (s : State) (p : Port) : (s.loseSending p).port (otherPort p) = s.port (otherPort p) := by
  unfold State.loseSending
  dsimp only
  split <;> cases p <;> rfl

theorem State.loseSending_line (s : State) (p : Port) :
    (s.loseSending p).line = s.line.modPort p fun ps => { ps with sending := none } := by
  unfold State.loseSending
  dsimp only
  split <;> rfl

theorem State.loseSending_garage (s : State) (p : Port) : (s.loseSending p).garage = match (s.port p).sending with
    | some ⟨_, .moveOrder l n⟩ => s.garage.modLift l fun u =>
      if u.inFlight.map Move.number = some n then { u with moveTimer := some s.garage.movePeriod } else u
    | _ => s.garage := by
  unfold State.loseSending
  rcases h : (s.port p).sending with _ | ⟨f, m⟩
  · rfl
  · cases m <;> rfl

theorem State.loseSending_seconds (s : State) (p : Port) : (s.loseSending p).garage.seconds = s.garage.seconds := by
  rw [State.loseSending_garage]
  split
  · exact Garage.modLift_seconds _ _ _
  · rfl

/-- The lines as a port is lost, before the ALERT joins Port S's own queue. -/
def Line.broken (ln : Line) (p : Port) : Line :=
  (ln.modPort p fun ps => { ps with sending := none }).modPort p PortState.broken

theorem State.lineBroken_line (s : State) (p : Port) : (s.lineBroken p).line =
    (s.line.broken p).queueOut (alertOut s.garage.seconds AlertKind.lineBreak (w8 (portCode p))) := by
  have e : (s.lineBroken p).line = ((s.loseSending p).line.modPort p PortState.broken).queueOut
      (alertOut (s.loseSending p).garage.seconds AlertKind.lineBreak (w8 (portCode p))) := rfl
  rw [e, s.loseSending_line, s.loseSending_seconds]
  rfl

theorem State.lineBroken_queuesOnly (s : State) (p : Port) : QueuesOnly (s.line.broken p) (s.lineBroken p).line := by
  rw [State.lineBroken_line]
  exact Line.queueOut_queuesOnly _ _

theorem PortState.broken_pollsOnly (a : PortState) : a.broken =
    { a with mode := .lineFault, awaiting := false, visit := none, turnLeft := 0
             pollPos := a.broken.pollPos, cyclePolled := a.broken.cyclePolled } := by
  unfold PortState.broken
  rw [(PortState.endVisit_pollsOnly { a with awaiting := false }).eq, PortState.endVisit_visit]

/-- The broken port: it is in LINE_FAULT, its exchange and its frame are gone, and the rest is as it was but for its own
queue and its poll position. -/
theorem State.lineBroken_port (s : State) (p : Port) : (s.lineBroken p).port p = { s.port p with
    mode := .lineFault, awaiting := false, visit := none, turnLeft := 0, sending := none
    ownQueue := ((s.lineBroken p).port p).ownQueue
    pollPos := ({ s.port p with sending := none, awaiting := false } : PortState).endVisit.pollPos
    cyclePolled := ({ s.port p with sending := none, awaiting := false } : PortState).endVisit.cyclePolled } := by
  have k := (s.lineBroken_queuesOnly p).port p
  rw [Line.broken, Line.modPort_port, Line.modPort_port, PortState.broken_pollsOnly] at k
  exact k

theorem State.lineBroken_other (s : State) (p : Port) : (s.lineBroken p).port (otherPort p) =
    { s.port (otherPort p) with ownQueue := ((s.lineBroken p).port (otherPort p)).ownQueue } := by
  have k := (s.lineBroken_queuesOnly p).port (otherPort p)
  rw [Line.broken, Line.modPort_port_other _ _ _ _ (otherPort_ne p), Line.modPort_port_other _ _ _ _ (otherPort_ne p)] at k
  exact k

/-- The poll position as a break ends a visit (R4, R6, R12). -/
theorem PortState.endVisit_pollPos (a : PortState) :
    let here := ∃ v, a.visit = some v ∧ v.removed = false ∧ a.stations[a.pollPos]?.map Station.number = some v.station
    let last := a.stations.length ≤ a.pollPos + 1
    (¬ here → a.endVisit.pollPos = a.pollPos) ∧ (here → ¬ last → a.endVisit.pollPos = a.pollPos + 1) ∧
      (here → last → a.endVisit.pollPos = 0 ∧ a.endVisit.cyclePolled = false) ∧
      (¬ (here ∧ last) → a.endVisit.cyclePolled = a.cyclePolled) := by
  intro here last
  cases hv : a.visit with
  | none =>
    have e : a.endVisit = a := by unfold PortState.endVisit; rw [hv]
    have no : ¬ here := fun ⟨v, h, _⟩ => by rw [hv] at h; cases h
    rw [e]
    exact ⟨fun _ => rfl, fun h => absurd h no, fun h => absurd h no, fun _ => rfl⟩
  | some v =>
    cases hr : v.removed with
    | true =>
      have no : ¬ here := fun ⟨w, h, hw, _⟩ => by rw [hv] at h; cases h; rw [hr] at hw; cases hw
      rw [PortState.endVisit_removed hv hr]
      exact ⟨fun _ => rfl, fun h => absurd h no, fun h => absurd h no, fun _ => rfl⟩
    | false =>
      have hi : here ↔ a.stations[a.pollPos]?.map Station.number = some v.station :=
        ⟨fun ⟨w, h, _, hw⟩ => by rw [hv] at h; cases h; exact hw, fun h => ⟨v, hv, hr, h⟩⟩
      obtain ⟨hp, hc⟩ := PortState.endVisit_movedOn hv hr
      rw [hp, hc]
      simp only [← hi]
      refine ⟨fun h => if_neg h, fun h hl => by rw [if_pos h, if_neg hl], fun h hl => ?_, fun h => if_neg h⟩
      rw [if_pos h, if_pos hl, if_pos ⟨h, hl⟩]
      exact ⟨rfl, rfl⟩

theorem Line.broken_port (ln : Line) (p : Port) :
    (ln.broken p).port p = ({ ln.port p with sending := none } : PortState).broken := by
  rw [Line.broken, Line.modPort_port, Line.modPort_port]

theorem Line.broken_other (ln : Line) (p : Port) : (ln.broken p).port (otherPort p) = ln.port (otherPort p) := by
  rw [Line.broken, Line.modPort_port_other _ _ _ _ (otherPort_ne p), Line.modPort_port_other _ _ _ _ (otherPort_ne p)]

/-- A break leaves the own queues and the tables of both ports as they were. -/
theorem Line.broken_keeps (ln : Line) (p q : Port) : ((ln.broken p).port q).ownQueue = (ln.port q).ownQueue ∧
    ((ln.broken p).port q).stations = (ln.port q).stations := by
  by_cases h : q = p
  · subst h
    rw [Line.broken_port, PortState.broken_pollsOnly]
    exact ⟨rfl, rfl⟩
  · have e : q = otherPort p := by cases p <;> cases q <;> first | rfl | exact absurd rfl h
    rw [e, Line.broken_other]
    exact ⟨rfl, rfl⟩

theorem Line.broken_stationOfRole (ln : Line) (p : Port) (r : Role) :
    (ln.broken p).stationOfRole r = ln.stationOfRole r := by
  have hs : (ln.broken p).s.stations = ln.s.stations := (ln.broken_keeps p .s).2
  have hg : (ln.broken p).g.stations = ln.g.stations := (ln.broken_keeps p .g).2
  unfold Line.stationOfRole
  rw [hs, hg]

/-- The ALERT of a break joins Port S's own queue as R14 gives, and Port G's own queue stays. -/
theorem State.lineBroken_ownQueues {s : State} (p : Port) (ok : s.line.TablesSound) :
    (s.lineBroken p).line.s.ownQueue = (match s.line.stationOfRole .office with
      | some n =>
        if s.line.s.ownQueue.length < 48 then
          s.line.s.ownQueue ++ [⟨alertFrame n s.garage.seconds 3 (w8 (portCode p)), .plain⟩]
        else if (s.line.s.ownQueue.any fun q => q.frame.kind == Kind.alert) = true then
          (s.line.s.ownQueue.eraseP fun q => q.frame.kind == Kind.alert) ++
            [⟨alertFrame n s.garage.seconds 3 (w8 (portCode p)), .plain⟩]
        else s.line.s.ownQueue
      | none => s.line.s.ownQueue) ∧
    (s.lineBroken p).line.g.ownQueue = s.line.g.ownQueue := by
  have ok' : (s.line.broken p).TablesSound := ok.of_stations ((s.line.broken_keeps p .s).2) ((s.line.broken_keeps p .g).2)
  have hs : (s.line.broken p).s.ownQueue = s.line.s.ownQueue := (s.line.broken_keeps p .s).1
  have hg : (s.line.broken p).g.ownQueue = s.line.g.ownQueue := (s.line.broken_keeps p .g).1
  rw [State.lineBroken_line, Line.queueOut_office (fun n => Line.reaches_office ok') rfl, Line.broken_stationOfRole]
  cases s.line.stationOfRole .office with
  | some n =>
    dsimp only
    rw [Line.enqueue_s_ownQueue, Line.enqueue_s_g, hs, hg]
    exact ⟨rfl, rfl⟩
  | none => exact ⟨hs, hg⟩

/-- A break tells the office station, when it is there and the queue has room. -/
theorem State.lineBroken_alerted (s : State) (p : Port) :
    Alerted s (s.lineBroken p) AlertKind.lineBreak (w8 (portCode p)) := by
  rintro n ⟨hn, hs, hl⟩
  have e : ((s.loseSending p).modPort p PortState.broken).line = s.line.broken p := by
    show (s.loseSending p).line.modPort p PortState.broken = _
    rw [s.loseSending_line]
    rfl
  have hq : (s.line.broken p).s.ownQueue = s.line.s.ownQueue := (s.line.broken_keeps p .s).1
  have hst : (s.line.broken p).s.stations = s.line.s.stations := (s.line.broken_keeps p .s).2
  refine .inr (State.run_alerts _ _ n s.garage.seconds AlertKind.lineBreak (w8 (portCode p)) [] [] ?_ ?_ ?_ ?_)
  · rw [← s.loseSending_seconds p]
    rfl
  · rw [e, Line.broken_stationOfRole, hn]
  · unfold PortState.hasStation at *
    rw [e, hst, hs]
  · rw [e, hq]
    simp only [List.length_nil]
    omega

theorem LineQuiet.port {s t : State} (h : LineQuiet s t) (p : Port) : Quiet (s.port p) (t.port p) := by
  cases p
  · exact h.onS
  · exact h.onG

/-- Settles O16: a break is the loss of what the port sends, the end of its visit and an ALERT; what poll hold then does
leaves the broken port alone. -/
theorem breakAndReturn : Obligations.BreakAndReturn := by
  unfold Obligations.BreakAndReturn
  intro s p hp hd own isAlert joined
  refine ⟨fun hm => ⟨(s.lineBroken p).underHold, ?_, ?_⟩, fun hm hq => ?_, fun hm hq => ?_, fun hm hq => ?_⟩
  · refine (s.react_next (fun s => if (s.port p).mode = .running then s.breakLine p else s) hp).trans ?_
    rw [if_pos hm, State.breakLine_eq, State.applyDue_nothing fun e => (s.lineBroken_queuesOnly p).due.trans ?_]
    subst e
    exact hd rfl
  · have b := s.lineBroken_port p
    have q := (s.lineBroken p).underHold_lineQuiet
    have idle : (s.lineBroken p).underHold.port p = (s.lineBroken p).port p :=
      State.underHold_idle (by rw [b]; exact nofun) (by rw [b]) (by rw [b])
    have o := s.lineBroken_other p
    have qo := q.port (otherPort p)
    rw [idle, q.garage]
    refine ⟨by rw [b], by rw [b], by rw [b], by rw [b], by rw [b], ?_, by rw [b], by rw [b], by rw [b], by rw [b],
      ?_, ?_, s.loseSending_garage p, fun ok => ?_, fun n hn => ?_⟩
    · rw [b]
      exact PortState.endVisit_pollPos { s.port p with sending := none, awaiting := false }
    · have k := qo.same
      rw [o] at k
      exact ⟨k.settings, k.mode, k.faultTally, k.dropTally, k.transit⟩
    · have k := qo.stations
      rw [o] at k
      exact k
    · obtain ⟨hs, hg⟩ := State.lineBroken_ownQueues p ok
      have js : (s.lineBroken p).line.s.ownQueue = joined := hs
      have short : joined.length ≤ 32 → (s.lineBroken p).underHold = s.lineBroken p := fun h =>
        State.underHold_quiet (by unfold Line.pollHold; rw [js, decide_eq_false_iff_not]; exact Nat.not_lt.mpr h)
      refine ⟨?_, ?_⟩ <;> rintro rfl
      · refine ⟨(congrArg PortState.ownQueue idle).trans js, ?_, fun h => by rw [short h]; exact hg⟩
        rw [← hg]
        exact (s.lineBroken .s).underHold_ownQueue .g
      · refine ⟨(congrArg PortState.ownQueue idle).trans hg, ?_, fun h => by rw [short h]; exact js⟩
        rw [← js]
        exact (s.lineBroken .g).underHold_ownQueue .s
    · exact q.onS.carries _ (s.lineBroken_alerted p n hn)
  · refine (s.react_next (fun s => if (s.port p).mode = .running then s.breakLine p else s) hp).trans ?_
    rw [if_neg hm, State.underHold_quiet hq]
  · refine (s.react_next (fun s => if (s.port p).mode = .lineFault then
      (s.modPort p fun ps => { ps with mode := .running }).beginTurn p else s) hp).trans ?_
    rw [if_pos hm, State.underHold_quiet (State.pollHold_of_own ?_ hq)]
    refine (State.beginTurn_ownQueue _ p .s).trans ?_
    cases p <;> exact List.suffix_refl _
  · refine (s.react_next (fun s => if (s.port p).mode = .lineFault then
      (s.modPort p fun ps => { ps with mode := .running }).beginTurn p else s) hp).trans ?_
    rw [if_neg hm, State.underHold_quiet hq]

end Sys2Proof.Machine

namespace Sys2Proof.Machine

/-! ### Ports that poll hold has caught (R6, R18) -/

/-- A port whose send turn poll hold has ended, and its visit, at once or with the exchange in progress. -/
structure PortState.Held (a b : PortState) : Prop where
  turn : b.turnLeft = 0
  awaiting : b.awaiting = a.awaiting
  ended : a.awaiting = false → b.visit = none
  cut : ∀ v, a.awaiting = true → a.visit = some v → b.visit = some { v with cut := true }

theorem PortState.Held.enterHold {a b : PortState} (h : a.Held b) : a.Held b.enterHold := by
  unfold PortState.enterHold PortState.cutVisit
  cases hv : b.visit with
  | none => exact ⟨rfl, h.awaiting, fun _ => hv, fun v ha e => by rw [h.cut v ha e] at hv; cases hv⟩
  | some w =>
    have hb : b.awaiting = true := by
      rw [h.awaiting]
      refine Bool.not_eq_false _ ▸ fun k => ?_
      rw [h.ended k] at hv
      cases hv
    dsimp only
    rw [if_pos hb]
    refine ⟨rfl, h.awaiting, fun k => ?_, fun v ha e => ?_⟩
    · rw [← h.awaiting, hb] at k
      cases k
    · have k := (h.cut v ha e).symm.trans hv
      rw [← Option.some.inj k]

theorem PortState.enterHold_held (a : PortState) : a.Held a.enterHold := by
  unfold PortState.enterHold PortState.cutVisit
  cases hv : a.visit with
  | none => exact ⟨rfl, rfl, fun _ => hv, fun v _ e => by rw [hv] at e; cases e⟩
  | some w =>
    dsimp only
    split
    · rename_i ha
      refine ⟨rfl, rfl, fun k => ?_, fun v _ e => ?_⟩
      · rw [ha] at k
        cases k
      · rw [← Option.some.inj (hv.symm.trans e)]
    · rename_i ha
      have k := (PortState.endVisit_pollsOnly a).quiet.awaiting
      exact ⟨rfl, k, fun _ => a.endVisit_visit, fun v h _ => absurd h ha⟩

theorem PortState.Held.sendNext {a b : PortState} (h : a.Held b) (hold : Bool) : a.Held (b.sendNext hold) := by
  rcases b.sendNext_cases hold with e | ⟨-, e | ⟨left, hl, ⟨q, own, k, -, -, e⟩ | ⟨f, rest, -, e⟩⟩⟩ <;> rw [e]
  · exact h
  · exact { h with turn := rfl }
  · exact { h with turn := Nat.le_zero.mp (h.turn ▸ hl) }
  · exact { h with turn := Nat.le_zero.mp (h.turn ▸ hl) }

/-- Poll hold has caught both ports. -/
def State.Held (s t : State) : Prop := ∀ q, (s.port q).Held (t.port q)

theorem State.Held.sendNext {s t : State} (h : s.Held t) (p : Port) : s.Held (t.sendNext p) := by
  have k : s.Held t.enterHold := fun q => by
    rw [State.enterHold_port]
    split
    · exact (h q).enterHold
    · exact h q
  intro q
  rw [State.sendNext_port]
  split
  · rename_i e
    subst e
    exact (k q).sendNext _
  · exact k q

theorem State.sendNext_held {s : State} (hold : s.line.pollHold = true) (p : Port) : s.Held (s.sendNext p) := by
  have k : s.Held s.enterHold := fun q => by
    rw [State.enterHold_port, if_pos hold]
    exact PortState.enterHold_held _
  intro q
  rw [State.sendNext_port]
  split
  · rename_i e
    subst e
    exact (k q).sendNext _
  · exact k q

theorem State.beginTurn_held {s : State} (hold : s.line.pollHold = true) (p : Port) : s.Held (s.beginTurn p) := by
  have k := State.sendNext_held (s := s.modPort p fun ps => { ps with turnLeft := 2 }) (by cases p <;> exact hold) p
  intro q
  have kq := k q
  have e : ∃ n, ((s.modPort p fun ps => { ps with turnLeft := 2 }).port q) = { s.port q with turnLeft := n } := by
    by_cases h : q = p
    · subst h
      exact ⟨2, State.modPort_port _ _ _⟩
    · exact ⟨_, State.modPort_port_other _ _ _ _ h⟩
  obtain ⟨n, e⟩ := e
  rw [e] at kq
  exact { kq with }

theorem State.underHold_held {s : State} (hold : s.line.pollHold = true) : s.Held s.underHold := by
  unfold State.underHold
  rw [if_pos hold]
  exact (State.sendNext_held hold .s).sendNext .g

/-! ### Polls (R5, R8) -/

theorem PortState.modStation_eq (a : PortState) (n : Nat) (f : Station → Station) :
    a.modStation n f = { a with stations := a.stations.map fun x => if x.number = n then f x else x } := by
  simp only [PortState.modStation]

/-- How many stations a search for the next to poll passes over at the most, and one more. -/
def PortState.seeks (a : PortState) : Nat :=
  a.stations.length - a.pollPos + (if a.cyclePolled = true then a.stations.length else 0) + 1

theorem PortState.seeks_le (a : PortState) : a.seeks ≤ 2 * a.stations.length + 1 := by
  unfold PortState.seeks
  split <;> omega

/-- The port once a SILENT station has been passed over. -/
def PortState.passes (a : PortState) (st : Station) : PortState :=
  (a.modStation st.number fun x => { x with skips := x.skips + 1 }).advance

theorem PortState.passes_eq (a : PortState) (st : Station) : a.passes st =
    if a.pollPos + 1 < a.stations.length then { a with stations := a.passedOver st, pollPos := a.pollPos + 1 }
    else { a with stations := a.passedOver st, pollPos := 0, cyclePolled := false } := by
  unfold PortState.passes PortState.advance
  rw [PortState.modStation_eq]
  simp only [List.length_map]
  rfl

theorem PortState.passes_seeks {a : PortState} {st : Station} (hst : a.stations[a.pollPos]? = some st)
    (h : a.pollPos + 1 < a.stations.length ∨ a.cyclePolled = true) : (a.passes st).seeks < a.seeks := by
  have hp : a.pollPos < a.stations.length := (List.getElem?_eq_some_iff.mp hst).1
  have hl : (a.passedOver st).length = a.stations.length := List.length_map _
  rw [PortState.passes_eq]
  split
  · simp only [PortState.seeks, hl]
    omega
  · rename_i hn
    have hc := h.resolve_left hn
    simp only [PortState.seeks, hl, hc, if_true, Bool.false_eq_true, if_false]
    omega

theorem PortState.seek_none {a : PortState} (h : a.stations[a.pollPos]? = none) (n : Nat) :
    a.seek (n + 1) = ({ a with pollPos := 0, cyclePolled := false }, false) := by
  unfold PortState.seek
  rw [h]

theorem PortState.seek_polls {a : PortState} {st : Station} (h : a.stations[a.pollPos]? = some st)
    (hs : ¬ (st.poll = .silent ∧ st.skips < 3)) (n : Nat) : a.seek (n + 1) =
      ({ (a.modStation st.number fun st => { st with skips := if st.poll = .silent then 0 else st.skips }).beginExchange
        (Visit.first st.number) with cyclePolled := true }, true) := by
  unfold PortState.seek
  rw [h]
  exact if_neg hs

theorem PortState.seek_passes {a : PortState} {st : Station} (h : a.stations[a.pollPos]? = some st)
    (hs : st.poll = .silent ∧ st.skips < 3) (n : Nat) : a.seek (n + 1) =
      if a.pollPos + 1 < a.stations.length ∨ a.cyclePolled = true then (a.passes st).seek n else (a.passes st, false) := by
  rw [PortState.seek, h]
  exact if_pos hs

/-- A search that may pass over as many stations as there are to pass over finds what any longer one finds. -/
theorem PortState.seek_enough (m n : Nat) (a : PortState) (hm : a.seeks ≤ m) (hn : a.seeks ≤ n) : a.seek m = a.seek n := by
  induction m generalizing n a with
  | zero => exact absurd hm (by unfold PortState.seeks; omega)
  | succ m ih =>
    obtain ⟨n, rfl⟩ : ∃ k, n = k + 1 := ⟨n - 1, by unfold PortState.seeks at hn; omega⟩
    cases hst : a.stations[a.pollPos]? with
    | none => rw [PortState.seek_none hst, PortState.seek_none hst]
    | some st =>
      by_cases hs : st.poll = .silent ∧ st.skips < 3
      · rw [PortState.seek_passes hst hs, PortState.seek_passes hst hs]
        split
        · rename_i h
          have k := PortState.passes_seeks hst h
          exact ih n _ (by omega) (by omega)
        · rfl
      · rw [PortState.seek_polls hst hs, PortState.seek_polls hst hs]

/-- A port that may poll: in no poll hold, RUNNING, sending nothing and awaiting nothing. -/
structure State.MayPoll (s : State) (p : Port) : Prop where
  powered : s.powered = true
  quiet : s.line.pollHold = false
  free : (s.port p).canSend = true

theorem PortState.seek_ownQueue (a : PortState) (n : Nat) : (a.seek n).1.ownQueue = a.ownQueue :=
  PortState.seek_ends (P := fun x => x.ownQueue = a.ownQueue) (Q := fun x => x.ownQueue = a.ownQueue)
    (fun _ _ h _ _ => h) (fun _ _ _ h => h) (fun _ h => h) (fun _ _ h => h) n a rfl

theorem State.modPort_const (s : State) (p : Port) (f : PortState → PortState) :
    s.modPort p f = s.modPort p fun _ => f (s.port p) := by cases p <;> rfl

theorem State.modPort_ownQueue {s : State} {p : Port} {f : PortState → PortState}
    (h : (f (s.port p)).ownQueue = (s.port p).ownQueue) (q : Port) :
    ((s.modPort p f).port q).ownQueue = (s.port q).ownQueue := by
  by_cases e : q = p
  · subst e
    rw [State.modPort_port, h]
  · rw [State.modPort_port_other _ _ _ _ e]

/-- A port that seeks takes what the search leaves, and its send turn when the search has polled no station. -/
def State.sought (s : State) (p : Port) (r : PortState × Bool) : State :=
  if r.2 then s.modPort p fun _ => r.1 else (s.modPort p fun _ => r.1).beginTurn p

theorem State.sought_ownQueue {s : State} {p : Port} {r : PortState × Bool} (h : r.1.ownQueue = (s.port p).ownQueue)
    (q : Port) : ((s.sought p r).port q).ownQueue <:+ (s.port q).ownQueue := by
  have k := State.modPort_ownQueue (f := fun _ => r.1) h q
  unfold State.sought
  split
  · rw [k]
  · rw [← k]
    exact State.beginTurn_ownQueue _ p q

theorem State.MayPoll.goesOn {s : State} {p : Port} (h : s.MayPoll p) {v : Visit} (hv : (s.port p).visit = some v) :
    exec (.poll p) s = .next (s.modPort p fun ps => ps.beginExchange { v with exchanges := v.exchanges + 1 }) := by
  have e : s.pollNext p = s.modPort p fun ps => ps.beginExchange { v with exchanges := v.exchanges + 1 } := by
    unfold State.pollNext
    dsimp only
    rw [h.free, h.quiet, hv]
    rfl
  refine (s.react_next (fun s => s.pollNext p) h.powered).trans (congrArg _ ?_)
  rw [e]
  refine State.underHold_quiet (State.pollHold_of_own ?_ h.quiet)
  exact (State.modPort_ownQueue (p := p) (f := fun ps => ps.beginExchange _) rfl .s).symm ▸ List.suffix_refl _

theorem State.MayPoll.seeks {s : State} {p : Port} (h : s.MayPoll p) (hv : (s.port p).visit = none) {n : Nat}
    (hn : (s.port p).seeks ≤ n) : exec (.poll p) s = .next (s.sought p ((s.port p).seek n)) := by
  have e : s.pollNext p = s.sought p ((s.port p).seek n) := by
    unfold State.pollNext State.sought
    dsimp only
    rw [h.free, h.quiet, hv, (s.port p).seek_enough n _ hn (PortState.seeks_le _)]
    rfl
  refine (s.react_next (fun s => s.pollNext p) h.powered).trans (congrArg _ ?_)
  rw [e]
  exact State.underHold_quiet (State.pollHold_of_own (State.sought_ownQueue (PortState.seek_ownQueue _ _) .s) h.quiet)

/-- The search goes on from the next entry as if the poll position had stood there. -/
theorem State.MayPoll.passes {s : State} {p : Port} (h : s.MayPoll p) (hv : (s.port p).visit = none) {st : Station}
    (hst : (s.port p).stations[(s.port p).pollPos]? = some st) (hs : st.poll = .silent ∧ st.skips < 3)
    (more : (s.port p).pollPos + 1 < (s.port p).stations.length ∨ (s.port p).cyclePolled = true) :
    exec (.poll p) s = exec (.poll p) (s.modPort p fun ps => ps.passes st) := by
  have hp : (s.modPort p fun ps => ps.passes st).port p = (s.port p).passes st := State.modPort_port _ _ _
  have e := (s.port p).passes_eq st
  have k : (s.modPort p fun ps => ps.passes st).MayPoll p := by
    refine ⟨?_, State.pollHold_of_own ?_ h.quiet, ?_⟩
    · cases p <;> exact h.powered
    · refine (State.modPort_ownQueue (f := fun ps => ps.passes st) ?_ .s).symm ▸ List.suffix_refl _
      rw [e]
      split <;> rfl
    · rw [hp, e, ← h.free]
      split <;> rfl
  have kv : ((s.modPort p fun ps => ps.passes st).port p).visit = none := by
    rw [hp, e, ← hv]
    split <;> rfl
  rw [h.seeks hv (n := (s.port p).seeks + 1) (by omega), k.seeks kv (n := (s.port p).seeks)
    (by rw [hp]; exact (PortState.passes_seeks hst more).le), hp, PortState.seek_passes hst hs, if_pos more]
  unfold State.sought
  rw [State.modPort_const s p fun ps => ps.passes st]
  cases p <;> rfl

theorem State.modPort_congr {s : State} {p : Port} {f g : PortState → PortState} (h : f (s.port p) = g (s.port p)) :
    s.modPort p f = s.modPort p g := by
  rw [State.modPort_const, h, ← State.modPort_const]

/-- Without a visit, POLL visits the station at the poll position, or passes it over, or ends the cycle (R5, R8). -/
theorem State.MayPoll.sought {s : State} {p : Port} (h : s.MayPoll p) (hv : (s.port p).visit = none) :
    (∀ st, (s.port p).stations[(s.port p).pollPos]? = some st → ¬ (st.poll = .silent ∧ st.skips < 3) →
      exec (.poll p) s = .next (s.modPort p fun ps => { (ps.modStation st.number fun st =>
        { st with skips := if st.poll = .silent then 0 else st.skips }).beginExchange (Visit.first st.number) with
          cyclePolled := true })) ∧
    (∀ st, (s.port p).stations[(s.port p).pollPos]? = some st → (st.poll = .silent ∧ st.skips < 3) →
      ¬ ((s.port p).pollPos + 1 < (s.port p).stations.length ∨ (s.port p).cyclePolled = true) →
      exec (.poll p) s = .next ((s.modPort p fun ps => ps.passes st).beginTurn p)) ∧
    ((s.port p).stations[(s.port p).pollPos]? = none →
      exec (.poll p) s = .next ((s.modPort p fun ps => { ps with pollPos := 0, cyclePolled := false }).beginTurn p)) := by
  have k := h.seeks hv (Nat.le_succ _)
  rw [k]
  refine ⟨fun st hst hs => ?_, fun st hst hs hn => ?_, fun hst => ?_⟩
  · rw [PortState.seek_polls hst hs, State.modPort_const]
    rfl
  · rw [PortState.seek_passes hst hs, if_neg hn, State.modPort_const s p fun ps => ps.passes st]
    rfl
  · rw [PortState.seek_none hst, State.modPort_const]
    rfl

/-- No POLL goes out from a port in poll hold, or that is not RUNNING, sends, or awaits an answer (R5, R18). -/
theorem State.pollNext_idle {s : State} {p : Port} (h : s.line.pollHold = true ∨ (s.port p).canSend = false) :
    s.pollNext p = s := by
  unfold State.pollNext
  dsimp only
  rw [if_neg]
  rcases h with h | h <;> simp [h]

/-- Settles O12: the search for the next station by one station at a time, and what poll hold leaves of turns and
visits. -/
theorem pollVisits : Obligations.PollVisits := by
  unfold Obligations.PollVisits
  refine ⟨?_, ?_⟩
  · intro s p hp hq hm hs ha poll
    have may : s.MayPoll p := ⟨hp, hq, (PortState.canSend_iff _).mpr ⟨hm, hs, ha⟩⟩
    refine ⟨fun n => rfl, fun v hv => may.goesOn hv, fun hv => ?_⟩
    obtain ⟨polls, wraps, ends⟩ := may.sought hv
    refine ⟨fun st hst h => ?_, fun st hst hsil hsk => ?_, ends⟩
    · refine polls st hst fun ⟨hsil, hsk⟩ => ?_
      rcases h with h | h
      · rw [hsil] at h
        cases h
      · omega
    · have e := (s.port p).passes_eq st
      split
      · rename_i hl
        rw [may.passes hv hst ⟨hsil, hsk⟩ (.inl hl)]
        exact congrArg _ (State.modPort_congr (e.trans (if_pos hl)))
      · rename_i hl
        rw [if_neg hl] at e
        split
        · rename_i hc
          rw [may.passes hv hst ⟨hsil, hsk⟩ (.inr hc)]
          exact congrArg _ (State.modPort_congr e)
        · rename_i hc
          rw [wraps st hst ⟨hsil, hsk⟩ fun k => k.elim hl hc]
          refine congrArg (fun u : State => Host.Outcome.next (u.beginTurn p)) (State.modPort_congr (e.trans ?_))
          rw [← Bool.eq_false_iff.mpr hc]
  · intro s p hp hn held
    have toHeld : ∀ {t : State}, s.Held t → held t := fun h q => ⟨(h q).turn, (h q).awaiting, (h q).ended, (h q).cut⟩
    have hold : 32 < s.line.s.ownQueue.length → s.line.pollHold = true := fun h => decide_eq_true h
    refine ⟨⟨s.underHold, ?_, ?_⟩, fun h q => ⟨toHeld (State.sendNext_held (hold h) q), toHeld (State.beginTurn_held (hold h) q)⟩⟩
    · refine (s.react_next (fun s => s.pollNext p) hp).trans ?_
      rw [State.pollNext_idle]
      refine hn.imp hold fun h => Bool.eq_false_iff.mpr fun k => ?_
      obtain ⟨hm, hs, ha⟩ := (PortState.canSend_iff _).mp k
      rcases h with h | h | h
      · exact h hm
      · exact h hs
      · rw [ha] at h
        cases h
    · have q := s.underHold_lineQuiet
      exact ⟨(q.port p).awaiting, (q.port p).stations, q.garage, q.pending,
        fun h => State.underHold_quiet (decide_eq_false (Nat.not_lt.mpr h)), fun h => toHeld (State.underHold_held (hold h))⟩

end Sys2Proof.Machine

namespace Sys2Proof.Machine

/-! ### The transmit arbiter (R17) -/

/-- A port as it begins the frame that the arbiter chooses, with that many frames of its turn left after it. -/
def PortState.takes (a : PortState) (left : Nat) : PortState :=
  match a.ownQueue, a.transitQueue with
  | [], [] => { a with turnLeft := 0 }
  | [], f :: rest =>
    { a with sending := some ⟨f, .plain⟩, transitQueue := rest, passOver := 0, turnLeft := left, breakDue := false }
  | x :: own, [] => { a with sending := some x, ownQueue := own, turnLeft := left, breakDue := false }
  | x :: own, f :: rest =>
    if a.passOver < 2 then
      { a with sending := some x, ownQueue := own, passOver := a.passOver + 1, turnLeft := left, breakDue := false }
    else { a with sending := some ⟨f, .plain⟩, transitQueue := rest, passOver := 0, turnLeft := left, breakDue := false }

/-- A port that may send, in poll hold or within its turn, begins what the arbiter chooses. -/
theorem PortState.sendNext_takes {a : PortState} (h : a.canSend = true) {hold : Bool} (hl : hold = true ∨ 0 < a.turnLeft) :
    a.sendNext hold = a.takes (if hold then 0 else a.turnLeft - 1) := by
  have hc : (a.canSend && (hold || decide (0 < a.turnLeft))) = true := by
    rw [h, Bool.true_and, Bool.or_eq_true, decide_eq_true_eq]
    exact hl
  unfold PortState.sendNext PortState.chooseFrame PortState.takes
  rw [if_pos hc]
  cases a.ownQueue <;> cases a.transitQueue <;> dsimp only
  by_cases hp : a.passOver < 2
  · rw [if_neg (Nat.not_le.mpr hp), if_pos hp]
  · rw [if_pos (Nat.not_lt.mp hp), if_neg hp]

/-- Without poll hold, a port whose turn is over begins nothing. -/
theorem PortState.sendNext_turnOver {a : PortState} (h : a.turnLeft = 0) : a.sendNext false = a := by
  unfold PortState.sendNext
  rw [if_neg]
  simp [h]

section Takes
variable {a : PortState} {x : QFrame} {own : List QFrame} {f : Frame} {rest : List Frame} (left : Nat)

theorem PortState.takes_none (ho : a.ownQueue = []) (ht : a.transitQueue = []) : a.takes left = { a with turnLeft := 0 } := by
  obtain ⟨⟩ := a
  dsimp only at ho ht
  subst ho ht
  rfl

theorem PortState.takes_transit (ho : a.ownQueue = []) (ht : a.transitQueue = f :: rest) : a.takes left = { a with
    sending := some ⟨f, .plain⟩, transitQueue := rest, passOver := 0, turnLeft := left, breakDue := false } := by
  obtain ⟨⟩ := a
  dsimp only at ho ht
  subst ho ht
  rfl

theorem PortState.takes_own (ho : a.ownQueue = x :: own) (ht : a.transitQueue = []) : a.takes left = { a with
    sending := some x, ownQueue := own, turnLeft := left, breakDue := false } := by
  obtain ⟨⟩ := a
  dsimp only at ho ht
  subst ho ht
  rfl

theorem PortState.takes_both (ho : a.ownQueue = x :: own) (ht : a.transitQueue = f :: rest) : a.takes left =
    if a.passOver < 2 then { a with
      sending := some x, ownQueue := own, passOver := a.passOver + 1, turnLeft := left, breakDue := false }
    else { a with
      sending := some ⟨f, .plain⟩, transitQueue := rest, passOver := 0, turnLeft := left, breakDue := false } := by
  obtain ⟨⟩ := a
  dsimp only at ho ht
  subst ho ht
  rfl

end Takes

theorem PortState.takes_turn (a : PortState) (n left : Nat) : ({ a with turnLeft := n } : PortState).takes left = a.takes left := by
  unfold PortState.takes
  dsimp only

/-- A port that has taken a frame has begun it, or had none: it takes no other, and has no more of its turn than was
left. -/
theorem PortState.takes_ends {a : PortState} (hv : a.visit = none) : (∀ hold, (a.takes 0).sendNext hold = a.takes 0) ∧
    (a.takes 0).visit = none ∧ (a.takes 0).turnLeft = 0 := by
  have sends : ∀ {b : PortState} {q : QFrame}, b.sending = some q → ∀ hold, b.sendNext hold = b := fun hb hold =>
    PortState.sendNext_waits (by simp [PortState.canSend, hb]) hold
  unfold PortState.takes
  cases ho : a.ownQueue with
  | nil =>
    cases ht : a.transitQueue with
    | nil =>
      refine ⟨fun hold => ?_, hv, rfl⟩
      unfold PortState.sendNext PortState.chooseFrame
      exact ite_self _
    | cons f rest => exact ⟨sends rfl, hv, rfl⟩
  | cons x own =>
    cases a.transitQueue with
    | nil => exact ⟨sends rfl, hv, rfl⟩
    | cons f rest =>
      dsimp only
      split <;> exact ⟨sends rfl, hv, rfl⟩

/-! ### A port caught by poll hold stays as it is (R18) -/

/-- A port that poll hold has caught: it has no turn left, and no visit but one that its exchange will end. -/
structure PortState.Caught (a : PortState) : Prop where
  turn : a.turnLeft = 0
  ended : a.awaiting = false → a.visit = none
  cut : ∀ v, a.visit = some v → v.cut = true

theorem PortState.enterHold_eq (a : PortState) : a.enterHold = match a.visit with
    | none => { a with turnLeft := 0 }
    | some v => if a.awaiting = true then { a with turnLeft := 0, visit := some { v with cut := true } }
      else if v.removed = false ∧ a.stations[a.pollPos]?.map Station.number = some v.station then
        (if a.pollPos + 1 < a.stations.length then { a with turnLeft := 0, visit := none, pollPos := a.pollPos + 1 }
        else { a with turnLeft := 0, visit := none, pollPos := 0, cyclePolled := false })
      else { a with turnLeft := 0, visit := none } := by
  unfold PortState.enterHold PortState.cutVisit PortState.endVisit PortState.advance
  cases hv : a.visit with
  | none =>
    dsimp only
    rw [← hv]
  | some v =>
    dsimp only
    split
    · rfl
    · split
      · split <;> rfl
      · rfl

theorem PortState.enterHold_canSend (a : PortState) : a.enterHold.canSend = a.canSend := by
  rw [PortState.enterHold_eq]
  repeat' split
  all_goals rfl

theorem PortState.enterHold_caught (a : PortState) : a.enterHold.Caught := by
  rw [PortState.enterHold_eq]
  split
  · rename_i hv
    exact ⟨rfl, fun _ => hv, fun v e => by rw [show a.visit = some v from e] at hv; cases hv⟩
  · split
    · rename_i ha
      exact ⟨rfl, fun k => absurd k (by rw [show a.awaiting = true from ha]; decide), fun v e => by cases e; rfl⟩
    · repeat' split
      all_goals exact ⟨rfl, fun _ => rfl, nofun⟩

theorem PortState.Caught.enterHold {a : PortState} (h : a.Caught) : a.enterHold = a := by
  rw [PortState.enterHold_eq]
  cases hv : a.visit with
  | none =>
    dsimp only
    rw [← h.turn, ← hv]
  | some v =>
    have ha : a.awaiting = true := Bool.not_eq_false _ ▸ fun k => by rw [h.ended k] at hv; cases hv
    have e : ({ v with cut := true } : Visit) = v := by rw [← h.cut v hv]
    dsimp only
    rw [if_pos ha, e, ← hv, ← h.turn]

theorem PortState.Caught.sendNext {a : PortState} (h : a.Caught) (hold : Bool) : (a.sendNext hold).Caught := by
  rcases a.sendNext_cases hold with e | ⟨-, e | ⟨left, hl, ⟨q, own, k, -, -, e⟩ | ⟨f, rest, -, e⟩⟩⟩ <;> rw [e]
  · exact h
  · exact { h with turn := rfl }
  · exact { h with turn := Nat.le_zero.mp (h.turn ▸ hl) }
  · exact { h with turn := Nat.le_zero.mp (h.turn ▸ hl) }

/-! ### The end of a transmission, a send turn, and poll hold (R17, R18, R181) -/

/-- Without poll hold, a port that begins its next frame changes nothing else. -/
theorem State.sendNext_quiet {s : State} (h : s.line.pollHold = false) (p : Port) :
    s.sendNext p = s.modPort p (PortState.sendNext false) := by
  unfold State.sendNext State.enterHold
  rw [h]
  rfl

/-- A frame with nothing to bring about has been sent. -/
theorem frameSent_plain {s : State} {p : Port} {q : QFrame} (hp : s.powered = true) (hd : NothingDue s p)
    (hq : (s.port p).sending = some q) (hm : q.mark = .plain) :
    exec (.frameSent p) s = .next ((s.modPort p fun a => { a with sending := none }).sendNext p).underHold := by
  refine (s.react_next (fun s => s.endTransmission p) hp).trans ?_
  rw [State.endTransmission_eq hq, hm, State.applyMark, State.applyDue_nothing]
  intro e
  subst e
  exact hd rfl

theorem State.modPort_modPort (s : State) (p : Port) (f g : PortState → PortState) :
    (s.modPort p f).modPort p g = s.modPort p fun a => g (f a) := by cases p <;> rfl

/-- Without poll hold, the end of such a frame lets the arbiter take the turn's next. -/
theorem frameSent_quiet {s : State} {p : Port} {q : QFrame} (hp : s.powered = true) (hd : NothingDue s p)
    (hq : (s.port p).sending = some q) (hm : q.mark = .plain) (hh : s.line.pollHold = false) :
    exec (.frameSent p) s =
      .next (s.modPort p fun _ => ({ s.port p with sending := none } : PortState).sendNext false) := by
  have hh' : (s.modPort p fun a => { a with sending := none }).line.pollHold = false := by cases p <;> exact hh
  rw [frameSent_plain hp hd hq hm, State.underHold_quiet (State.pollHold_of_own (State.sendNext_ownQueue _ p .s) hh'),
    State.sendNext_quiet hh', State.modPort_modPort, State.modPort_const]

/-- In poll hold, a port that is free begins what the arbiter chooses, whatever its turn. -/
theorem PortState.enterHold_sendNext (a : PortState) :
    (a.canSend = true → a.enterHold.sendNext true = a.enterHold.takes 0) ∧
    (a.canSend = false → a.enterHold.sendNext true = a.enterHold) := by
  rw [← a.enterHold_canSend]
  exact ⟨fun h => PortState.sendNext_takes h (.inl rfl), fun h => PortState.sendNext_waits h true⟩

theorem PortState.enterHold_awaiting (a : PortState) : a.enterHold.awaiting = a.awaiting :=
  a.enterHold_quiet.awaiting

theorem State.beginTurn_quiet {s : State} (h : s.line.pollHold = false) (p : Port) :
    s.beginTurn p = s.modPort p fun a => ({ a with turnLeft := 2 } : PortState).sendNext false := by
  unfold State.beginTurn
  rw [State.sendNext_quiet (by cases p <;> exact h), State.modPort_modPort]

/-- Under poll hold Port S begins its frame first, and Port G its own while the hold lasts (log 32). -/
theorem State.underHold_ports {s : State} (h : s.line.pollHold = true) :
    s.underHold.line.s = s.line.s.enterHold.sendNext true ∧
      s.underHold.line.g = s.line.g.enterHold.sendNext s.underHold.line.pollHold := by
  have e : s.underHold = (s.sendNext .s).sendNext .g := if_pos h
  have ws : (s.sendNext .s).line.s = s.line.s.enterHold.sendNext true := by
    have k := s.sendNext_port .s .s
    rw [if_pos rfl, State.enterHold_port, h] at k
    exact k
  have wg : (s.sendNext .s).line.g = s.line.g.enterHold := by
    have k := s.sendNext_port .s .g
    rw [if_neg (by decide), State.enterHold_port, h] at k
    exact k
  have caught : ∀ q, (s.sendNext .s).enterHold.port q = (s.sendNext .s).port q := fun q => by
    rw [State.enterHold_port]
    split
    · refine PortState.Caught.enterHold ?_
      cases q
      · rw [State.port_s, ws]
        exact s.line.s.enterHold_caught.sendNext true
      · rw [State.port_g, wg]
        exact s.line.g.enterHold_caught
    · rfl
  have ts : s.underHold.line.s = (s.sendNext .s).line.s := by
    have k := (s.sendNext .s).sendNext_port .g .s
    rw [if_neg (by decide), caught] at k
    rw [e]
    exact k
  have tg : s.underHold.line.g = (s.sendNext .s).line.g.sendNext (s.sendNext .s).line.pollHold := by
    have k := (s.sendNext .s).sendNext_port .g .g
    rw [if_pos rfl, caught] at k
    rw [e]
    exact k
  have th : s.underHold.line.pollHold = (s.sendNext .s).line.pollHold := by
    unfold Line.pollHold
    rw [ts]
  exact ⟨ts.trans ws, by rw [tg, wg, th]⟩

/-- A MOVE_ORDER has been sent: its move timer starts, the settings that wait take effect, and the arbiter goes on. -/
theorem moveOrderSent {s : State} {l : Lift} {f : Frame} {n : Nat} (hp : s.powered = true)
    (hq : s.line.g.sending = some ⟨f, .moveOrder l n⟩) : exec (.moveOrderSent l) s =
      .next ((State.applied { s.modPort .g (fun a => { a with sending := none }) with
        garage := s.garage.startMoveTimer l n }).sendNext .g).underHold := by
  rw [exec_moveOrderSent, execMoveOrderSent, s.react_next _ hp]
  dsimp only
  rw [hq]
  dsimp only
  rw [if_pos (show Mark.isOrderOf l (.moveOrder l n) = true by simp [Mark.isOrderOf]), State.endTransmission_g hq]
  rfl

/-- Settles O17: each clause is the equation of the arbiter, within a turn or in poll hold, after what comes before it. -/
theorem transmissionEnds : Obligations.TransmissionEnds := by
  unfold Obligations.TransmissionEnds
  refine ⟨?_, ?_, ?_⟩
  · intro s p q hp hd hh hm ha hq hmark a becomes
    have e : exec (.frameSent p) s = .next (s.modPort p fun _ => ({ a with sending := none } : PortState).sendNext false) :=
      frameSent_quiet hp hd hq hmark hh
    refine ⟨fun ht => e.trans (by rw [PortState.sendNext_turnOver]; exact ht), fun ht => ?_⟩
    have free : ({ a with sending := none } : PortState).canSend = true := (PortState.canSend_iff _).mpr ⟨hm, rfl, ha⟩
    have k : becomes (({ a with sending := none } : PortState).takes (a.turnLeft - 1)) := by
      rw [PortState.sendNext_takes free (.inr ht)] at e
      exact e
    refine ⟨fun ho ht => ?_, fun x own ho ht => ?_, fun f rest ho ht => ?_, fun x own f rest ho ht => ?_⟩
    · rw [PortState.takes_none (a := { a with sending := none }) _ ho ht] at k
      exact k
    · rw [PortState.takes_own (a := { a with sending := none }) _ ho ht] at k
      exact k
    · rw [PortState.takes_transit (a := { a with sending := none }) _ ho ht] at k
      exact k
    · rw [PortState.takes_both (a := { a with sending := none }) _ ho ht] at k
      split
      · rename_i h
        dsimp only at k
        rw [if_pos h] at k
        exact k
      · rename_i h
        dsimp only at k
        rw [if_neg h] at k
        exact k
  · intro s l hp hd
    refine ⟨fun f n hq => ⟨_, moveOrderSent hp hq, ?_⟩, fun hn hh => ?_⟩
    · let u : State := { s.modPort .g (fun a => { a with sending := none }) with garage := s.garage.startMoveTimer l n }
      have hu : u.applied = u := State.applyDue_nothing (p := .g) fun _ => hd
      have q := (u.sendNext_lineQuiet .g).trans (State.underHold_lineQuiet _)
      show let t := (u.applied.sendNext .g).underHold; _
      rw [hu]
      exact ⟨⟨q.powered, q.storeHeld, q.pending, ⟨q.onS.same, { q.onG.same with }, q.passTable, q.due⟩⟩,
         q.onG.stations, q.onS.stations, q.garage⟩
    · rw [exec_moveOrderSent, execMoveOrderSent, s.react_next _ hp]
      have unmoved : (match s.line.g.sending with
          | some q => if q.mark.isOrderOf l = true then s.endTransmission .g else s
          | none => s) = s := by
        rcases hq : s.line.g.sending with _ | ⟨f, m⟩
        · rfl
        · refine if_neg fun k => ?_
          cases m with
          | moveOrder j n =>
            have e : j = l := by simpa [Mark.isOrderOf] using k
            exact hn f n (e ▸ hq)
          | plain => cases k
          | restartReply => cases k
          | lineReply r => cases k
      exact (congrArg (fun u : State => Host.Outcome.next u.underHold) unmoved).trans (by rw [State.underHold_quiet hh])
  · intro s p may takes cut
    have hmay : ∀ a, may a ↔ a.canSend = true := fun a => (PortState.canSend_iff a).symm
    have htakes : ∀ a left, takes a left = a.takes left := fun a left => rfl
    have hcut : ∀ a, cut a = a.enterHold := fun a => a.enterHold_eq.symm
    refine ⟨fun hl => ?_, fun hp hl => ⟨fun q hd hm ha hq hmark => ?_, s.underHold, ?_, s.underHold_lineQuiet.garage, ?_⟩⟩
    · rw [State.beginTurn_quiet (decide_eq_false (Nat.not_lt.mpr hl))]
      refine ⟨fun h => State.modPort_congr ?_, fun h => State.modPort_congr ?_⟩
      · rw [htakes, ← PortState.takes_turn _ 2]
        exact PortState.sendNext_takes (a := { s.port p with turnLeft := 2 }) ((hmay _).mp h) (.inr Nat.two_pos)
      · exact PortState.sendNext_waits (a := { s.port p with turnLeft := 2 })
          (Bool.eq_false_iff.mpr fun k => h ((hmay _).mpr k)) false
    · refine ⟨_, frameSent_plain hp hd hq hmark, ?_⟩
      rw [hcut, htakes]
      let a : PortState := { s.port p with sending := none }
      have free : a.canSend = true := (PortState.canSend_iff _).mpr ⟨hm, rfl, ha⟩
      have hold : (s.modPort p fun a => { a with sending := none }).line.pollHold = true := by
        cases p <;> exact decide_eq_true hl
      have e : ((s.modPort p fun a => { a with sending := none }).sendNext p).port p = a.enterHold.takes 0 := by
        rw [State.sendNext_port, if_pos rfl, State.enterHold_port, if_pos hold, State.modPort_port, hold]
        exact a.enterHold_sendNext.1 free
      obtain ⟨hs, hv, ht⟩ := PortState.takes_ends (a := a.enterHold) (a.enterHold_caught.ended (a.enterHold_awaiting.trans ha))
      rw [State.underHold_done (by rw [e]; exact hs) (by rw [e]; exact hv) (by rw [e]; exact ht), e]
    · exact (s.react_next (fun s => s.pollNext p) hp).trans (by rw [State.pollNext_idle (.inl (decide_eq_true hl))])
    · obtain ⟨hs, hg⟩ := State.underHold_ports (s := s) (decide_eq_true hl)
      rw [hcut, hcut, htakes, htakes, hmay, hmay, hs, hg]
      have fs := s.line.s.enterHold_sendNext
      have fg := s.line.g.enterHold_sendNext
      refine ⟨fs.1, fun h => fs.2 (Bool.eq_false_iff.mpr h), fun h hn => ?_, fun h => ?_⟩
      · rw [show s.underHold.line.pollHold = true from decide_eq_true (hs ▸ hn)]
        exact fg.1 h
      · cases hh : s.underHold.line.pollHold with
        | false => exact PortState.sendNext_turnOver s.line.g.enterHold_caught.turn
        | true =>
          refine fg.2 (Bool.eq_false_iff.mpr fun k => h.elim (fun h => h k) fun h => ?_)
          have k : 32 < s.underHold.line.s.ownQueue.length := of_decide_eq_true hh
          rw [hs] at k
          omega

end Sys2Proof.Machine

namespace Sys2Proof.Machine

/-! ### What an answer's own effects leave of its exchange (R5, R6) -/

/-- A port whose exchange and visit are as they were, at a poll position among the same stations. -/
structure PortState.SameExchange (a b : PortState) : Prop where
  awaiting : b.awaiting = a.awaiting
  visit : b.visit = a.visit
  mode : b.mode = a.mode
  pollPos : b.pollPos = a.pollPos
  cyclePolled : b.cyclePolled = a.cyclePolled
  sending : b.sending = a.sending
  numbers : b.stations.map Station.number = a.stations.map Station.number

theorem PortState.SameExchange.refl (a : PortState) : a.SameExchange a := ⟨rfl, rfl, rfl, rfl, rfl, rfl, rfl⟩

theorem PortState.SameExchange.trans {a b c : PortState} (h : a.SameExchange b) (k : b.SameExchange c) : a.SameExchange c :=
  ⟨k.awaiting.trans h.awaiting, k.visit.trans h.visit, k.mode.trans h.mode, k.pollPos.trans h.pollPos,
    k.cyclePolled.trans h.cyclePolled, k.sending.trans h.sending, k.numbers.trans h.numbers⟩

theorem Answering.sameExchange {p : Port} {u w : State} {sts : List Station} (h : Answering p u w sts) :
    (u.port p).SameExchange (w.port p) := by
  rw [h.port]
  exact ⟨rfl, rfl, rfl, rfl, rfl, rfl, h.numbers⟩

/-- An effect that goes on beside the settings that wait, and leaves the exchange of a port as it is. -/
structure Accompanies (p : Port) (f : State → State) (u : State) : Prop where
  beside : ∀ due, f (u.waits due) = (f u).waits due
  kept : (u.port p).SameExchange ((f u).port p)

section
variable {p : Port} {f h : State → State} {u : State}

theorem Accompanies.comp (hf : Accompanies p f (h u)) (hh : Accompanies p h u) : Accompanies p (fun u => f (h u)) u where
  beside due := by
    show f (h (u.waits due)) = _
    rw [hh.beside, hf.beside]
  kept := hh.kept.trans hf.kept

/-- An effect that is the same as another whatever settings wait. -/
theorem Accompanies.of_eq (hh : Accompanies p h u) (e : ∀ due, f (u.waits due) = h (u.waits due)) : Accompanies p f u where
  beside due := by
    have e0 : f u = h u := e u.line.lineDueG
    rw [e, e0, hh.beside]
  kept := by
    have e0 : f u = h u := e u.line.lineDueG
    rw [e0]
    exact hh.kept

theorem run_accompanies (e : Ev → Ev) (u : State) : Accompanies p (fun u => u.run e) u where
  beside := run_beside e u
  kept := by
    have k := (State.run_queuesOnly u e).port p
    show (u.port p).SameExchange ((u.run e).line.port p)
    rw [k]
    exact ⟨rfl, rfl, rfl, rfl, rfl, rfl, rfl⟩

theorem modPort_accompanies (q : Port) {g : PortState → PortState} (hg : ∀ a : PortState, a.SameExchange (g a)) (u : State) :
    Accompanies p (fun u => u.modPort q g) u where
  beside := modPort_beside q g u
  kept := by
    by_cases e : p = q
    · subst e
      rw [State.modPort_port]
      exact hg _
    · rw [State.modPort_port_other _ _ _ _ e]
      exact .refl _

theorem tallyFault_accompanies (q : Port) (u : State) : Accompanies p (fun u => u.tallyFault q) u :=
  modPort_accompanies q (g := fun ps => { ps with faultTally := tallyUp ps.faultTally })
    (fun _ => ⟨rfl, rfl, rfl, rfl, rfl, rfl, rfl⟩) u

theorem heard_accompanies (st : Station) (a : Bool) (u : State) : Accompanies p (fun u => u.heard p st a) u where
  beside := (run_beside (heardEv p st a)).comp (modPort_beside p _) u
  kept := (u.heard_answering p st a).sameExchange

theorem chargeMiss_accompanies (st : Station) (u : State) : Accompanies p (fun u => u.chargeMiss p st) u where
  beside due := by
    by_cases h : st.poll = .active ∧ 3 ≤ st.misses + 1
    · rw [State.chargeMiss_third _ p h, State.chargeMiss_third _ p h]
      exact (run_beside (silentEv p st)).comp (modPort_beside p _) u due
    · rw [State.chargeMiss_counted _ p h, State.chargeMiss_counted _ p h]
      exact modPort_beside p _ u due
  kept := (u.chargeMiss_answering p st).sameExchange

theorem PortState.passOn_sameExchange (a : PortState) (f : Frame) : a.SameExchange (a.passOn f) := by
  unfold PortState.passOn
  split <;> exact ⟨rfl, rfl, rfl, rfl, rfl, rfl, rfl⟩

/-- What the routing of a frame between stations does: one change of a port, one ALERT, or nothing (R19). -/
def State.fate (u : State) (p : Port) (source : Nat) (f : Frame) : State → State :=
  match u.line.reaches f.dest.toNat with
  | none => fun v => v.modPort p fun ps => { ps with dropTally := tallyUp ps.dropTally }
  | some q =>
    match u.line.passTable.find? fun en => en.covers source f.dest.toNat f.kind.toNat with
    | none => fun v => v
    | some en =>
      match u.garage.passes en.action with
      | some true => fun v => v.modPort q fun ps => ps.passOn f
      | some false => fun v => v
      | none => fun v => v.run fun e => e.alert AlertKind.passGated (w8 source ++ [f.dest] ++ [f.kind])

theorem State.route_eq (u : State) (p : Port) (source : Nat) (f : Frame) : u.route p source f = u.fate p source f u := by
  unfold State.route State.fate
  cases u.line.reaches f.dest.toNat with
  | none => rfl
  | some q =>
    dsimp only
    cases u.line.passTable.find? fun en => en.covers source f.dest.toNat f.kind.toNat with
    | none => rfl
    | some en =>
      dsimp only
      cases u.garage.passes en.action with
      | none => rfl
      | some b => cases b <;> rfl

theorem route_accompanies (n : Nat) (f : Frame) (u : State) : Accompanies p (fun u => u.route p n f) u := by
  have k : ∀ v : State, Accompanies p (v.fate p n f) u := fun v => by
    unfold State.fate
    split
    · exact modPort_accompanies p (g := fun ps => { ps with dropTally := tallyUp ps.dropTally })
        (fun _ => ⟨rfl, rfl, rfl, rfl, rfl, rfl, rfl⟩) u
    · split
      · exact ⟨fun _ => rfl, .refl _⟩
      · split
        · exact modPort_accompanies _ (fun a => a.passOn_sameExchange f) u
        · exact ⟨fun _ => rfl, .refl _⟩
        · exact run_accompanies _ u
  exact (k u).of_eq fun due => State.route_eq _ p n f

/-! ### The bodies of frames to the part -/

/-- A SET_LINE of Port S whose reply finds room is an event (R22). -/
theorem setLine_accompanies (c : Caller) (pl : List Byte) (u : State) (hc : c.port = .s) (room : u.line.s.hasRoom) :
    Accompanies p (setLineBody c pl) u := by
  have taken : ∀ r, Accompanies p (fun u => u.setLineTaken c r) u := fun r => by
    refine (run_accompanies (fun e => e.replyMarked c Kind.setLine .taken (lineDetail r) (.lineReply r)) u).of_eq fun due => ?_
    unfold State.setLineTaken
    rw [hc, ((u.waits due).line.takes_iff _).mpr room]
    rfl
  unfold setLineBody
  cases portOf (u8 pl 0) with
  | none => exact run_accompanies _ u
  | some q =>
    cases parityOf (u8 pl 3) with
    | none => exact run_accompanies _ u
    | some par =>
      dsimp only
      cases flag8 pl 5 with
      | true => exact taken _
      | false =>
        cases q with
        | s => exact run_accompanies (fun e => e.reply c Kind.setLine .notApplicable (w8 5)) u
        | g =>
          by_cases hm : u.garage.mode = .service
          · exact (run_accompanies (fun e => e.reply c Kind.setLine .refused (w8 5)) u).of_eq fun due => if_pos hm
          · exact (taken ⟨.g, lineValues pl par, false⟩).of_eq fun due => if_neg hm

theorem restart_accompanies (c : Caller) (pl : List Byte) (u : State) (hc : c.port = .s) (room : u.line.s.hasRoom) :
    Accompanies p (restartBody c pl) u := by
  refine (run_accompanies (fun e => e.replyMarked c Kind.restart .taken [] .restartReply) u).of_eq fun due => ?_
  unfold restartBody
  rw [if_pos]
  rw [hc]
  exact ((u.waits due).line.takes_iff _).mpr room

theorem loadPass_accompanies (c : Caller) (pl : List Byte) (u : State) : Accompanies p (loadPassBody c pl) u := by
  cases ht : loadedPass u.line.passTable pl with
  | error x =>
    obtain ⟨r, pos⟩ := x
    refine (run_accompanies (fun e => e.reply c Kind.loadPass r (w8 pos)) u).of_eq fun due => ?_
    unfold loadPassBody
    rw [show loadedPass (u.waits due).line.passTable pl = _ from ht]
  | ok table =>
    have move : Accompanies p (fun u : State => { u with line := { u.line with passTable := table } }) u :=
      ⟨fun _ => rfl, by cases p <;> exact ⟨rfl, rfl, rfl, rfl, rfl, rfl, rfl⟩⟩
    refine ((run_accompanies (fun e => e.reply c Kind.loadPass .taken (w8 table.length)) _).comp move).of_eq fun due => ?_
    unfold loadPassBody
    rw [show loadedPass (u.waits due).line.passTable pl = _ from ht]

theorem statusClear_accompanies (c : Caller) (pl : List Byte) (u : State) : Accompanies p (statusClearBody c pl) u := by
  have move : Accompanies p (fun u : State => { u with line := u.line.clearTallies }) u :=
    ⟨fun _ => rfl, by cases p <;> exact ⟨rfl, rfl, rfl, rfl, rfl, rfl, rfl⟩⟩
  exact (run_accompanies (fun e => e.reply c Kind.statusClear .taken []) _).comp move

/-- The body of a kind is one event, but for those that manage the lines or look at them. -/
theorem bodyOf_event {kind : Byte} (h : kind ∉ [Kind.setLine, Kind.loadStations, Kind.loadPass, Kind.status, Kind.statusClear,
    Kind.restart, Kind.enterService, Kind.liftService]) : ∃ f, bodyOf kind = evBody f := by
  have other : ∀ k : Byte, kind.toNat = k.toNat → kind ≠ k → False := fun k e hk => hk (BitVec.eq_of_toNat_eq e)
  have lift : ∀ f, ∃ g, liftBody f = evBody g := fun f => by
    unfold liftBody
    exact ⟨_, rfl⟩
  simp only [List.mem_cons, List.not_mem_nil, or_false, not_or] at h
  obtain ⟨h1, h2, h3, h4, h5, h6, h7, h8⟩ := h
  generalize hb : bodyOf kind = body
  unfold bodyOf at hb
  split at hb <;> subst hb
  case h_13 | h_14 | h_15 | h_16 | h_17 => exact lift _
  case h_18 e => exact (other Kind.setLine e h1).elim
  case h_19 e => exact (other Kind.loadStations e h2).elim
  case h_20 e => exact (other Kind.loadPass e h3).elim
  case h_21 e => exact (other Kind.status e h4).elim
  case h_22 e => exact (other Kind.statusClear e h5).elim
  case h_23 e => exact (other Kind.restart e h6).elim
  case h_29 e => exact (other Kind.enterService e h7).elim
  case h_40 e => exact (other Kind.liftService e h8).elim
  all_goals exact ⟨_, rfl⟩

/-- A frame to the part leaves the exchange that brought it as it is, but for a LOAD_STATIONS, and for a SET_LINE or a
RESTART whose reply finds no room. -/
theorem bodyOf_accompanies (kind : Byte) (c : Caller) (pl : List Byte) (u : State) (hl : kind ≠ Kind.loadStations)
    (hr : kind = Kind.setLine ∨ kind = Kind.restart → c.port = .s ∧ u.line.s.hasRoom) :
    Accompanies p (bodyOf kind c pl) u := by
  by_cases h : kind ∈ [Kind.setLine, Kind.loadStations, Kind.loadPass, Kind.status, Kind.statusClear, Kind.restart,
    Kind.enterService, Kind.liftService]
  · simp only [List.mem_cons, List.not_mem_nil, or_false] at h
    rcases h with rfl | rfl | rfl | rfl | rfl | rfl | rfl | rfl
    · exact setLine_accompanies c pl u (hr (.inl rfl)).1 (hr (.inl rfl)).2
    · exact absurd rfl hl
    · exact loadPass_accompanies c pl u
    · exact (run_accompanies (fun e => e.reply c Kind.status .taken (statusRecord u)) u).of_eq fun _ => rfl
    · exact statusClear_accompanies c pl u
    · exact restart_accompanies c pl u (hr (.inr rfl)).1 (hr (.inr rfl)).2
    · exact (run_accompanies (fun e => enterService u.line.g.stations c e) u).of_eq fun _ => rfl
    · exact (run_accompanies (fun e => settle (liftService u.line.hears c pl e)) u).of_eq fun _ => rfl
  · obtain ⟨f, hf⟩ := bodyOf_event h
    rw [hf]
    exact run_accompanies (fun e => f c pl e) u

theorem judge_accompanies (c : Caller) (kind : Byte) (pl : List Byte) (u : State) (hl : kind ≠ Kind.loadStations)
    (hr : kind = Kind.setLine ∨ kind = Kind.restart → c.port = .s ∧ u.line.s.hasRoom) :
    Accompanies p (fun u => u.judge c kind pl (bodyOf kind)) u := by
  cases hp : permits c.role kind with
  | false => exact (run_accompanies _ u).of_eq fun due => State.judge_role (u := u.waits due) hp pl _
  | true =>
    cases hm : takenIn u.garage.mode kind with
    | false => exact (run_accompanies _ u).of_eq fun due => State.judge_mode (u := u.waits due) hp hm pl _
    | true =>
      cases hw : wellShaped kind pl with
      | false => exact (run_accompanies _ u).of_eq fun due => State.judge_shape (u := u.waits due) hp hm hw _
      | true =>
        refine (bodyOf_accompanies kind c pl u hl hr).of_eq fun due => ?_
        unfold State.judge
        rw [show takenIn (u.waits due).garage.mode kind = true from hm, hp, hw]
        rfl

/-! ### How an answer ends its exchange, whatever settings wait (R22) -/

/-- An effect comes to the end of a port's exchange, from a state with that exchange as it was. -/
def Comes (p : Port) (f : State → State) (s : State) (more : Bool) : Prop :=
  ∃ u : State, (s.port p).SameExchange (u.port p) ∧ ∀ due, f (s.waits due) = (u.waits due).finishExchange p more

variable {s : State}

theorem comes_removed (hf : EndsExchange p f) (ha : (s.port p).awaiting = true) (hp : (s.port p).polled = none) :
    Comes p f s false :=
  ⟨s, .refl _, fun due => hf.removed (s.waits due) (by cases p <;> exact ha) (by cases p <;> exact hp)⟩

theorem comes_endExchange {g : Station → State → State} (ha : (s.port p).awaiting = true)
    (hg : ∀ st, Accompanies p (g st) s) : Comes p (fun s => s.endExchange p g) s false := by
  cases hp : (s.port p).polled with
  | none => exact comes_removed (endExchange_ends p g) ha hp
  | some st =>
    refine ⟨g st s, (hg st).kept, fun due => ?_⟩
    dsimp only
    rw [State.endExchange_polled (st := st) (by cases p <;> exact hp), (hg st).beside]

/-- A data frame of the polled station, not too long, acts once the station is heard (R9). -/
theorem State.dataFrame_heard {flags : Byte} {pl : List Byte} {st : Station} (hp : (s.port p).polled = some st)
    (h48 : pl.length ≤ 48) (g : Station → State → State) :
    s.dataFrame p flags pl g = (g st (s.heard p st true)).finishExchange p (moreFlag flags) := by
  unfold State.dataFrame
  rw [if_pos (PortState.polled_awaiting hp), hp]
  exact if_neg (by omega)

theorem comes_dataFrame {g : Station → State → State} {flags : Byte} {pl : List Byte} {st : Station}
    (hp : (s.port p).polled = some st) (h48 : pl.length ≤ 48) (hg : Accompanies p (g st) (s.heard p st true)) :
    Comes p (fun s => s.dataFrame p flags pl g) s (flags.getLsbD 0) := by
  have k := hg.comp (heard_accompanies st true s)
  refine ⟨_, k.kept, fun due => ?_⟩
  rw [← k.beside]
  exact State.dataFrame_heard (by cases p <;> exact hp) h48 g

end

/-- The end of an exchange: its visit goes on or ends, the settings that wait are applied, and the port takes its send
turn (R5, R6, R17, R22). -/
theorem State.finishExchange_eq {u : State} {p : Port} {more : Bool} {v : Visit} (ha : (u.port p).awaiting = true)
    (hv : (u.port p).visit = some v) : u.finishExchange p more = ((u.modPort p fun _ =>
      if (more && (u.port p).goesOn u.line.pollHold v) = true then (u.port p).deaf
      else (u.port p).deaf.endVisit).applyDue p).beginTurn p := by
  unfold State.finishExchange
  dsimp only
  rw [if_pos ha, hv]
  dsimp only
  rw [State.modPort_const]
  rfl

theorem PortState.goesOn_iff (a : PortState) (hold : Bool) (v : Visit) : a.goesOn hold v = true ↔
    v.exchanges < 4 ∧ v.cut = false ∧ v.removed = false ∧ hold = false ∧ a.mode = .running ∧
      ∃ x ∈ a.stations, x.number = v.station := by
  simp [PortState.goesOn, PortState.hasStation, and_assoc]

end Sys2Proof.Machine

namespace Sys2Proof.Machine

/-! ### Frames between stations (R19) -/

/-- A change of a port that does not look at its own queue or at its stations. -/
structure PortState.Aside (g : PortState → PortState) : Prop where
  own : ∀ (a : PortState) qs, g { a with ownQueue := qs } = { g a with ownQueue := qs }
  stations : ∀ (a : PortState) sts, g { a with stations := sts } = { g a with stations := sts }
  awaiting : ∀ a : PortState, (g a).awaiting = a.awaiting

theorem PortState.Aside.stations_kept {g : PortState → PortState} (h : PortState.Aside g) (a : PortState) :
    (g a).stations = a.stations := by
  have k := congrArg PortState.stations (h.stations a a.stations)
  exact k

theorem QueuesOnly.of_queues {a b : Line} {qs qg : List QFrame} {n : Nat} (h : b = { a with
    s := { a.s with ownQueue := qs }, g := { a.g with ownQueue := qg }, noticeDrops := n }) : QueuesOnly a b := by
  subst h
  exact ⟨rfl⟩

theorem QueuesOnly.modPort {a b : Line} (h : QueuesOnly a b) (q : Port) {g : PortState → PortState} (hg : PortState.Aside g) :
    QueuesOnly (a.modPort q g) (b.modPort q g) := by
  refine .of_queues (qs := b.s.ownQueue) (qg := b.g.ownQueue) (n := b.noticeDrops) ?_
  cases q
  · refine (congrArg (Line.modPort · .s g) h.eq).trans ?_
    show ({ a with s := g { a.s with ownQueue := b.s.ownQueue }, g := _, noticeDrops := b.noticeDrops } : Line) = _
    rw [hg.own]
    rfl
  · refine (congrArg (Line.modPort · .g g) h.eq).trans ?_
    show ({ a with s := _, g := g { a.g with ownQueue := b.g.ownQueue }, noticeDrops := b.noticeDrops } : Line) = _
    rw [hg.own]
    rfl

theorem Line.modPort_stations_comm (ln : Line) (p q : Port) {g : PortState → PortState} (hg : PortState.Aside g)
    (sts : List Station) : (ln.modPort q g).modPort p (fun a => { a with stations := sts }) =
      (ln.modPort p fun a => { a with stations := sts }).modPort q g := by
  cases p <;> cases q
  · exact congrArg (fun a => ({ ln with s := a } : Line)) (hg.stations ln.s sts).symm
  · rfl
  · rfl
  · exact congrArg (fun a => ({ ln with g := a } : Line)) (hg.stations ln.g sts).symm

/-- An answer's effects with one more change of a port, from the state that has that change already. -/
theorem Answering.modPort {p : Port} {u w : State} {sts : List Station} (h : Answering p u w sts) (q : Port)
    {g : PortState → PortState} (hg : PortState.Aside g) : Answering p (u.modPort q g) (w.modPort q g) sts := by
  refine ⟨?_, ?_, ?_, ?_, ?_⟩
  · rw [State.modPort_powered, State.modPort_powered, h.powered]
  · rw [State.modPort_storeHeld, State.modPort_storeHeld, h.storeHeld]
  · rw [State.modPort_pending, State.modPort_pending, h.pending]
  · rw [State.modPort_line, State.modPort_line, Line.modPort_stations_comm _ _ _ hg]
    exact h.line.modPort q hg
  · rw [h.numbers]
    by_cases e : p = q
    · subst e
      rw [State.modPort_port, hg.stations_kept]
    · rw [State.modPort_port_other _ _ _ _ e]

theorem Garage.heardAs_out (g : Garage) (st : Station) (l : Lift) :
    ((g.heardAs st).lift l).state = .out ↔ (g.lift l).state = .out := by
  have unit : ∀ u : LiftUnit, (if u.state = .offline then { u with state := .notReady, readiness := .none }
      else if st.poll = .silent then { u with readiness := .none } else u : LiftUnit).state = .out ↔ u.state = .out := fun u => by
    split
    · rename_i h
      rw [h]
      exact ⟨nofun, nofun⟩
    · split <;> exact Iff.rfl
  unfold Garage.heardAs Garage.heardLift
  cases roleLift st.role with
  | none => exact Iff.rfl
  | some k =>
    cases l <;> cases k
    · exact unit g.liftA
    · exact Iff.rfl
    · exact Iff.rfl
    · exact unit g.liftB

theorem Garage.heardAs_passes (g : Garage) (st : Station) (a : PassAction) : (g.heardAs st).passes a = g.passes a := by
  have ha := g.heardAs_out st .a
  have hb := g.heardAs_out st .b
  cases a
  · rfl
  · rfl
  · simp only [Garage.passes]
    exact ite_congr (propext ha) (fun _ => rfl) fun _ => rfl
  · simp only [Garage.passes]
    exact ite_congr (propext hb) (fun _ => rfl) fun _ => rfl

/-- The hearing of the sender changes nothing of what becomes of its frame. -/
theorem State.heard_fate (s : State) (p : Port) (st : Station) (n : Nat) (f : Frame) :
    (s.heard p st true).fate p n f = s.fate p n f := by
  have hr := (s.heard_places p st true).2 f.dest.toNat
  have hp := (s.heard_answering p st true).sameLines.passTable
  unfold State.fate
  rw [hr, hp, s.heard_garage_accepted]
  simp only [Garage.heardAs_passes]

section Fate
variable {s : State} {p q : Port} {n : Nat} {f : Frame}

/-- The entry of the pass table that is looked for (R19). -/
theorem PassEntry.covers_eq (n d k : Nat) : (fun en : PassEntry => en.covers n d k) = fun en =>
    (en.source = none || en.source = some n) && en.dest == d && decide (en.low ≤ k) && decide (k ≤ en.high) := by
  funext en
  unfold PassEntry.covers
  cases en.source <;> simp [beq_eq_decide]

theorem State.fate_unreached (h : s.line.reaches f.dest.toNat = none) :
    s.fate p n f = fun v => v.modPort p fun ps => { ps with dropTally := tallyUp ps.dropTally } := by
  unfold State.fate
  rw [h]

theorem State.fate_uncovered (h : s.line.reaches f.dest.toNat = some q)
    (he : (s.line.passTable.find? fun en => en.covers n f.dest.toNat f.kind.toNat) = none) : s.fate p n f = fun v => v := by
  unfold State.fate
  rw [h]
  dsimp only
  rw [he]

theorem State.fate_entry {en : PassEntry} (h : s.line.reaches f.dest.toNat = some q)
    (he : (s.line.passTable.find? fun en => en.covers n f.dest.toNat f.kind.toNat) = some en) :
    (s.garage.passes en.action = some false → s.fate p n f = fun v => v) ∧
    (s.garage.passes en.action = some true → s.fate p n f = fun v => v.modPort q fun ps => ps.passOn f) ∧
    (s.garage.passes en.action = none → s.fate p n f =
      fun v => v.run fun e => e.alert AlertKind.passGated (w8 n ++ [f.dest] ++ [f.kind])) := by
  unfold State.fate
  rw [h]
  dsimp only
  rw [he]
  dsimp only
  refine ⟨fun k => ?_, fun k => ?_, fun k => ?_⟩ <;> rw [k]

end Fate

/-- Which frames an action lets pass now, and which it turns away. -/
theorem Garage.passes_cases (g : Garage) (a : PassAction) :
    let opened := a = .pass ∨ (a = .gateA ∧ g.liftA.state = .out) ∨ (a = .gateB ∧ g.liftB.state = .out)
    (a = .drop → g.passes a = some false) ∧ (opened → g.passes a = some true) ∧
      (a ≠ .drop → ¬ opened → g.passes a = none) := by
  cases a <;> simp [Garage.passes]

theorem State.route_keeps (u : State) (p q : Port) (n : Nat) (f : Frame) :
    (u.route p n f).garage = u.garage ∧ ((u.route p n f).port q).stations = (u.port q).stations ∧
      (u.route p n f).line.lineDueG = u.line.lineDueG := by
  have mods : ∀ (r : Port) (g : PortState → PortState), (∀ a, (g a).stations = a.stations) →
      (u.modPort r g).garage = u.garage ∧ ((u.modPort r g).port q).stations = (u.port q).stations ∧
        (u.modPort r g).line.lineDueG = u.line.lineDueG := fun r g hg => by
    refine ⟨State.modPort_garage _ _ _, ?_, Line.modPort_lineDueG _ _ _⟩
    by_cases e : q = r
    · subst e
      rw [State.modPort_port, hg]
    · rw [State.modPort_port_other _ _ _ _ e]
  rw [State.route_eq]
  generalize hh : u.fate p n f = h
  unfold State.fate at hh
  split at hh
  · subst hh
    exact mods p (fun ps => { ps with dropTally := tallyUp ps.dropTally }) fun _ => rfl
  · split at hh
    · subst hh
      exact ⟨rfl, rfl, rfl⟩
    · split at hh <;> subst hh
      · exact mods _ _ fun a => by unfold PortState.passOn; split <;> rfl
      · exact ⟨rfl, rfl, rfl⟩
      · have k := State.run_queuesOnly u fun e => e.alert AlertKind.passGated (w8 n ++ [f.dest] ++ [f.kind])
        refine ⟨rfl, ?_, k.due⟩
        cases q
        · exact k.stations_s
        · exact k.stations_g

/-! ### TRANSIT, and the end of any exchange (R5, R6, R19, R22) -/

theorem Asking.transit {s : State} {p : Port} {st : Station} (ask : Asking s p st) {f : Frame} (h48 : f.payload.length ≤ 48) :
    exec (.transit p f) s = .next
      (((s.fate p st.number f (s.heard p st true)).finishExchange p (moreFlag f.flags)).underHold) := by
  refine (s.react_next (fun s => s.dataFrame p f.flags f.payload fun st s => s.route p st.number f) ask.1).trans ?_
  rw [State.dataFrame_heard ask.2 h48, State.route_eq, State.heard_fate]

/-- The exchange of a frame whose fate is a change of a port (R19). -/
theorem Asking.over_modPort {s : State} {p : Port} {st : Station} (ask : Asking s p st) (hd : NothingDue s p) (q : Port)
    {g : PortState → PortState} (hg : PortState.Aside g) (more : Bool) :
    ExchangeOver p (s.modPort q g) ((s.heard p st true).modPort q g)
        (((s.heard p st true).modPort q g).finishExchange p more).underHold ((s.port p).answeredBy st) := by
  refine ((s.heard_answering p st true).modPort q hg).over ?_ (fun e => ?_) more
  · rw [← PortState.polled_awaiting ask.2]
    by_cases e : p = q
    · subst e
      rw [State.modPort_port, hg.awaiting]
    · rw [State.modPort_port_other _ _ _ _ e]
  · rw [State.modPort_line, Line.modPort_lineDueG]
    exact hd e

theorem Asking.heard_modPort {s : State} {p : Port} {st : Station} (ask : Asking s p st) (hd : NothingDue s p) (q : Port)
    {g : PortState → PortState} (hg : PortState.Aside g) (more : Bool) :
    Heard p (s.modPort q g) (((s.heard p st true).modPort q g).finishExchange p more).underHold st := by
  refine ExchangeOver.heard (w := (s.heard p st true).modPort q g) ?_
  have e : ((s.modPort q g).port p).answeredBy st = (s.port p).answeredBy st := by
    unfold PortState.answeredBy
    by_cases e : p = q
    · subst e
      rw [State.modPort_port, hg.stations_kept]
    · rw [State.modPort_port_other _ _ _ _ e]
  rw [e]
  exact ask.over_modPort hd q hg more

theorem dropTally_aside : PortState.Aside fun ps => { ps with dropTally := tallyUp ps.dropTally } :=
  ⟨fun _ _ => rfl, fun _ _ => rfl, fun _ => rfl⟩

theorem transitQueue_aside (f : Frame) : PortState.Aside fun ps => { ps with transitQueue := ps.transitQueue ++ [f] } :=
  ⟨fun _ _ => rfl, fun _ _ => rfl, fun _ => rfl⟩

theorem PortState.endVisit_eq {a : PortState} {v : Visit} (hv : a.visit = some v) : a.endVisit =
    if v.removed = false ∧ a.stations[a.pollPos]?.map Station.number = some v.station then
      (if a.pollPos + 1 < a.stations.length then { a with visit := none, pollPos := a.pollPos + 1 }
      else { a with visit := none, pollPos := 0, cyclePolled := false })
    else { a with visit := none } := by
  unfold PortState.endVisit
  rw [hv]
  rfl

theorem Answering.transitQueue {p : Port} {u w : State} {sts : List Station} (h : Answering p u w sts) (q : Port) :
    (w.port q).transitQueue = (u.port q).transitQueue := by
  by_cases e : q = p
  · subst e
    rw [h.port]
  · have e' : q = otherPort p := by cases p <;> cases q <;> first | rfl | exact absurd rfl e
    rw [e', h.port_other]

theorem discardAnswer_accompanies {p : Port} (st : Station) (u : State) : Accompanies p (fun u => u.discardAnswer p st) u :=
  (heard_accompanies st false _).comp (tallyFault_accompanies p u)

/-- Settles O19: the fate of a frame by its destination and its entry, and the end of an exchange by what the answer's
effects have left of it. -/
theorem transitRouted : Obligations.TransitRouted := by
  unfold Obligations.TransitRouted
  refine ⟨?_, ?_⟩
  · intro s p st f ask hd h48 entry opened
    let w := s.heard p st true
    have fated : s.fate p st.number f w = w.route p st.number f := by rw [State.route_eq, State.heard_fate]
    obtain ⟨hg, hs, hl⟩ := w.route_keeps p p st.number f
    have kept := (route_accompanies (p := p) st.number f w).kept
    have a := s.heard_answering p st true
    have hw : ((w.route p st.number f).port p).awaiting = true := by
      rw [kept.awaiting, a.sameExchange.awaiting]
      exact PortState.polled_awaiting ask.2
    have q := ((w.route p st.number f).finishExchange_lineQuiet p (moreFlag f.flags) hw
      fun e => hl.trans (a.nothingDue hd e)).trans (State.underHold_lineQuiet _)
    have he : ∀ x, entry = x →
        (s.line.passTable.find? fun en => en.covers st.number f.dest.toNat f.kind.toNat) = x := fun x h => by
      rw [PassEntry.covers_eq]
      exact h
    refine ⟨_, ask.transit h48, ?_, ?_, ?_, fun hr => ?_, fun r hr => ⟨fun hn => ?_, fun en hn hdrop => ?_,
      fun en hn hdrop ho => ?_, fun en hn ho => ?_⟩⟩
    · rw [fated, q.garage, State.modPort_garage, hg, s.heard_garage_accepted]
    · rw [fated, q.stations p, State.modPort_port]
      exact hs.trans (by rw [a.port])
    · rw [fated, (q.port p).awaiting, State.modPort_port]
      rfl
    · rw [State.fate_unreached hr]
      exact ask.heard_modPort hd p dropTally_aside _
    · rw [State.fate_uncovered hr (he _ hn)]
      exact (a.over (PortState.polled_awaiting ask.2) hd _).heard
    · rw [(State.fate_entry hr (he _ hn)).1 ((s.garage.passes_cases en.action).1 hdrop)]
      exact (a.over (PortState.polled_awaiting ask.2) hd _).heard
    · rw [(State.fate_entry hr (he _ hn)).2.2 ((s.garage.passes_cases en.action).2.2 hdrop ho)]
      have o := ask.event_over hd (fun e => e.alert AlertKind.passGated (w8 st.number ++ [f.dest] ++ [f.kind])) (moreFlag f.flags)
      refine ⟨o.exchange.heard, ?_⟩
      exact o.sends (alertOut s.garage.seconds AlertKind.passGated (w8 st.number ++ [f.dest] ++ [f.kind]))
        (by rw [Ev.alert_out, Garage.heardAs_seconds]; exact List.mem_singleton.mpr rfl) .office rfl
    · rw [(State.fate_entry hr (he _ hn)).2.1 ((s.garage.passes_cases en.action).2.1 ho)]
      have room : ((s.heard p st true).port r).transitQueue = (s.port r).transitQueue := a.transitQueue r
      split
      · rename_i h16
        have e : w.modPort r (fun ps => ps.passOn f) =
            w.modPort r fun ps => { ps with transitQueue := ps.transitQueue ++ [f] } :=
          State.modPort_congr (if_pos (room ▸ h16))
        dsimp only
        rw [e]
        refine ⟨ask.heard_modPort hd r (transitQueue_aside f) _,
          ((ask.over_modPort hd r (transitQueue_aside f) _).quiet.port r).forwards f (.inr ?_)⟩
        have k : f ∈ ((w.modPort r fun ps => { ps with transitQueue := ps.transitQueue ++ [f] }).port r).transitQueue := by
          rw [State.modPort_port]
          exact List.mem_append_right _ (List.mem_singleton.mpr rfl)
        by_cases ep : r = p
        · subst ep
          rw [State.modPort_port]
          exact k
        · rw [State.modPort_port_other _ _ _ _ ep]
          exact k
      · rename_i h16
        have e : w.modPort r (fun ps => ps.passOn f) = w.modPort r fun ps => { ps with dropTally := tallyUp ps.dropTally } :=
          State.modPort_congr (if_neg (room ▸ h16))
        dsimp only
        rw [e]
        exact ask.heard_modPort hd r dropTally_aside _
  · intro s p hp ha waits comes settled
    have of : ∀ {c : Instr} {e : State → State} {more : Bool}, (∀ s, exec c s = s.react e) → Comes p e s more →
        comes c more := by
      rintro c e more hx ⟨u, k, hu⟩
      refine ⟨u, k.awaiting.trans ha, k.visit, k.mode, k.pollPos, k.cyclePolled, k.sending, k.numbers, fun due => ?_⟩
      refine (hx _).trans (((s.waits due).react_next e hp).trans ?_)
      rw [hu]
      rfl
    refine ⟨fun c hc => ?_, fun f h48 hpoll => ?_, fun kind flags pl c h48 hpoll hc hl hr => ?_,
      fun kind flags pl f c hpoll hc => ?_, ?_⟩
    · simp only [List.mem_cons, List.not_mem_nil, or_false] at hc
      rcases hc with rfl | rfl | rfl | rfl | rfl
      · exact of (fun _ => rfl) (comes_endExchange ha fun st => chargeMiss_accompanies st s)
      · exact of (fun _ => rfl) (comes_endExchange ha fun st => heard_accompanies st true s)
      · exact of (fun _ => rfl) (comes_endExchange ha fun st => discardAnswer_accompanies st s)
      · exact of (fun _ => rfl) (comes_endExchange ha fun st => discardAnswer_accompanies st s)
      · exact of (fun _ => rfl) (comes_endExchange ha fun st =>
          (chargeMiss_accompanies st _).comp (tallyFault_accompanies p s))
    · obtain ⟨st, hst⟩ := Option.ne_none_iff_exists'.mp hpoll
      exact of (fun _ => rfl) (comes_dataFrame hst h48 (route_accompanies st.number f _))
    · obtain ⟨st, hst⟩ := Option.ne_none_iff_exists'.mp hpoll
      refine of (exec_toPart hc) (comes_dataFrame hst h48 (judge_accompanies ⟨p, st.number, st.role⟩ kind pl _ hl fun hk => ?_))
      exact ⟨(hr hk).1, s.heard_room p st true (hr hk).2⟩
    · obtain ⟨e, he, hx⟩ := answer_ends (f := f) (kind := kind) (flags := flags) (pl := pl) (c := c) (p := p) (hc.imp_left fun h => by
        simp only [List.mem_cons, List.not_mem_nil, or_false] at h ⊢
        tauto)
      exact of hx (comes_removed he ha hpoll)
    · intro u more v hw hv a goes at' ends
      have e : u.finishExchange p more = (settled (u.modPort p fun _ =>
          if (more && a.goesOn u.line.pollHold v) = true then a.deaf else a.deaf.endVisit)).beginTurn p :=
        (State.finishExchange_eq hw hv).trans (by cases p <;> rfl)
      have hgo : goes ↔ (more && a.goesOn u.line.pollHold v) = true := by
        have hold : u.line.pollHold = false ↔ u.line.s.ownQueue.length ≤ 32 := decide_eq_false_iff_not.trans Nat.not_lt
        rw [Bool.and_eq_true, PortState.goesOn_iff, hold]
      have stops : ¬ goes → ends a.deaf.endVisit := fun h => e.trans (by rw [if_neg (fun k => h (hgo.mpr k))])
      refine ⟨fun h => e.trans (by rw [if_pos (hgo.mp h)]; rfl), fun h hat hlt => ?_, fun h hat hlt => ?_, fun h hat => ?_⟩
      all_goals
        rw [PortState.endVisit_eq (a := a.deaf) hv] at stops
        change ¬ goes → ends (if at' then (if a.pollPos + 1 < a.stations.length then _ else _) else _) at stops
      · rw [if_pos hat, if_pos hlt] at stops
        exact stops h
      · rw [if_pos hat, if_neg (Nat.not_lt.mpr hlt)] at stops
        exact stops h
      · rw [if_neg hat] at stops
        exact stops h

end Sys2Proof.Machine

namespace Sys2Proof.Machine

/-! ### Full queues (R14, R15) -/

theorem dropOldestAlert_split {a b : List QFrame} {y : QFrame} (hy : y.frame.kind = Kind.alert)
    (ha : ∀ z ∈ a, z.frame.kind ≠ Kind.alert) : dropOldestAlert (a ++ y :: b) = a ++ b := by
  rw [dropOldestAlert_eq, List.eraseP_append_right _ fun z hz => by simpa using ha z hz, List.eraseP_cons_of_pos (by simpa using hy)]

/-- Port G's own queue takes a frame while it holds fewer than its kind is allowed to find (R15, log 9). -/
theorem Line.enqueue_g (ln : Line) (x : QFrame) : ln.enqueue .g x =
    if ln.g.ownQueue.length < (if x.frame.kind = Kind.moveOrder then 8 else 6) then
      { ln with g := { ln.g with ownQueue := ln.g.ownQueue ++ [x] } }
    else ln.dropNotice := by
  unfold Line.enqueue Line.takes
  simp only [decide_eq_true_eq]
  rfl

/-! ### Where a frame goes (R13) -/

/-- The port and the station that a frame goes to. -/
def Line.goes (ln : Line) (o : Out) : Option (Port × Nat) :=
  match o.dest with
  | .reply p n => some (p, n)
  | .station n => (ln.reaches n).map fun p => (p, n)
  | .role r => (ln.stationOfRole r).bind fun n => (ln.reaches n).map fun p => (p, n)

theorem Line.sendTo_goes (ln : Line) (n : Nat) (o : Out) : ln.sendTo n o =
    match (ln.reaches n).map fun p => (p, n) with
    | some (p, n) => ln.enqueue p ⟨originated n o.kind o.payload, o.mark⟩
    | none => ln.dropNotice := by
  unfold Line.sendTo
  cases ln.reaches n <;> rfl

theorem Line.queueOut_goes (ln : Line) (o : Out) : ln.queueOut o = match ln.goes o with
    | some (p, n) => ln.enqueue p ⟨originated n o.kind o.payload, o.mark⟩
    | none => ln.dropNotice := by
  unfold Line.queueOut Line.goes
  cases o.dest with
  | reply p n => rfl
  | station n => exact ln.sendTo_goes n o
  | role r =>
    dsimp only
    cases ln.stationOfRole r with
    | none => rfl
    | some n => exact ln.sendTo_goes n o

theorem QueuesOnly.goes {a b : Line} (h : QueuesOnly a b) (o : Out) : b.goes o = a.goes o := by
  rw [h.eq]
  rfl

/-- The frames of an event for a port, in their order. -/
def Line.joining (ln : Line) (outs : List Out) (p : Port) : List QFrame :=
  outs.filterMap fun o => (ln.goes o).bind fun x =>
    if x.1 = p then some ⟨⟨BitVec.ofNat 8 x.2, 127, o.kind, 0, o.payload⟩, o.mark⟩ else none

theorem Line.joining_none {ln : Line} {o : Out} (h : ln.goes o = none) (p : Port) : ln.joining [o] p = [] := by
  simp [Line.joining, h]

theorem Line.joining_same {ln : Line} {o : Out} {p : Port} {n : Nat} (h : ln.goes o = some (p, n)) :
    ln.joining [o] p = [⟨originated n o.kind o.payload, o.mark⟩] := by
  simp [Line.joining, h, originated]

theorem Line.joining_other {ln : Line} {o : Out} {p q : Port} {n : Nat} (h : ln.goes o = some (p, n)) (hq : p ≠ q) :
    ln.joining [o] q = [] := by
  simp [Line.joining, h, hq]

/-- A frame for which there is room joins the tail of its queue. -/
theorem Line.queueOut_joins {ln : Line} {o : Out} (hs : ln.s.ownQueue.length + (ln.joining [o] .s).length ≤ 48)
    (hg : ln.g.ownQueue.length + (ln.joining [o] .g).length ≤ 6) :
    (ln.queueOut o).s.ownQueue = ln.s.ownQueue ++ ln.joining [o] .s ∧
      (ln.queueOut o).g.ownQueue = ln.g.ownQueue ++ ln.joining [o] .g := by
  rw [Line.queueOut_goes]
  cases h : ln.goes o with
  | none =>
    rw [Line.joining_none h, Line.joining_none h, List.append_nil, List.append_nil]
    exact ⟨rfl, rfl⟩
  | some x =>
    obtain ⟨p, n⟩ := x
    dsimp only
    cases p with
    | s =>
      rw [Line.joining_same h] at hs ⊢
      rw [Line.joining_other h (by decide), List.append_nil,
        Line.enqueue_s_room (by rw [List.length_singleton] at hs; omega)]
      exact ⟨rfl, rfl⟩
    | g =>
      rw [Line.joining_same h] at hg ⊢
      rw [Line.joining_other h (by decide), List.append_nil, Line.enqueue_g,
        if_pos (by rw [List.length_singleton] at hg; split <;> omega)]
      exact ⟨rfl, rfl⟩

/-- While there is room, the frames of an event join the tails of the own queues in their order (R13, log 31). -/
theorem Line.queueAll_joins (outs : List Out) (ln : Line) (hs : ln.s.ownQueue.length + (ln.joining outs .s).length ≤ 48)
    (hg : ln.g.ownQueue.length + (ln.joining outs .g).length ≤ 6) :
    (outs.foldl Line.queueOut ln).s.ownQueue = ln.s.ownQueue ++ ln.joining outs .s ∧
      (outs.foldl Line.queueOut ln).g.ownQueue = ln.g.ownQueue ++ ln.joining outs .g := by
  induction outs generalizing ln with
  | nil => exact ⟨(List.append_nil _).symm, (List.append_nil _).symm⟩
  | cons o rest ih =>
    have same : ∀ p, (ln.queueOut o).joining rest p = ln.joining rest p := fun p => by
      unfold Line.joining
      exact List.filterMap_congr fun x _ => by rw [(ln.queueOut_queuesOnly o).goes]
    have first : ∀ p, ln.joining (o :: rest) p = ln.joining [o] p ++ ln.joining rest p := fun p =>
      List.filterMap_append (l := [o])
    rw [first, List.length_append] at hs hg
    have one := Line.queueOut_joins (ln := ln) (o := o) (by omega) (by omega)
    have k := ih (ln.queueOut o) (by rw [same, one.1, List.length_append]; omega) (by rw [same, one.2, List.length_append]; omega)
    rw [List.foldl_cons, k.1, k.2, one.1, one.2, same, same, first, first, List.append_assoc, List.append_assoc]
    exact ⟨rfl, rfl⟩

/-- What a frame for a station by its number comes to (R13). -/
theorem Line.sendTo_cases (ln : Line) (n : Nat) (o : Out) :
    ((∃ x ∈ ln.s.stations, x.number = n) → ln.sendTo n o = ln.enqueue .s ⟨originated n o.kind o.payload, o.mark⟩) ∧
    ((∀ x ∈ ln.s.stations, x.number ≠ n) →
      ((∃ x ∈ ln.g.stations, x.number = n) → ln.g.mode ≠ .disabled →
        ln.sendTo n o = ln.enqueue .g ⟨originated n o.kind o.payload, o.mark⟩) ∧
      ((∀ x ∈ ln.g.stations, x.number ≠ n) ∨ ln.g.mode = .disabled → ln.sendTo n o = ln.dropNotice)) := by
  have has : ∀ ps : PortState, ps.hasStation n = true ↔ ∃ x ∈ ps.stations, x.number = n := fun ps => by
    simp [PortState.hasStation]
  have hasNot : ∀ ps : PortState, (∀ x ∈ ps.stations, x.number ≠ n) → ps.hasStation n = false := fun ps h => by
    simpa [PortState.hasStation] using h
  unfold Line.sendTo Line.reaches
  refine ⟨fun h => by rw [(has _).mpr h]; rfl, fun h => ?_⟩
  rw [hasNot _ h]
  refine ⟨fun hg hm => ?_, fun hg => ?_⟩
  · rw [(has _).mpr hg]
    simp [hm]
  · rcases hg with hg | hm
    · rw [hasNot _ hg]
      rfl
    · simp [hm]

/-- The first station with a role, in poll order and Port S first (R13). -/
theorem Line.stationOfRole_first {ln : Line} {a b : List Station} {x : Station}
    (h : ln.s.stations ++ ln.g.stations = a ++ x :: b) (ha : ∀ y ∈ a, y.role ≠ x.role) :
    ln.stationOfRole x.role = some x.number := by
  unfold Line.stationOfRole
  rw [h, List.find?_append, List.find?_eq_none.mpr fun y hy => by simpa using ha y hy]
  simp

/-! ### Events as a whole (log 31) -/

/-- A frame of the polled station that passes the gates runs its kind's event, and its exchange then ends: the frames of
the hearing join the queues, and then those of the event. -/
theorem Asking.event_comes {s : State} {p : Port} {st : Station} (ask : Asking s p st) {kind flags : Byte} {pl : List Byte}
    (hp : permits st.role kind = true) (hg : Passes s kind pl) (f : Caller → List Byte → Ev → Ev) :
    let e := f ⟨p, st.number, st.role⟩ pl ⟨s.garage.heardAs st, []⟩
    s.frame p kind flags pl (evBody f) = .next ((State.finishExchange { s with
      garage := e.g
      line := ((heardEv p st true ⟨s.garage, []⟩).out ++ e.out).foldl Line.queueOut
        (s.modPort p fun a => { a with stations := a.answeredBy st }).line } p (flags.getLsbD 0)).underHold) := by
  intro e
  have hm := hg.mode
  rw [← s.heard_mode p st] at hm
  have hj : (s.heard p st true).judge ⟨p, st.number, st.role⟩ kind pl (evBody f) =
      (s.heard p st true).run fun e => f ⟨p, st.number, st.role⟩ pl e := by
    simp [State.judge, hp, hm, hg.shape, evBody]
  rw [ask.frame_judged kind flags hg.fits, hj]
  have line : (s.heard p st true).line = (heardEv p st true ⟨s.garage, []⟩).out.foldl Line.queueOut
      (s.modPort p fun a => { a with stations := a.answeredBy st }).line := by
    have k : (s.heard p st true).line = (heardEv p st true ⟨s.garage, []⟩).out.foldl Line.queueOut
        (s.modPort p fun a => a.modStation st.number fun x =>
          { x with misses := 0, poll := .active, skips := if st.poll == .silent then 0 else x.skips }).line := by
      cases p <;> rfl
    rw [k]
    simp only [PortState.modStation, PortState.answeredBy, beq_iff_eq]
  have run : (s.heard p st true).run (fun e => f ⟨p, st.number, st.role⟩ pl e) = { s with
      garage := e.g
      line := ((heardEv p st true ⟨s.garage, []⟩).out ++ e.out).foldl Line.queueOut
        (s.modPort p fun a => { a with stations := a.answeredBy st }).line } := by
    have he : e = f ⟨p, st.number, st.role⟩ pl ⟨(s.heard p st true).garage, []⟩ := by rw [s.heard_garage_accepted]
    rw [List.foldl_append, ← line, he]
    cases p <;> rfl
  rw [run]
  rfl

/-- What a lift's report does to the blocks behind the ports, before the work it sets off. -/
def liftEvent (f : Lift → List Byte → Ev → Ev) (c : Caller) (pl : List Byte) (e : Ev) : Ev :=
  match roleLift c.role with
  | some l => f l pl e
  | none => e

theorem liftBody_eq (f : Lift → List Byte → Ev → Ev) : liftBody f = evBody fun c pl e => settle (liftEvent f c pl e) := rfl

theorem Garage.heardAs_lift (g : Garage) {st : Station} {l : Lift} (h : roleLift st.role = some l) :
    g.heardAs st = g.heardLift l st := by
  unfold Garage.heardAs
  rw [h]

/-- A MOVE_DONE of the move in flight completes it (R136 ❶). -/
theorem moveDone_inFlight {l : Lift} {pl : List Byte} {e : Ev} {m : Move} (hm : (e.g.lift l).inFlight = some m)
    (hn : m.number = u8 pl 0) : moveDone l pl e = moveCompleted l m e := by
  unfold moveDone LiftUnit.matchReport numbered
  rw [hm]
  dsimp only
  rw [if_pos hn]

/-- Settles O20: the queue rules by the length of the queue; the frames of an event by induction on them, and the two
commands by what their exchange comes to. -/
theorem ownQueueFull : Obligations.OwnQueueFull := by
  unfold Obligations.OwnQueueFull
  refine ⟨fun ln x => ⟨fun h => Line.enqueue_s_room h x, fun a y b hq hl hy ha => ?_, fun hl hn => ?_, fun hk h => ?_,
    fun hk h => ?_, fun hk h => ?_, fun hk h => ?_⟩, fun ln o => ?_, fun ln outs => ?_, fun s f => rfl, ?_⟩
  · have ht : ln.takes .s x.frame.kind = true := (ln.takes_iff _).mpr (.inr ⟨y, by rw [hq]; simp, hy⟩)
    unfold Line.enqueue
    rw [if_pos ht]
    dsimp only
    rw [if_neg (show ¬ ln.s.ownQueue.length < Config.ownCapacityS from Nat.not_lt.mpr hl), hq, dropOldestAlert_split hy ha]
    rfl
  · refine Line.enqueue_s_lost (fun h => ?_) x
    rcases h with h | ⟨q, hq, hk⟩
    · omega
    · exact hn q hq hk
  · rw [Line.enqueue_g, if_neg hk, if_pos h]
  · rw [Line.enqueue_g, if_neg hk, if_neg (by omega)]
    rfl
  · rw [Line.enqueue_g, if_pos hk, if_pos h]
  · rw [Line.enqueue_g, if_pos hk, if_neg (by omega)]
    rfl
  · intro frame lost joins
    have sends : ∀ n, ln.queueOut o = ln.sendTo n o → joins n := fun n h => by
      show (_ → ln.queueOut o = _) ∧ (_ → (_ → _ → ln.queueOut o = _) ∧ (_ → ln.queueOut o = _))
      rw [h]
      exact ln.sendTo_cases n o
    refine ⟨fun p n h => ?_, fun n h => sends n ?_, fun r h => ⟨fun a x b hab hx ha => sends _ ?_, fun hn => ?_⟩⟩
    · unfold Line.queueOut
      rw [h]
      rfl
    · unfold Line.queueOut
      rw [h]
    · subst hx
      unfold Line.queueOut
      rw [h]
      dsimp only
      rw [Line.stationOfRole_first hab ha]
    · have none : ln.stationOfRole r = none := by
        unfold Line.stationOfRole
        rw [List.find?_eq_none.mpr fun y hy => by simpa using hn y hy]
        rfl
      unfold Line.queueOut
      rw [h]
      dsimp only
      rw [none]
      rfl
  · exact ln.queueAll_joins outs
  · intro s st flags pl back comes
    have hback : ∀ p, (heardEv p st true ⟨s.garage, []⟩).out = back p := fun p => by
      rw [heardEv_out]
      simp only [back, beq_iff_eq]
      rfl
    refine ⟨fun l m ask role hlen hm hn => ?_, fun ask hmode hlen => ?_⟩
    · have hl : roleLift st.role = some l := by
        rw [role]
        cases l <;> rfl
      have hg : Passes s Kind.moveDone pl := .of_length hlen (takenIn_both _ (by decide)) rfl rfl (by decide) (by decide)
      have k := ask.event_comes (flags := flags) (by rw [role]; cases l <;> decide) hg
        fun c pl e => settle (liftEvent moveDone c pl e)
      have e : liftEvent moveDone ⟨.g, st.number, st.role⟩ pl ⟨s.garage.heardAs st, []⟩ =
          moveCompleted l m ⟨s.garage.heardLift l st, []⟩ := by
        rw [Garage.heardAs_lift _ hl]
        unfold liftEvent
        dsimp only
        rw [hl]
        exact moveDone_inFlight hm hn
      rw [hback, e] at k
      exact k
    · have hl : roleLift st.role = none := by rcases ask with ⟨-, h⟩ | ⟨-, h⟩ <;> rw [h] <;> rfl
      have hp : permits st.role Kind.retrieve = true := by rcases ask with ⟨-, h⟩ | ⟨-, h⟩ <;> rw [h] <;> decide
      have hg : Passes s Kind.retrieve pl := .of_length hlen (by rw [hmode]; decide) rfl rfl (by decide) (by decide)
      have k := (ask.elim And.left And.left).event_comes (flags := flags) hp hg fun c pl e => settle (retrieve c pl e)
      rw [hback, s.garage.heardAs_none hl] at k
      exact k

end Sys2Proof.Machine

namespace Sys2Proof.Machine

/-! ### Warm start: moves in flight (R46, R81) -/

/-- The lift whose move in flight carries a ticket's car, and that move; the latter to be left unresolved stands. -/
def Garage.inDoubt (g : Garage) (n : Nat) : Option (Lift × Move) :=
  ((g.liftB.inFlight.filter fun m => m.ticket == n).map fun m => (Lift.b, m)).or
    ((g.liftA.inFlight.filter fun m => m.ticket == n).map fun m => (Lift.a, m))

/-- The bays once the source bay of a move is held for its ticket. -/
def Garage.holds (k : Garage) (m : Option Move) : Garage :=
  match m with
  | some ⟨_, _, n, _, .bay b, _, _⟩ => k.modBay b fun y => { y with occ := .reserved n }
  | _ => k

/-- The bays once the source bays of both moves in flight are held. -/
def Garage.held (g : Garage) : Garage := (g.holds g.liftA.inFlight).holds g.liftB.inFlight

/-- A ticket's record once the move of a lift is left unresolved. -/
def Ticket.leftBy (l : Lift) (o : Option Move) (n : Nat) (t : Ticket) : Ticket :=
  match o.filter fun m => m.ticket == n with
  | some m => t.toCheck l m
  | none => t

/-- The records of a table changed by their numbers. -/
def Table.mapKeyed {α : Type} (t : Table α) (f : Nat → α → α) : Table α := t.map fun kv => (kv.1, f kv.1 kv.2)

theorem find_mapKeyed {α : Type} (t : Table α) (n : Nat) (f : Nat → α → α) :
    (t.mapKeyed f).find n = (t.find n).map (f n) := by
  induction t with
  | nil => rfl
  | cons kv rest ih =>
    obtain ⟨k, v⟩ := kv
    simp only [Table.mapKeyed, List.map_cons, Table.find] at *
    split
    · rename_i h
      subst h
      rfl
    · exact ih

theorem mapKeyed_mapKeyed {α : Type} (t : Table α) (f h : Nat → α → α) :
    (t.mapKeyed f).mapKeyed h = t.mapKeyed fun n v => h n (f n v) := by
  unfold Table.mapKeyed
  rw [List.map_map]
  rfl

theorem Garage.holds_modBays (k : Garage) (m : Option Move) : ∃ bays, k.holds m = { k with bayRecs := bays } := by
  unfold Garage.holds
  split
  · exact ⟨_, rfl⟩
  · exact ⟨k.bayRecs, rfl⟩

/-- The move in flight of a lift is left unresolved: its ticket goes to CHECK, and its source bay is held. -/
theorem Garage.warmMove_eq (g : Garage) (l : Lift) : g.warmMove l =
    { g.holds (g.lift l).inFlight with tickets := g.tickets.mapKeyed (Ticket.leftBy l (g.lift l).inFlight) } := by
  unfold Garage.warmMove
  cases (g.lift l).inFlight with
  | none =>
    have e : g.tickets.mapKeyed (Ticket.leftBy l none) = g.tickets := List.map_id _
    rw [e]
    rfl
  | some m =>
    have e : g.tickets.mapKeyed (Ticket.leftBy l (some m)) = g.tickets.adjust m.ticket fun t => t.toCheck l m := by
      unfold Table.mapKeyed Table.adjust
      refine List.map_congr_left fun kv _ => ?_
      unfold Ticket.leftBy
      rw [Option.filter_some]
      by_cases h : kv.1 = m.ticket
      · rw [if_pos h, h, beq_self_eq_true]
        rfl
      · rw [if_neg h, beq_eq_false_iff_ne.mpr (Ne.symm h)]
        rfl
    rw [e]
    obtain ⟨num, kind, n, tag, source, dest, target⟩ := m
    cases source <;> rfl

/-! ### Warm start: tickets (R81) -/

/-- A record without the fields of a retrieval. -/
def Ticket.ended (k : Ticket) : Ticket := { k with
  seq := none, priority := none, convoy := none, hold := false, resumePending := false, phase := none
  cancelMark := false, blocked := false, place := false, holdTimer := none }

/-- What a ticket's record becomes, but for its ready number. -/
def Garage.becomes (g : Garage) (n : Nat) (k : Ticket) : Ticket :=
  match g.inDoubt n with
  | some x => { k.ended with state := .check, location := .unknown, bay := none, unresolved := some x, runner := none }
  | none => match k.state with
    | .queued | .held | .retrieving => { k.ended with
        state := .parked, measure := k.measure.map fun m => { m with waitMark := none } }
    | _ => { k with runner := none }

theorem Garage.becomes_eq (g : Garage) (n : Nat) (k : Ticket) :
    ((k.leftBy .a g.liftA.inFlight n).leftBy .b g.liftB.inFlight n).warm = g.becomes n k := by
  unfold Garage.becomes Garage.inDoubt Ticket.leftBy
  cases (g.liftB.inFlight.filter fun m => m.ticket == n) with
  | some m => cases (g.liftA.inFlight.filter fun m => m.ticket == n) <;> rfl
  | none =>
    cases (g.liftA.inFlight.filter fun m => m.ticket == n) with
    | some m => rfl
    | none =>
      obtain ⟨_, _, _, _, _, _, state, _⟩ := k
      cases state <;> rfl

/-- The blocks behind the ports once the moves in flight are left unresolved and the tickets' retrievals have ended. -/
def Garage.unretrieved (g : Garage) : Garage := { g.held with tickets := g.tickets.mapKeyed g.becomes }

theorem Garage.unretrieved_eq (g : Garage) :
    { (g.warmMove .a).warmMove .b with tickets := ((g.warmMove .a).warmMove .b).tickets.mapAll Ticket.warm } = g.unretrieved := by
  have lift : (g.warmMove .a).lift .b = g.liftB := by
    rw [Garage.warmMove_eq]
    obtain ⟨bays, e⟩ := g.holds_modBays (g.lift .a).inFlight
    rw [e]
    rfl
  have holds : ∀ (k : Garage) (tk : Table Ticket) (m : Option Move),
      ({ k with tickets := tk } : Garage).holds m = { k.holds m with tickets := tk } := fun k tk m => by
    unfold Garage.holds
    split <;> rfl
  have tickets : (g.tickets.mapKeyed (Ticket.leftBy .a g.liftA.inFlight) |>.mapKeyed
      (Ticket.leftBy .b g.liftB.inFlight)).mapAll Ticket.warm = g.tickets.mapKeyed g.becomes := by
    rw [mapKeyed_mapKeyed]
    refine (mapKeyed_mapKeyed g.tickets _ fun _ => Ticket.warm).trans ?_
    exact congrArg g.tickets.mapKeyed (funext fun n => funext fun k => g.becomes_eq n k)
  rw [Garage.warmMove_eq (g.warmMove .a), lift, Garage.warmMove_eq g .a, holds]
  unfold Garage.unretrieved
  rw [← tickets]
  rfl

/-- No ticket is QUEUED once the retrievals have ended. -/
theorem Garage.becomes_unqueued (g : Garage) (n : Nat) (k : Ticket) : (g.becomes n k).state ≠ .queued := by
  unfold Garage.becomes
  split
  · show TicketState.check ≠ .queued
    decide
  · split
    · show TicketState.parked ≠ .queued
      decide
    · show TicketState.parked ≠ .queued
      decide
    · show TicketState.parked ≠ .queued
      decide
    · rename_i h _ _
      exact h

/-! ### Warm start: bays (R46) -/

/-- No ticket of a table is QUEUED. -/
def Table.unqueued (t : Table Ticket) : Prop := ∀ x ∈ t, x.2.state ≠ .queued

/-- With no ticket QUEUED, the release of a bay changes bays alone. -/
theorem Garage.release_tickets {g : Garage} (h : Table.unqueued g.tickets) (n t : Nat) : (g.release n t).tickets = g.tickets := by
  have zone : ∀ (k : Garage) (z : Nat), k.tickets = g.tickets → (k.zoneReport z).tickets = g.tickets := fun k z e => by
    unfold Garage.zoneReport
    dsimp only
    rw [e]
    refine (List.map_congr_left fun x hx => ?_).trans (List.map_id _)
    dsimp only
    split
    · rw [if_neg fun k => h x hx k.1]
      rfl
    · rfl
  have report : ∀ (k : Garage) (b : Bay), k.tickets = g.tickets → (k.reportBay b).tickets = g.tickets := fun k b e => by
    unfold Garage.reportBay
    split
    · exact zone k _ e
    · exact e
  unfold Garage.release
  split
  · rfl
  · split
    · unfold Garage.bayFreed
      split
      · rfl
      · refine report _ _ ?_
        split <;> rfl
    · rfl

/-- The release of a bay is read from the bays alone. -/
theorem Garage.release_bays {g k : Garage} (h : g.bayRecs = k.bayRecs) (n t : Nat) :
    (g.release n t).bayRecs = (k.release n t).bayRecs := by
  have bay : ∀ (a b : Garage), a.bayRecs = b.bayRecs → ∀ m, a.bay m = b.bay m := fun a b e m => by
    unfold Garage.bay
    rw [e]
  have deeper : ∀ (a b : Garage) (x : Bay), a.bayRecs = b.bayRecs →
      ((a.returnDeeper x).reportBay x).bayRecs = ((b.returnDeeper x).reportBay x).bayRecs := fun a b x e => by
    have report : ∀ k : Garage, (k.reportBay x).bayRecs = k.bayRecs := fun k => by
      unfold Garage.reportBay
      split <;> rfl
    have front : ∀ y, a.frontFree y = b.frontFree y := fun y => by
      unfold Garage.frontFree Garage.front Garage.baysAt
      rw [e]
    rw [report, report]
    unfold Garage.returnDeeper
    simp only [front]
    rw [e]
  have freed : ∀ a b : Garage, a.bayRecs = b.bayRecs → (a.bayFreed n).bayRecs = (b.bayFreed n).bayRecs := fun a b e => by
    unfold Garage.bayFreed
    rw [bay a b e]
    split
    · exact e
    · refine deeper _ _ _ ?_
      split
      · unfold Garage.modBay
        rw [e]
      · exact e
  unfold Garage.release
  rw [bay g k h]
  split
  · exact h
  · split
    · refine freed _ _ ?_
      unfold Garage.modBay
      rw [h]
    · exact h

/-- A reservation that a warm start lets stand (R46 ❷). -/
def Garage.stands (g : Garage) (n : Nat) : Bool :=
  (g.ticket n).map Ticket.state == some .allocated || (g.ticket n).map Ticket.state == some .check ||
    (((g.ticket n).map Ticket.state).isSome && (g.inDoubt n).isSome)

theorem Garage.unretrieved_ticket (g : Garage) (n : Nat) : g.unretrieved.ticket n = (g.ticket n).map (g.becomes n) :=
  find_mapKeyed g.tickets n g.becomes

theorem Garage.unretrieved_stands (g : Garage) (n : Nat) : g.unretrieved.standsReserved n = g.stands n := by
  unfold Garage.standsReserved Garage.stands
  rw [Garage.unretrieved_ticket]
  cases g.ticket n with
  | none => rfl
  | some k =>
    simp only [Option.map_some]
    unfold Garage.becomes
    cases g.inDoubt n with
    | some x => simp
    | none =>
      obtain ⟨_, _, _, _, _, _, state, _⟩ := k
      cases state <;> rfl

/-- The bays once the reservations that do not stand are released, in the order of the bays (R46 ❸). -/
def Garage.relieved (g : Garage) : Garage :=
  g.held.bayRecs.foldl (fun k x => match x.2.occ with
    | .reserved n => if g.stands n then k else k.release x.1 n
    | _ => k) g.held

theorem Garage.release_unqueued {g k : Garage} (h : Table.unqueued g.tickets) (n t : Nat) :
    ({ g with bayRecs := k.bayRecs } : Garage).release n t = { g with bayRecs := (k.release n t).bayRecs } := by
  obtain ⟨bays, tickets, e⟩ := (release_releases { g with bayRecs := k.bayRecs } n t).rest
  have ht : tickets = g.tickets := by
    have k := Garage.release_tickets (g := { g with bayRecs := k.bayRecs }) h n t
    rw [e] at k
    exact k
  have hb : bays = (k.release n t).bayRecs := by
    have k := Garage.release_bays (g := { g with bayRecs := k.bayRecs }) (k := k) rfl n t
    rw [e] at k
    exact k
  rw [e, ht, hb]

theorem Garage.unretrieved_unqueued (g : Garage) : Table.unqueued g.unretrieved.tickets := fun x hx => by
  obtain ⟨kv, -, rfl⟩ := List.mem_map.mp hx
  exact g.becomes_unqueued kv.1 kv.2

theorem Garage.releaseLost_eq (g : Garage) :
    g.unretrieved.releaseLost = { g.unretrieved with bayRecs := g.relieved.bayRecs } := by
  have fold : ∀ (l : List (Nat × Bay)) (k : Garage),
      l.foldl (fun g' kv => match kv.2.occ with
        | .reserved n => if g.unretrieved.standsReserved n then g' else g'.release kv.1 n
        | _ => g') { g.unretrieved with bayRecs := k.bayRecs } = { g.unretrieved with
          bayRecs := (l.foldl (fun k x => match x.2.occ with
            | .reserved n => if g.stands n then k else k.release x.1 n
            | _ => k) k).bayRecs } := by
    intro l
    induction l with
    | nil => exact fun k => rfl
    | cons x rest ih =>
      intro k
      rw [List.foldl_cons, List.foldl_cons, ← ih]
      congr 1
      cases x.2.occ with
      | free => rfl
      | occupied n => rfl
      | reserved n =>
        dsimp only
        rw [g.unretrieved_stands n]
        split
        · rfl
        · exact Garage.release_unqueued g.unretrieved_unqueued _ _
  exact fold g.held.bayRecs g.held
end Sys2Proof.Machine

namespace Sys2Proof.Machine

/-! ### Warm start: ready numbers (R82) -/

/-- A ticket's record with the ready number of its place. -/
def Ticket.numbered (k : Nat) (t : Ticket) : Ticket := { t with readySeq := some k }

theorem mapKeyed_congr {α : Type} {t : Table α} {f h : Nat → α → α} (e : ∀ x ∈ t, f x.1 x.2 = h x.1 x.2) :
    t.mapKeyed f = t.mapKeyed h :=
  List.map_congr_left fun x hx => by rw [e x hx]

theorem adjust_mapKeyed {α : Type} (t : Table α) (n : Nat) (f : α → α) :
    t.adjust n f = t.mapKeyed fun m v => if m = n then f v else v :=
  List.map_congr_left fun x _ => by
    dsimp only
    by_cases h : x.1 = n
    · rw [if_pos h, if_pos h]
    · rw [if_neg h, if_neg h]

theorem mapKeyed_id {α : Type} (t : Table α) : t.mapKeyed (fun _ v => v) = t := List.map_id _

/-- Numbering tickets anew changes nothing but ready numbers. -/
theorem renumber_readySeq (l : List Nat) (k : Nat) (g : Garage) : ∃ q : Nat → Ticket → Option Nat,
    Garage.renumber g Ticket.numbered k l = { g with tickets := g.tickets.mapKeyed fun n t => { t with readySeq := q n t } } := by
  induction l generalizing k g with
  | nil => exact ⟨fun _ t => t.readySeq, by rw [mapKeyed_id]; rfl⟩
  | cons a r ih =>
    obtain ⟨q, e⟩ := ih (k + 1) (g.modTicket a (Ticket.numbered k))
    refine ⟨fun n t => q n (if n = a then t.numbered k else t), ?_⟩
    rw [Garage.renumber, e]
    unfold Garage.modTicket
    dsimp only
    rw [adjust_mapKeyed, mapKeyed_mapKeyed]
    congr 1
    refine mapKeyed_congr fun x _ => ?_
    split <;> rfl

/-- A ticket's record numbered by its place in a list, from a number on; as it was when it is not there. -/
def Ticket.inOrder (l : List Nat) (k n : Nat) (t : Ticket) : Ticket :=
  match l.findIdx? fun m => m == n with
  | some i => t.numbered (k + i)
  | none => t

/-- Each ticket of a list without repetition is numbered by its place in it. -/
theorem renumber_places {l : List Nat} (h : l.Nodup) (k : Nat) (g : Garage) :
    Garage.renumber g Ticket.numbered k l = { g with tickets := g.tickets.mapKeyed (Ticket.inOrder l k) } := by
  induction l generalizing k g with
  | nil =>
    have e : g.tickets.mapKeyed (Ticket.inOrder [] k) = g.tickets := mapKeyed_id _
    rw [e]
    rfl
  | cons a r ih =>
    obtain ⟨ha, hr⟩ := List.nodup_cons.mp h
    rw [Garage.renumber, ih hr]
    unfold Garage.modTicket
    dsimp only
    rw [adjust_mapKeyed, mapKeyed_mapKeyed]
    congr 1
    refine mapKeyed_congr fun x _ => ?_
    unfold Ticket.inOrder
    rw [List.findIdx?_cons]
    by_cases e : x.1 = a
    · have hn : (r.findIdx? fun m => m == x.1) = none := by
        rw [List.findIdx?_eq_none_iff]
        intro y hy
        rw [beq_eq_false_iff_ne]
        rintro rfl
        exact ha (e ▸ hy)
      rw [hn, if_pos e, e, beq_self_eq_true]
      rfl
    · rw [if_neg e, beq_eq_false_iff_ne.mpr (Ne.symm e)]
      cases r.findIdx? fun m => m == x.1 with
      | none => rfl
      | some i =>
        simp only [Bool.false_eq_true, if_false, Option.map_some]
        rw [show k + 1 + i = k + (i + 1) by omega]

/-- The tickets with a ready number, each behind that number. -/
def Table.readyPairs (t : Table Ticket) : List (Nat × Nat) := t.filterMap fun kv => kv.2.readySeq.map fun s => (s, kv.1)

theorem Garage.readyOrder_eq (g : Garage) : g.readyOrder = (sortBy Prod.fst (Table.readyPairs g.tickets)).map Prod.snd := rfl

theorem mem_readyPairs {t : Table Ticket} {x : Nat × Nat} (h : x ∈ Table.readyPairs t) : ∃ k, (x.2, k) ∈ t ∧ k.readySeq = some x.1 := by
  obtain ⟨⟨n, k⟩, hk, e⟩ := List.mem_filterMap.mp h
  obtain ⟨s, hs, rfl⟩ := Option.map_eq_some_iff.mp e
  exact ⟨k, hk, hs⟩

theorem mem_readyOrder {g : Garage} {n : Nat} : n ∈ g.readyOrder ↔ ∃ k, (n, k) ∈ g.tickets ∧ k.readySeq.isSome = true := by
  rw [Garage.readyOrder_eq, List.mem_map]
  constructor
  · rintro ⟨x, hx, rfl⟩
    obtain ⟨k, hk, hs⟩ := mem_readyPairs ((mem_sortBy _ _ _).mp hx)
    exact ⟨k, hk, by rw [hs]; rfl⟩
  · rintro ⟨k, hk, hs⟩
    obtain ⟨s, hs⟩ := Option.isSome_iff_exists.mp hs
    exact ⟨(s, n), (mem_sortBy _ _ _).mpr (List.mem_filterMap.mpr ⟨(n, k), hk, by rw [hs]; rfl⟩), rfl⟩

/-- In a table in rising order no ticket is twice in the ready order. -/
theorem readyPairs_nodup {t : Table Ticket} (h : t.rising = true) : ((Table.readyPairs t).map Prod.snd).Nodup := by
  induction t with
  | nil => exact List.nodup_nil
  | cons kv r ih =>
    obtain ⟨above, hr⟩ := rising_cons h
    unfold Table.readyPairs
    rw [List.filterMap_cons]
    cases kv.2.readySeq with
    | none => exact ih hr
    | some s =>
      refine List.nodup_cons.mpr ⟨fun hm => ?_, ih hr⟩
      obtain ⟨x, hx, e⟩ := List.mem_map.mp hm
      obtain ⟨k, hk, -⟩ := mem_readyPairs hx
      have := above _ hk
      rw [e] at this
      exact absurd this (Nat.lt_irrefl _)

theorem Garage.readyOrder_nodup {g : Garage} (h : g.tickets.rising = true) : g.readyOrder.Nodup :=
  ((sortBy_perm Prod.fst _).map Prod.snd).nodup_iff.mpr (readyPairs_nodup h)

/-- The place of a ticket in the ready order, counted from 1; 0 when it is not there. -/
def Garage.readyPlace (g : Garage) (n : Nat) : Nat := ((g.readyOrder.findIdx? fun m => m == n).map fun i => i + 1).getD 0

/-- Numbered by its place, each ticket with a ready number has that place for its number. -/
theorem inOrder_readySeq {g : Garage} (h : g.tickets.rising = true) {x : Nat × Ticket} (hx : x ∈ g.tickets) :
    (x.2.inOrder g.readyOrder 1 x.1).readySeq = x.2.readySeq.map fun _ => g.readyPlace x.1 := by
  unfold Ticket.inOrder Garage.readyPlace
  cases hs : x.2.readySeq with
  | none =>
    have hn : (g.readyOrder.findIdx? fun m => m == x.1) = none := by
      rw [List.findIdx?_eq_none_iff]
      intro m hm
      rw [beq_eq_false_iff_ne]
      rintro rfl
      obtain ⟨k, hk, hks⟩ := mem_readyOrder.mp hm
      have e := ((find_rising h _ _).mpr hk).symm.trans ((find_rising h _ _).mpr hx)
      rw [Option.some.inj e, hs] at hks
      cases hks
    rw [hn]
    exact hs
  | some s =>
    have hm : x.1 ∈ g.readyOrder := mem_readyOrder.mpr ⟨x.2, hx, by rw [hs]; rfl⟩
    cases hi : g.readyOrder.findIdx? fun m => m == x.1 with
    | none =>
      have := List.findIdx?_eq_none_iff.mp hi _ hm
      simp at this
    | some i =>
      show some (1 + i) = some (i + 1)
      rw [Nat.add_comm]

theorem Garage.readyPlace_getElem {g : Garage} (h : g.tickets.rising = true) {i : Nat} (hi : i < g.readyOrder.length) :
    g.readyPlace g.readyOrder[i] = i + 1 := by
  have e : (g.readyOrder.findIdx? fun m => m == g.readyOrder[i]) = some i := by
    rw [List.findIdx?_eq_some_iff_getElem]
    refine ⟨hi, beq_self_eq_true _, fun j hj => ?_⟩
    rw [Bool.not_eq_true, beq_eq_false_iff_ne]
    exact fun e => Nat.ne_of_lt hj ((Garage.readyOrder_nodup h).getElem_inj_iff.mp e)
  unfold Garage.readyPlace
  rw [e]
  rfl

/-- Numbering by places keeps the ready order (R82). -/
theorem Garage.readyOrder_inOrder {g : Garage} (h : g.tickets.rising = true) :
    ({ g with tickets := g.tickets.mapKeyed (Ticket.inOrder g.readyOrder 1) } : Garage).readyOrder = g.readyOrder := by
  let placed : Nat × Nat → Nat × Nat := fun x => (g.readyPlace x.2, x.2)
  have pairs : Table.readyPairs (g.tickets.mapKeyed (Ticket.inOrder g.readyOrder 1)) = (Table.readyPairs g.tickets).map placed := by
    unfold Table.readyPairs Table.mapKeyed
    rw [List.filterMap_map, List.map_filterMap]
    refine List.filterMap_congr fun x hx => ?_
    simp only [Function.comp]
    rw [inOrder_readySeq h hx, Option.map_map, Option.map_map]
    rfl
  have order : (sortBy Prod.fst (Table.readyPairs g.tickets)).map placed = g.readyOrder.map fun n => (g.readyPlace n, n) := by
    rw [Garage.readyOrder_eq, List.map_map]
    rfl
  have sorted : (g.readyOrder.map fun n => (g.readyPlace n, n)).Pairwise fun a b => a.1 ≤ b.1 := by
    rw [List.pairwise_map, List.pairwise_iff_getElem]
    intro i j hi hj hij
    rw [Garage.readyPlace_getElem h, Garage.readyPlace_getElem h]
    omega
  have one : ∀ a b : Nat × Nat, a ∈ sortBy Prod.fst ((Table.readyPairs g.tickets).map placed) →
      b ∈ g.readyOrder.map (fun n => (g.readyPlace n, n)) → a.1 ≤ b.1 → b.1 ≤ a.1 → a = b := by
    intro a b ha hb h1 h2
    rw [mem_sortBy, ← (sortBy_perm Prod.fst (Table.readyPairs g.tickets)).map placed |>.mem_iff, order] at ha
    obtain ⟨n, hn, rfl⟩ := List.mem_map.mp ha
    obtain ⟨m, hm, rfl⟩ := List.mem_map.mp hb
    obtain ⟨i, hi, rfl⟩ := List.getElem_of_mem hn
    obtain ⟨j, hj, rfl⟩ := List.getElem_of_mem hm
    dsimp only at h1 h2
    rw [Garage.readyPlace_getElem h, Garage.readyPlace_getElem h] at h1 h2
    have e : i = j := by omega
    subst e
    rfl
  have e : sortBy Prod.fst ((Table.readyPairs g.tickets).map placed) = g.readyOrder.map fun n => (g.readyPlace n, n) := by
    refine List.Perm.eq_of_pairwise one (sortBy_sorted _ _) sorted ?_
    rw [← order]
    exact (sortBy_perm _ _).trans ((sortBy_perm _ _).map placed).symm
  rw [Garage.readyOrder_eq]
  show (sortBy Prod.fst (Table.readyPairs (g.tickets.mapKeyed (Ticket.inOrder g.readyOrder 1)))).map Prod.snd = _
  rw [pairs, e, List.map_map]
  exact List.map_id _

end Sys2Proof.Machine

namespace Sys2Proof.Machine

/-! ### Warm start: the blocks behind the ports as a whole (R46, R81, R82, R144) -/

theorem Garage.becomes_readySeq (g : Garage) (n : Nat) (k : Ticket) : (g.becomes n k).readySeq = k.readySeq := by
  unfold Garage.becomes
  split
  · rfl
  · split <;> rfl

theorem Garage.held_modBays (g : Garage) : ∃ bays, g.held = { g with bayRecs := bays } := by
  obtain ⟨a, ha⟩ := g.holds_modBays g.liftA.inFlight
  obtain ⟨b, hb⟩ := (g.holds g.liftA.inFlight).holds_modBays g.liftB.inFlight
  refine ⟨b, ?_⟩
  unfold Garage.held
  rw [hb, ha]

/-- The blocks behind the ports with the bays and the tickets of a warm start, before the tickets are numbered anew. -/
def Garage.unnumbered (g : Garage) : Garage :=
  { g with bayRecs := g.relieved.bayRecs, tickets := g.tickets.mapKeyed g.becomes }

theorem Garage.unnumbered_eq (g : Garage) : g.unretrieved.releaseLost = g.unnumbered := by
  obtain ⟨bays, e⟩ := g.held_modBays
  rw [Garage.releaseLost_eq]
  unfold Garage.unretrieved
  rw [e]
  rfl

theorem Garage.unnumbered_readyOrder (g : Garage) : g.unnumbered.readyOrder = g.readyOrder := by
  rw [Garage.readyOrder_eq, Garage.readyOrder_eq]
  congr 2
  show Table.readyPairs (g.tickets.mapKeyed g.becomes) = _
  unfold Table.readyPairs Table.mapKeyed
  rw [List.filterMap_map]
  refine List.filterMap_congr fun x _ => ?_
  simp only [Function.comp]
  rw [g.becomes_readySeq]

/-- The tickets of a warm start. -/
def Garage.warmTickets (g : Garage) : Table Ticket := (Garage.renumber g.unnumbered Ticket.numbered 1 g.readyOrder).tickets

theorem Garage.warmTickets_readySeq (g : Garage) : ∃ q : Nat → Ticket → Option Nat,
    g.warmTickets = g.tickets.mapKeyed fun n k => { g.becomes n k with readySeq := q n k } := by
  obtain ⟨q, e⟩ := renumber_readySeq g.readyOrder 1 g.unnumbered
  refine ⟨fun n k => q n (g.becomes n k), ?_⟩
  unfold Garage.warmTickets
  rw [e]
  exact mapKeyed_mapKeyed g.tickets g.becomes fun n t => { t with readySeq := q n t }

theorem rising_mapKeyed {α : Type} {t : Table α} (f : Nat → α → α) : (t.mapKeyed f).rising = t.rising := by
  induction t with
  | nil => rfl
  | cons kv r ih =>
    show ((Table.mapKeyed r f).all (fun x => decide (kv.1 < x.1)) && Table.rising (Table.mapKeyed r f)) = _
    rw [ih]
    unfold Table.mapKeyed
    rw [List.all_map]
    rfl

theorem Garage.warmTickets_places {g : Garage} (h : g.tickets.rising = true) :
    g.warmTickets = (g.tickets.mapKeyed g.becomes).mapKeyed (Ticket.inOrder g.readyOrder 1) := by
  have hr : g.unnumbered.tickets.rising = true := (rising_mapKeyed _).trans h
  have hn := Garage.readyOrder_nodup hr
  rw [Garage.unnumbered_readyOrder] at hn
  unfold Garage.warmTickets
  rw [renumber_places hn]
  rfl

/-- The blocks behind the ports with the tickets of a warm start. -/
def Garage.warmed (g : Garage) : Garage := { g with tickets := g.warmTickets }

theorem Garage.warm_eq (g : Garage) : g.warm = { g with
    liftA := { g.liftA.warm with parkRequest := g.warmed.parkAnew g.liftA, reserved := g.warmed.heldSlots .a }
    liftB := { g.liftB.warm with parkRequest := g.warmed.parkAnew g.liftB, reserved := g.warmed.heldSlots .b }
    tickets := g.warmTickets
    bayRecs := g.relieved.bayRecs
    queue := []
    requestCounter := 1
    readyCounter := g.readyOrder.length + 1
    chan0 := Channel.reset
    chan1 := Channel.reset
    runners := resetRunners
    freeList := []
    waitList := g.warmed.readyWaiting
    secsIntoMinute := 0 } := by
  have r : g.unnumbered.renumberReady =
      { g.unnumbered with tickets := g.warmTickets, readyCounter := g.readyOrder.length + 1 } := by
    unfold Garage.renumberReady
    rw [Garage.unnumbered_readyOrder]
    obtain ⟨q, e⟩ := renumber_readySeq g.readyOrder 1 g.unnumbered
    have e' : Garage.renumber g.unnumbered Ticket.numbered 1 g.readyOrder = { g.unnumbered with tickets := g.warmTickets } := by
      unfold Garage.warmTickets
      rw [e]
    exact congrArg (fun k : Garage => { k with readyCounter := g.readyOrder.length + 1 }) e'
  unfold Garage.warm
  dsimp only
  rw [g.unretrieved_eq, g.unnumbered_eq, r]
  rfl

/-! ### Warm start: what becomes of a ticket, the wait list, and a lift unit (R81, R82, R144, R175) -/

theorem Garage.warmed_ticket (g : Garage) : ∃ q : Nat → Ticket → Option Nat, ∀ n,
    g.warmed.ticket n = (g.ticket n).map fun k => { g.becomes n k with readySeq := q n k } := by
  obtain ⟨q, e⟩ := g.warmTickets_readySeq
  refine ⟨q, fun n => ?_⟩
  show g.warmTickets.find n = _
  rw [e]
  exact find_mapKeyed g.tickets n fun n k => { g.becomes n k with readySeq := q n k }

theorem Garage.warmed_state (g : Garage) (n : Nat) :
    (g.warmed.ticket n).map Ticket.state = (g.ticket n).map fun k => (g.becomes n k).state := by
  obtain ⟨q, e⟩ := g.warmed_ticket
  rw [e, Option.map_map]
  rfl

/-- A ticket is in a state that no warm start gives afterwards when it was in it before and no move was in flight for it. -/
theorem Garage.warmed_state_iff (g : Garage) (n : Nat) {st : TicketState} (hs : st = .allocated ∨ st = .ready) :
    (g.warmed.ticket n).map Ticket.state = some st ↔
      (g.ticket n).map Ticket.state = some st ∧ g.inDoubt n = none := by
  rw [Garage.warmed_state]
  cases g.ticket n with
  | none => simp
  | some k =>
    simp only [Option.map_some, Option.some.injEq]
    unfold Garage.becomes
    cases g.inDoubt n with
    | some x => rcases hs with rfl | rfl <;> simp
    | none =>
      obtain ⟨_, _, _, _, _, _, state, _⟩ := k
      rcases hs with rfl | rfl <;> cases state <;> simp

/-- The wait list holds the READY tickets in ready order (R175). -/
theorem Garage.warmed_waits {g : Garage} (h : g.tickets.rising = true) : g.warmed.readyWaiting =
    g.readyOrder.filter fun n => (g.ticket n).map Ticket.state == some .ready && (g.inDoubt n).isNone := by
  have hr : g.unnumbered.tickets.rising = true := (rising_mapKeyed _).trans h
  have order : g.warmed.readyOrder = g.readyOrder := by
    have k := Garage.readyOrder_inOrder hr
    rw [Garage.unnumbered_readyOrder] at k
    rw [← k, Garage.readyOrder_eq, Garage.readyOrder_eq]
    show (sortBy Prod.fst (Table.readyPairs g.warmTickets)).map Prod.snd = _
    rw [Garage.warmTickets_places h]
    rfl
  unfold Garage.readyWaiting
  rw [order]
  refine List.filter_congr fun n _ => ?_
  rw [Bool.eq_iff_iff, Bool.and_eq_true, beq_iff_eq, beq_iff_eq, Option.isNone_iff_eq_none]
  exact g.warmed_state_iff n (.inr rfl)

theorem Garage.warmed_readySeq {g : Garage} (h : g.tickets.rising = true) {n : Nat} {k k' : Ticket}
    (hk : g.ticket n = some k) (hk' : g.warmed.ticket n = some k') : k'.readySeq = k.readySeq.map fun _ => g.readyPlace n := by
  have hr : g.unnumbered.tickets.rising = true := (rising_mapKeyed _).trans h
  have hu : g.unnumbered.ticket n = some (g.becomes n k) := by
    show (g.tickets.mapKeyed g.becomes).find n = _
    rw [find_mapKeyed, show g.tickets.find n = some k from hk]
    rfl
  have e : k' = (g.becomes n k).inOrder g.readyOrder 1 n := by
    have k2 : g.warmTickets.find n = some k' := hk'
    rw [Garage.warmTickets_places h, find_mapKeyed, show (g.tickets.mapKeyed g.becomes).find n = _ from hu] at k2
    exact (Option.some.inj k2).symm
  have p := inOrder_readySeq hr ((find_rising hr _ _).mp hu)
  have place : g.unnumbered.readyPlace n = g.readyPlace n := by
    unfold Garage.readyPlace
    rw [Garage.unnumbered_readyOrder]
  rw [Garage.unnumbered_readyOrder, place, g.becomes_readySeq] at p
  rw [e]
  exact p

theorem Garage.heldSlots_eq (g : Garage) (l : Lift) : g.heldSlots l =
    g.tickets.count fun k => k.state == .check && (k.unresolved.map fun x => x.2.dest) == some (.lane l) := by
  unfold Garage.heldSlots
  congr 1
  funext t
  cases t.unresolved <;> rfl

theorem Garage.parkAnew_eq (g : Garage) (u : LiftUnit) :
    (∀ tag n, u.hall = some (tag, n) → (g.ticket n).map Ticket.state = some .allocated → g.parkAnew u = some (n, g.seconds)) ∧
    ((∀ tag n, u.hall = some (tag, n) → (g.ticket n).map Ticket.state ≠ some .allocated) → g.parkAnew u = none) := by
  unfold Garage.parkAnew
  cases u.hall with
  | none => exact ⟨nofun, fun _ => rfl⟩
  | some x =>
    refine ⟨fun tag n e h => ?_, fun h => if_neg (h x.1 x.2 rfl)⟩
    cases e
    exact if_pos h

end Sys2Proof.Machine

namespace Sys2Proof.Machine

/-! ### Warm start: a lift unit (R82, R144) -/

/-- The lift unit that a warm start leaves, but for its reserved slots. -/
theorem LiftUnit.warm_unit (a : LiftUnit) (park : Option (Nat × Nat)) (slots : Nat) :
    let b : LiftUnit := { a.warm with parkRequest := park, reserved := slots }
    b = { a with
        tenure := none, plan := none, waiting := [], inFlight := none, reorder := none, moveTimer := none
        offPending := false, readiness := .none, state := b.state, unresolved := b.unresolved
        parkRequest := b.parkRequest, reserved := b.reserved } ∧
      (∀ m, a.inFlight = some m → b.state = .faulted ∧ b.unresolved = some m) ∧
      (a.inFlight = none → b.unresolved = a.unresolved ∧
        b.state = (if a.state = .faulted ∧ a.unresolved ≠ none then .faulted
          else if a.serviceOn = false then .out else .offline)) := by
  refine ⟨rfl, fun m h => ?_, fun h => ?_⟩
  · show a.warmState = _ ∧ (if a.inFlight.isSome then a.inFlight else a.unresolved) = _
    unfold LiftUnit.warmState
    rw [h]
    exact ⟨rfl, rfl⟩
  · show (if a.inFlight.isSome then a.inFlight else a.unresolved) = _ ∧ a.warmState = _
    unfold LiftUnit.warmState
    rw [h]
    refine ⟨rfl, ?_⟩
    simp only [Option.isSome_none, Bool.false_eq_true, if_false, Option.isSome_iff_ne_none, Bool.not_eq_true']

/-! ### Warm start: the frames (R81, R97) -/

theorem foldl_emit_out (outs : List Out) (e : Ev) : (outs.foldl Ev.emit e).out = e.out ++ outs := by
  induction outs generalizing e with
  | nil => exact (List.append_nil _).symm
  | cons o rest ih => rw [List.foldl_cons, ih, Ev.emit, List.append_assoc, List.singleton_append]

/-- The retrievals that a warm start loses. -/
def Garage.lostCount (g : Garage) : Nat := g.tickets.count Ticket.inRetrieval

/-- The frames of a warm start. -/
def Garage.warmOut (g : Garage) : List Out :=
  (if g.lostCount = 0 then [] else [alertOut g.seconds AlertKind.queueLost (w16 g.lostCount)]) ++ g.hooks.filterMap reopenHook

theorem warmEffects_out (g : Garage) : (warmEffects ⟨g, []⟩).out = g.warmOut := by
  have hooks : g.warm.hooks = g.hooks := by rw [g.warm_eq]
  have seconds : g.warm.seconds = g.seconds := by rw [g.warm_eq]
  unfold warmEffects Garage.warmOut Garage.lostCount
  dsimp only [Ev.modG]
  rw [foldl_emit_out]
  split
  · rw [show ((⟨g.warm, []⟩ : Ev).g.hooks) = g.hooks from hooks]
  · rw [Ev.alert_out, Ev.alert_g, seconds, hooks]
    rfl

theorem reopenHook_eq (x : Nat × Hook) : reopenHook x =
    if x.2.state = .released then some (hookOpenFrame x.1 (x.2.ticket.getD 0) (x.2.tag.getD 0)) else none := rfl

/-- As many HOOK_OPEN as there are RELEASED hooks. -/
theorem reopenHook_length (hooks : List (Nat × Hook)) :
    (hooks.filterMap reopenHook).length = (hooks.filter fun x => x.2.state == .released).length := by
  induction hooks with
  | nil => rfl
  | cons x rest ih =>
    rw [List.filterMap_cons, List.filter_cons, reopenHook_eq]
    by_cases h : x.2.state = .released
    · rw [if_pos h, if_pos (beq_iff_eq.mpr h), List.length_cons, List.length_cons, ih]
    · rw [if_neg h, if_neg (by rwa [beq_iff_eq]), ih]

theorem Garage.warmOut_length (g : Garage) : g.warmOut.length =
    (if g.lostCount = 0 then 0 else 1) + (g.hooks.filter fun x => x.2.state == .released).length := by
  unfold Garage.warmOut
  rw [List.length_append, reopenHook_length]
  split <;> rfl

/-! ### Warm start: the lines (R25) -/

theorem tallyUp_le_succ (n : Nat) : tallyUp n ≤ n + 1 := by
  unfold tallyUp
  split <;> omega

/-- Each frame that is queued counts at most one loss. -/
theorem Line.queueOut_losses (ln : Line) (o : Out) : (ln.queueOut o).noticeDrops ≤ ln.noticeDrops + 1 := by
  have one : ∀ (p : Port) (q : QFrame), (ln.enqueue p q).noticeDrops ≤ ln.noticeDrops + 1 := fun p q => by
    unfold Line.enqueue
    split
    · cases p with
      | s =>
        dsimp only
        split
        · exact Nat.le_succ _
        · exact tallyUp_le_succ _
      | g => exact Nat.le_succ _
    · exact tallyUp_le_succ _
  rw [Line.queueOut_goes]
  split
  · exact one _ _
  · exact tallyUp_le_succ _

theorem Line.queueAll_losses (outs : List Out) (ln : Line) :
    (outs.foldl Line.queueOut ln).noticeDrops ≤ ln.noticeDrops + outs.length := by
  induction outs generalizing ln with
  | nil => exact Nat.le_refl _
  | cons o rest ih =>
    have h1 := ih (ln.queueOut o)
    have h2 := ln.queueOut_losses o
    rw [List.foldl_cons, List.length_cons]
    omega

/-- A port as a warm start has left it, but for frames of its own that it has begun since. -/
structure PortState.Fresh (due : Bool) (b : PortState) : Prop where
  pollPos : b.pollPos = 0
  visit : b.visit = none
  transit : b.transitQueue = []
  passOver : b.passOver = 0
  breakDue : b.sending = none → b.breakDue = due

theorem PortState.Fresh.enterHold {due : Bool} {b : PortState} (h : b.Fresh due) : b.enterHold.Fresh due := by
  have e : b.enterHold = { b with turnLeft := 0 } := by
    rw [PortState.enterHold_eq]
    split
    · rfl
    · rename_i hv
      rw [h.visit] at hv
      cases hv
  rw [e]
  exact { h with }

theorem PortState.Fresh.sendNext {due : Bool} {b : PortState} (h : b.Fresh due) (hold : Bool) : (b.sendNext hold).Fresh due := by
  unfold PortState.sendNext PortState.chooseFrame
  rw [h.transit]
  split
  · cases b.ownQueue with
    | nil => exact ⟨h.pollPos, h.visit, rfl, h.passOver, h.breakDue⟩
    | cons q own => exact ⟨h.pollPos, h.visit, rfl, h.passOver, nofun⟩
  · exact h

/-- Both ports are so. -/
theorem State.underHold_fresh {w : State} {due : Port → Bool} (h : ∀ p, (w.port p).Fresh (due p)) (p : Port) :
    (w.underHold.port p).Fresh (due p) := by
  have sends : ∀ (w : State) (q : Port), (∀ p, (w.port p).Fresh (due p)) → ∀ p, ((w.sendNext q).port p).Fresh (due p) := by
    intro w q h p
    have enters : ∀ p, (w.enterHold.port p).Fresh (due p) := fun p => by
      rw [State.enterHold_port]
      split
      · exact (h p).enterHold
      · exact h p
    rw [State.sendNext_port]
    split
    · rename_i e
      subst e
      exact (enters p).sendNext _
    · exact enters p
  unfold State.underHold
  split
  · exact sends _ .g (sends _ .s h) p
  · exact h p

end Sys2Proof.Machine

namespace Sys2Proof.Machine

/-! ### WARM_START (R25, R44, R46) -/

theorem State.warmStart_line (s : State) : s.warmStart.line = s.garage.warmOut.foldl Line.queueOut s.line.warm := by
  rw [← warmEffects_out]
  rfl

theorem State.warmStart_garage (s : State) : s.warmStart.garage = s.garage.warm := warmEffects_g _

theorem State.warmStart_queuesOnly (s : State) : QueuesOnly s.line.warm s.warmStart.line :=
  State.run_queuesOnly { s with line := s.line.warm } warmEffects

theorem State.warmStart_port (s : State) (p : Port) :
    s.warmStart.port p = { (s.port p).warm with ownQueue := (s.warmStart.port p).ownQueue } := by
  have k := s.warmStart_queuesOnly.port p
  cases p <;> exact k

/-- What a warm start leaves of a port, whatever frames it has begun since (R25). -/
theorem State.warmStart_warmed {s : State} {p : Port} {a b : PortState} (ha : s.port p = a)
    (hb : s.warmStart.underHold.port p = b) :
    b.settings = a.settings ∧ b.pollPos = 0 ∧ b.visit = none ∧ b.awaiting = false ∧ b.transitQueue = [] ∧
      b.passOver = 0 ∧ b.faultTally = 0 ∧ b.dropTally = 0 ∧
      (b.sending = none → b.breakDue = decide (a.mode ≠ .disabled)) ∧
      b.stations = (a.stations.map fun x => { x with poll := .active, misses := 0, skips := 0 }) ∧
      (a.mode = .disabled → b.mode = .disabled) ∧ (a.mode ≠ .disabled → b.mode = .running) := by
  subst ha hb
  let a := s.port p
  let b := s.warmStart.underHold.port p
  have fresh : b.Fresh (decide (a.mode ≠ .disabled)) := by
    refine State.underHold_fresh (due := fun p => decide ((s.port p).mode ≠ .disabled)) (fun p => ?_) p
    rw [s.warmStart_port]
    refine ⟨rfl, rfl, rfl, rfl, fun _ => ?_⟩
    show ((s.port p).mode != .disabled) = _
    cases (s.port p).mode <;> rfl
  have q := s.warmStart.underHold_lineQuiet.port p
  have mode : b.mode = if a.mode = .disabled then .disabled else .running := by
    rw [show b.mode = _ from q.same.mode, s.warmStart_port]
    rfl
  have e := s.warmStart_port p
  refine ⟨?_, fresh.pollPos, fresh.visit, ?_, fresh.transit, fresh.passOver, ?_, ?_, fresh.breakDue, ?_, fun h => ?_, fun h => ?_⟩
  · rw [show b.settings = _ from q.same.settings, e]
    rfl
  · rw [show b.awaiting = _ from q.awaiting, e]
    rfl
  · rw [show b.faultTally = _ from q.same.faultTally, e]
    rfl
  · rw [show b.dropTally = _ from q.same.dropTally, e]
    rfl
  · rw [show b.stations = _ from q.stations, e]
    rfl
  · rw [mode, if_pos h]
  · rw [mode, if_neg h]

/-- Stations are where they were after a warm start. -/
theorem Line.warm_places (ln : Line) :
    (∀ r, ln.warm.stationOfRole r = ln.stationOfRole r) ∧ ∀ n, ln.warm.reaches n = ln.reaches n := by
  have same : ∀ (sts : List Station) (q : Station → Bool),
      (∀ x : Station, q { x with poll := .active, misses := 0, skips := 0 } = q x) →
      ((sts.map fun x => { x with poll := .active, misses := 0, skips := 0 }).find? q).map Station.number =
        (sts.find? q).map Station.number := fun sts q hq => by
    rw [List.find?_map, Option.map_map]
    exact congrArg (fun q' => (sts.find? q').map Station.number) (funext hq)
  have has : ∀ (ps : PortState) (n : Nat), ps.warm.hasStation n = ps.hasStation n := fun ps n => by
    show (ps.stations.map _).any _ = _
    rw [List.any_map]
    rfl
  refine ⟨fun r => ?_, fun n => ?_⟩
  · unfold Line.stationOfRole
    rw [← same (ln.s.stations ++ ln.g.stations) _ fun _ => rfl, List.map_append]
    rfl
  · unfold Line.reaches
    rw [show ln.warm.s.hasStation n = _ from has ln.s n, show ln.warm.g.hasStation n = _ from has ln.g n]
    have hm : (ln.warm.g.mode != .disabled) = (ln.g.mode != .disabled) := by
      show ((if ln.g.mode = .disabled then PortMode.disabled else .running) != .disabled) = _
      cases ln.g.mode <;> rfl
    rw [hm]

/-- Each frame of a warm start is on its way, or its loss is counted. -/
theorem State.warmStart_sends {s : State} {o : Out} (ho : o ∈ s.garage.warmOut) {r : Role} (hr : o.dest = .role r) :
    Sends { s with line := { s.line with noticeDrops := 0 } } s.warmStart.underHold r o.kind o.payload := by
  refine s.warmStart.underHold_lineQuiet.sends ?_
  rw [s.warmStart_line]
  have k := s.line.warm_places
  exact Line.queueAll_queued ho hr (fun p n h1 h2 =>
    Line.serves_of ((k.1 r).symm.trans h1) ((k.2 n).symm.trans h2)) (Nat.zero_le _)

/-- Settles O49: the blocks behind the ports by the equation of a warm start, the lines by what they leave of each port,
and its frames by the queues. -/
theorem warmStart : Obligations.WarmStart := by
  unfold Obligations.WarmStart
  intro s hp g lost opens warmed inDoubt state ended becomes stands holds held place unit cleared
  have q := s.warmStart.underHold_lineQuiet
  have r := s.warmStart_queuesOnly
  have garage : s.warmStart.underHold.garage = g.warm := q.garage.trans s.warmStart_garage
  let t := s.warmStart.underHold
  have ticket : ∀ n, t.garage.ticket n = g.warmed.ticket n := fun n => by
    rw [garage, g.warm_eq]
    rfl
  obtain ⟨seq, tk⟩ := g.warmed_ticket
  have hlost : lost = g.lostCount := rfl
  refine ⟨s.warmStart.underHold, s.react_next State.warmStart hp, q.pending, q.powered.trans hp, q.storeHeld, ?_, ?_,
    ?_, ?_, ?_, fun hl ho => ?_, ?_, fun l => ?_, ?_, fun n => ?_, fun n k k' hk hk' => ?_,
    fun hr => ⟨?_, fun n k k' hk hk' => ?_⟩, fun hl => ?_, fun x hx => ?_⟩
  · exact q.passTable.trans r.sameLines.passTable
  · exact q.due.trans r.due
  · exact State.warmStart_warmed (State.port_s s) (State.port_s _)
  · exact State.warmStart_warmed (State.port_g s) (State.port_g _)
  · rw [q.notices, s.warmStart_line, hlost]
    refine (Line.queueAll_losses _ _).trans (Nat.le_of_eq ?_)
    rw [Garage.warmOut_length]
    exact Nat.zero_add _
  · have none : g.warmOut = [] := by
      rw [← List.length_eq_zero_iff, Garage.warmOut_length, if_pos (hlost ▸ hl), show (g.hooks.filter _) = [] from ho]
      rfl
    have line : s.warmStart.line = s.line.warm := by
      rw [s.warmStart_line, show s.garage.warmOut = [] from none]
      rfl
    rw [State.underHold_quiet (by rw [line]; rfl), line]
    exact ⟨rfl, rfl⟩
  · rw [garage, g.warm_eq]
  · have lift : t.garage.lift l = { (g.lift l).warm with
        parkRequest := g.warmed.parkAnew (g.lift l), reserved := g.warmed.heldSlots l } := by
      rw [garage, g.warm_eq]
      cases l <;> rfl
    have tickets : t.garage.tickets = g.warmed.tickets := by
      rw [garage, g.warm_eq]
      rfl
    have u := (g.lift l).warm_unit (g.warmed.parkAnew (g.lift l)) (g.warmed.heldSlots l)
    have park := g.warmed.parkAnew_eq (g.lift l)
    rw [lift]
    refine ⟨u.1, u.2.1, u.2.2, fun tag n hh hs hd => ?_, fun hh => ?_, ?_⟩
    · exact park.1 tag n hh ((g.warmed_state_iff n (.inl rfl)).mpr ⟨hs, hd⟩)
    · refine park.2 fun tag n hn hs => ?_
      obtain ⟨h1, h2⟩ := (g.warmed_state_iff n (.inl rfl)).mp hs
      exact (hh tag n hn).elim (fun h => h h1) fun h => h h2
    · rw [tickets]
      exact g.warmed.heldSlots_eq l
  · rw [garage, g.warm_eq]
    rfl
  · rw [ticket, tk]
    cases g.ticket n <;> rfl
  · rw [ticket, tk, hk] at hk'
    cases hk'
    rfl
  · rw [garage, g.warm_eq]
    exact Garage.warmed_waits hr
  · exact Garage.warmed_readySeq hr hk ((ticket n).symm.trans hk')
  · refine s.warmStart_sends (o := alertOut g.seconds AlertKind.queueLost (w16 g.lostCount)) ?_ rfl
    refine List.mem_append_left _ ?_
    rw [if_neg (show ¬ s.garage.lostCount = 0 from hl)]
    exact List.mem_singleton.mpr rfl
  · obtain ⟨hm, hs⟩ := List.mem_filter.mp hx
    refine s.warmStart_sends (o := hookOpenFrame x.1 (x.2.ticket.getD 0) (x.2.tag.getD 0)) ?_ rfl
    refine List.mem_append_right _ (List.mem_filterMap.mpr ⟨x, hm, ?_⟩)
    rw [reopenHook_eq, if_pos (beq_iff_eq.mp hs)]

end Sys2Proof.Machine

namespace Sys2Proof.Machine

/-! ### What requests, reports and expiries leave alone: the settings, the geometry, the mode and the counts of time -/

@[simp] theorem settle_fixed (e : Ev) : (settle e).g.fixed = e.g.fixed := (settle_works e).fixed
@[simp] theorem giveRunner_fixed (n : Nat) (e : Ev) : (giveRunner n e).g.fixed = e.g.fixed := (giveRunner_works n e).fixed
@[simp] theorem freeRunner_fixed (r : Nat) (e : Ev) : (freeRunner r e).g.fixed = e.g.fixed := (freeRunner_works r e).fixed
@[simp] theorem releaseRunner_fixed (n : Nat) (e : Ev) : (releaseRunner n e).g.fixed = e.g.fixed :=
  (releaseRunner_works n e).fixed
@[simp] theorem enterReady_fixed (n : Nat) (loc : Location) (e : Ev) : (enterReady n loc e).g.fixed = e.g.fixed :=
  (enterReady_works n loc e).fixed
@[simp] theorem placeAtDestination_fixed (l : Lift) (m : Move) (e : Ev) :
    (placeAtDestination l m e).g.fixed = e.g.fixed := (placeAtDestination_works l m e).fixed
@[simp] theorem placeAtSource_fixed (l : Lift) (m : Move) (e : Ev) : (placeAtSource l m e).g.fixed = e.g.fixed :=
  (placeAtSource_works l m e).fixed

/-! ### Requests -/

@[simp] theorem Ev.ticketReply_g (e : Ev) (c : Caller) (k : Byte) (r : Result) (n st : Nat) :
    (e.ticketReply c k r n st).g = e.g := rfl
@[simp] theorem Ev.runnerReply_g (e : Ev) (c : Caller) (k : Byte) (r : Result) (n : Nat) (x : Runner) :
    (e.runnerReply c k r n x).g = e.g := rfl
@[simp] theorem keyStray_g (hook tag : Nat) (e : Ev) : (keyStray hook tag e).g = e.g := rfl

@[simp] theorem closeMapping_fixed (t : Ticket) (e : Ev) : (closeMapping t e).g.fixed = e.g.fixed := by
  unfold closeMapping
  split
  · rfl
  · dsimp only
    split <;> simp

@[simp] theorem closeTicket_fixed (n : Nat) (t : Ticket) (st : Nat) (k : CloseCause) (e : Ev) :
    (closeTicket n t st k e).g.fixed = e.g.fixed := rfl

@[simp] theorem allocation_g (c : Caller) (k : Byte) (n : Nat) (t : Ticket) (choice : Option (Nat × Nat)) (stay : Nat)
    (e : Ev) : (allocation c k n t choice stay e).g = e.g := rfl

@[simp] theorem admitCar_fixed (c : Caller) (n tag : Nat) (cls : CarClass) (prio stay est : Nat)
    (choice : Option (Nat × Nat)) (e : Ev) : (admitCar c n tag cls prio stay est choice e).g.fixed = e.g.fixed := by
  unfold admitCar
  dsimp only
  split
  · simp only [Ev.reply_g, Ev.modG_g]
    split <;> simp
  · rfl

theorem arrive_fixed (c : Caller) (pl : List Byte) (e : Ev) : (arrive c pl e).g.fixed = e.g.fixed := by
  unfold arrive arriveChecked; dsimp only; (repeat' split) <;> simp

theorem joinQueue_fixed (c : Caller) (n prio : Nat) (hold : Bool) (e : Ev) :
    (joinQueue c n prio hold e).g.fixed = e.g.fixed := e.g.takeSeq_fixed

theorem releaseAtLot_fixed (c : Caller) (n prio : Nat) (e : Ev) : (releaseAtLot c n prio e).g.fixed = e.g.fixed := by
  simp [releaseAtLot]

theorem retrieve_fixed (c : Caller) (pl : List Byte) (e : Ev) : (retrieve c pl e).g.fixed = e.g.fixed := by
  unfold retrieve retrieveTicket retrieveRefused
  dsimp only
  (repeat' split) <;> simp [joinQueue_fixed, releaseAtLot_fixed]

theorem resume_fixed (c : Caller) (pl : List Byte) (e : Ev) : (resume c pl e).g.fixed = e.g.fixed := by
  unfold resume resumeTicket; dsimp only; (repeat' split) <;> rfl

theorem Garage.withdraw_fixed (g : Garage) (n : Nat) :
    ({ g with liftA := g.liftA.withdraw n, liftB := g.liftB.withdraw n } : Garage).fixed = g.fixed := by
  have h : ∀ u : LiftUnit, (u.withdraw n).laneCapacity = u.laneCapacity := fun u => by
    unfold LiftUnit.withdraw; split <;> rfl
  simp [Garage.fixed, h]

theorem cancelAllocated_fixed (c : Caller) (n : Nat) (t : Ticket) (e : Ev) :
    (cancelAllocated c n t e).g.fixed = e.g.fixed := by
  unfold cancelAllocated
  simp only [closeTicket_fixed, closeMapping_fixed, Ev.modG_g, Ev.ticketReply_g, Garage.withdraw_fixed]
  split <;> simp

@[simp] theorem Garage.giveUp_fixed (g : Garage) (n : Nat) : (g.giveUp n).fixed = g.fixed := by
  unfold Garage.giveUp Garage.endPlanOf; (repeat' split) <;> simp

theorem cancel_fixed (c : Caller) (pl : List Byte) (e : Ev) : (cancel c pl e).g.fixed = e.g.fixed := by
  unfold cancel cancelTicket; dsimp only; (repeat' split) <;> simp [cancelAllocated_fixed]

theorem Garage.leaveReady_fixed (g : Garage) (n : Nat) (t : Ticket) : (g.leaveReady n t).fixed = g.fixed := by
  unfold Garage.leaveReady
  split
  · exact g.leaveLane_fixed _ _
  · rfl

theorem handOver_fixed (c : Caller) (n : Nat) (t : Ticket) (e : Ev) : (handOver c n t e).g.fixed = e.g.fixed := by
  unfold handOver
  simp only [closeTicket_fixed, closeMapping_fixed, releaseRunner_fixed, Ev.modG_g, Ev.ticketReply_g]
  split <;> simp [Garage.leaveReady_fixed]

theorem handover_fixed (c : Caller) (pl : List Byte) (e : Ev) : (handover c pl e).g.fixed = e.g.fixed := by
  unfold handover handoverTicket; (repeat' split) <;> simp [handOver_fixed]

theorem rePlace_fixed (c : Caller) (n stay est : Nat) (choice : Option (Nat × Nat)) (e : Ev) :
    (rePlace c n stay est choice e).g.fixed = e.g.fixed := by
  have placed : ∀ (b : Option Nat) (f : Ticket → Ticket),
      ((match b with | some b => e.g.reserve b n | none => e.g).modTicket n f).fixed = e.g.fixed := fun b f => by
    cases b <;> rfl
  unfold rePlace
  dsimp only
  split
  · exact placed _ _
  · simp only [releaseRunner_fixed, allocation_g, Ev.modG_g, Garage.tieHook, Garage.modHook_fixed]
    exact placed _ _

theorem rePark_fixed (c : Caller) (pl : List Byte) (e : Ev) : (rePark c pl e).g.fixed = e.g.fixed := by
  unfold rePark reParkTicket; dsimp only; (repeat' split) <;> simp [rePlace_fixed]

theorem queryTicket_g (c : Caller) (pl : List Byte) (e : Ev) : (queryTicket c pl e).g = e.g := by
  unfold queryTicket; (repeat' split) <;> rfl

/-! ### Reports -/

theorem keyIn_fixed (c : Caller) (pl : List Byte) (e : Ev) : (keyIn c pl e).g.fixed = e.g.fixed := by
  unfold keyIn keyInHook keyHungTied keyReturned keyMishung keyUnexpected
  dsimp only
  (repeat' split) <;> rfl

theorem keyOut_fixed (c : Caller) (pl : List Byte) (e : Ev) : (keyOut c pl e).g.fixed = e.g.fixed := by
  unfold keyOut keyOutHook keyUnexpected; dsimp only; (repeat' split) <;> rfl

theorem runnerOn_fixed (c : Caller) (pl : List Byte) (e : Ev) : (runnerOn c pl e).g.fixed = e.g.fixed := by
  unfold runnerOn runnerOnFor; dsimp only; (repeat' split) <;> simp

theorem runnerOff_fixed (c : Caller) (pl : List Byte) (e : Ev) : (runnerOff c pl e).g.fixed = e.g.fixed := by
  unfold runnerOff runnerOffFor secondRunnerOff
  split
  · dsimp only
    split
    · rfl
    · rfl
    · split
      · split
        · simp
        · rfl
      · rfl
    · rfl
  · rfl

theorem Garage.pickedUp_fixed (g : Garage) (r n : Nat) (t : Ticket) : (g.pickedUp r n t).fixed = g.fixed := by
  unfold Garage.pickedUp; dsimp only; split <;> simp

theorem pickup_fixed (c : Caller) (pl : List Byte) (e : Ev) : (pickup c pl e).g.fixed = e.g.fixed := by
  unfold pickup pickupTicket pickupMismatch; dsimp only; (repeat' split) <;> simp [Garage.pickedUp_fixed]

theorem liftStatus_fixed (l : Lift) (pl : List Byte) (e : Ev) : (liftStatus l pl e).g.fixed = e.g.fixed :=
  e.g.modLift_fixed l _ fun u => by unfold LiftUnit.reported; dsimp only; split <;> rfl

theorem Garage.reallocate_fixed (g : Garage) (l : Lift) (n : Nat) (t : Ticket) (b : Nat) :
    (g.reallocate l n t b).fixed = g.fixed := by
  unfold Garage.reallocate; dsimp only; split <;> simp

theorem Garage.present_fixed (g : Garage) (l : Lift) (tag n : Nat) : (g.present l tag n).fixed = g.fixed :=
  g.modLift_fixed l _ fun _ => rfl

theorem carPresent_fixed (l : Lift) (pl : List Byte) (e : Ev) : (carPresent l pl e).g.fixed = e.g.fixed := by
  unfold carPresent presentCar hallNotExpected
  dsimp only
  (repeat' split) <;> simp [Garage.present_fixed, Garage.reallocate_fixed]

theorem moveDone_fixed (l : Lift) (pl : List Byte) (e : Ev) : (moveDone l pl e).g.fixed = e.g.fixed := by
  unfold moveDone discardByMatch discardReport
  split
  · exact (moveCompleted_works l _ e).fixed
  · simp
  · rfl
  · rfl

theorem moveFault_fixed (l : Lift) (pl : List Byte) (e : Ev) : (moveFault l pl e).g.fixed = e.g.fixed := by
  unfold moveFault lateFault discardByMatch discardReport
  dsimp only
  split
  · exact (moveFaulted_works l _ _ e).fixed
  · split <;> simp
  · rfl
  · rfl

theorem moveRefused_fixed (l : Lift) (pl : List Byte) (e : Ev) : (moveRefused l pl e).g.fixed = e.g.fixed := by
  unfold moveRefused moveWasRefused discardByMatch discardReport
  split
  · split
    · exact (refusedLocation_works l _ e).fixed
    · simp
  · simp
  · rfl
  · rfl

/-! ### Management that sets nothing -/

theorem Garage.closeBays_fixed (g : Garage) (n : Nat) (b : Bay) : (g.closeBays n b).fixed = g.fixed := rfl

theorem bayService_fixed (c : Caller) (pl : List Byte) (e : Ev) : (bayService c pl e).g.fixed = e.g.fixed := by
  unfold bayService bayIn bayServiceReply
  dsimp only
  (repeat' split) <;> simp [Garage.closeBays_fixed]

theorem queryBay_g (c : Caller) (pl : List Byte) (e : Ev) : (queryBay c pl e).g = e.g := by
  unfold queryBay; split <;> rfl

theorem hookService_fixed (c : Caller) (pl : List Byte) (e : Ev) : (hookService c pl e).g.fixed = e.g.fixed := by
  unfold hookService turnHook; (repeat' split) <;> rfl

theorem Garage.serviceOff_fixed (g : Garage) (l : Lift) : (g.serviceOff l).fixed = g.fixed := by
  unfold Garage.serviceOff
  split <;> rw [Garage.modLift_fixed _ _ _ (by intro u; rfl)]
  exact g.stopIdleLift_fixed l _

theorem LiftUnit.serviceIn_laneCapacity (u : LiftUnit) (heard : Bool) : (u.serviceIn heard).laneCapacity = u.laneCapacity := by
  unfold LiftUnit.serviceIn; split <;> rfl

theorem liftService_fixed (heard : Lift → Bool) (c : Caller) (pl : List Byte) (e : Ev) :
    (liftService heard c pl e).g.fixed = e.g.fixed := by
  unfold liftService liftServiceReply
  split
  · rfl
  · rfl
  · exact e.g.serviceOff_fixed _
  · split
    · rfl
    · exact e.g.modLift_fixed _ _ fun u => u.serviceIn_laneCapacity _

theorem liftResolve_fixed (c : Caller) (pl : List Byte) (e : Ev) : (liftResolve c pl e).g.fixed = e.g.fixed := by
  unfold liftResolve resolveAt; dsimp only; (repeat' split) <;> simp

theorem liftReport_fixed (c : Caller) (pl : List Byte) (e : Ev) : (liftReport c pl e).g.fixed = e.g.fixed := by
  unfold liftReport
  split
  · rfl
  · simp only [Ev.modG_g, Ev.reply_g]
    split
    · exact e.g.modLift_fixed _ _ fun _ => rfl
    · rfl

theorem Garage.acceptMember_fixed (g : Garage) (c : Chan) (n : Nat) : (g.acceptMember c n).fixed = g.fixed := by
  simp [Garage.acceptMember]

theorem loadMember_fixed (c : Chan) (n : Nat) (gr : Garage × LoadResult) : (loadMember c n gr).1.fixed = gr.1.fixed := by
  unfold loadMember
  dsimp only
  split
  · rfl
  · split
    · rfl
    · split
      · rfl
      · exact Garage.acceptMember_fixed _ _ _

theorem loadMembers_fixed (c : Chan) (ns : List Nat) (gr : Garage × LoadResult) :
    (ns.foldl (fun gr n => loadMember c n gr) gr).1.fixed = gr.1.fixed := by
  induction ns generalizing gr with
  | nil => rfl
  | cons n rest ih => rw [List.foldl_cons, ih, loadMember_fixed]

theorem convoyLoad_fixed (c : Caller) (pl : List Byte) (e : Ev) : (convoyLoad c pl e).g.fixed = e.g.fixed := by
  unfold convoyLoad convoyLoadFor
  dsimp only
  split
  · rfl
  · split
    · rfl
    · split
      · rfl
      · simp only [Ev.reply_g, Ev.modG_g]
        split <;> simp [loadMembers_fixed]

theorem convoyStart_fixed (c : Caller) (pl : List Byte) (e : Ev) : (convoyStart c pl e).g.fixed = e.g.fixed := by
  unfold convoyStart; dsimp only; (repeat' split) <;> simp

theorem Garage.convert_fixed (g : Garage) (n : Nat) : (g.convert n).fixed = g.fixed := by
  unfold Garage.convert; dsimp only; split <;> simp

theorem Garage.passTenure_fixed (g : Garage) (c : Chan) :
    ({ g with liftA := passTenure c g.liftA, liftB := passTenure c g.liftB } : Garage).fixed = g.fixed := by
  have h : ∀ u : LiftUnit, (passTenure c u).laneCapacity = u.laneCapacity := fun u => by unfold passTenure; split <;> rfl
  simp [Garage.fixed, h]

theorem Garage.stopConvoy_fixed (g : Garage) (c : Chan) : (g.stopConvoy c).fixed = g.fixed := by
  unfold Garage.stopConvoy Garage.letRun
  dsimp only
  rw [Garage.modChan_fixed, Garage.modChan_fixed, Garage.clearBlock_fixed, Garage.passTenure_fixed,
    Garage.foldl_fixed _ Garage.convert_fixed, Garage.foldl_fixed _ Garage.becomeParked_fixed]

theorem convoyStop_fixed (c : Caller) (pl : List Byte) (e : Ev) : (convoyStop c pl e).g.fixed = e.g.fixed := by
  unfold convoyStop; (repeat' split) <;> simp [Garage.stopConvoy_fixed]

theorem convoyQuery_g (c : Caller) (pl : List Byte) (e : Ev) : (convoyQuery c pl e).g = e.g := by
  unfold convoyQuery; split <;> rfl

/-! ### Expiries -/

theorem expires_fixed (d : Due) (e : Ev) : (expires d e).g.fixed = e.g.fixed := by
  cases d with
  | move l =>
    show (moveExpires l e).g.fixed = _
    unfold moveExpires
    split
    · rw [settle_fixed, (moveTimedOut_works l _ e).fixed]
    · exact e.g.modLift_fixed l _ fun _ => rfl
  | pickup r => rfl
  | hold n => rfl

theorem Garage.startMoveTimer_fixed (g : Garage) (l : Lift) (n : Nat) : (g.startMoveTimer l n).fixed = g.fixed :=
  g.modLift_fixed l _ fun u => by split <;> rfl

theorem Garage.answered_fixed (g : Garage) (l : Lift) (back accepted : Bool) :
    (g.modLift l fun u => u.answered back accepted).fixed = g.fixed :=
  g.modLift_fixed l _ fun u => by unfold LiftUnit.answered; (repeat' split) <;> rfl

end Sys2Proof.Machine

namespace Sys2Proof.Machine

/-! ### Invariants of the blocks behind the ports

Those blocks change by the events of this structure and by nothing else, so an invariant of theirs is one property to check
per event. -/

/-- A command that a frame to the part makes is that frame, with the body of its kind behind the gates (R21, R195). -/
theorem exec_answerFrame {c : Instr} {f : Frame} (h : answerFrame 0 c = some f) (he : ∀ p, c ≠ .empty p)
    (ht : ∀ p f, c ≠ .transit p f) : ∃ p, ∀ s, exec c s = s.frame p f.kind f.flags f.payload (bodyOf f.kind) := by
  cases c
  case empty p => exact absurd rfl (he p)
  case transit p f => exact absurd rfl (ht p f)
  all_goals first
    | (cases h; done)
    | (cases h; exact ⟨_, fun _ => rfl⟩)

/-- The kinds of frames that manage the lines: they reach the blocks behind the ports, if at all, by an event named apart. -/
def lineKinds : List Byte :=
  [Kind.setLine, Kind.loadStations, Kind.loadPass, Kind.status, Kind.statusClear, Kind.restart]

/-- A property of the blocks behind the ports that every event keeps. -/
structure GarageInvariant (G : Garage → Prop) : Prop where
  /-- A cold start (R45). -/
  cold : G Garage.reset
  /-- A warm start (R46). -/
  warm : ∀ g, G g → G g.warm
  /-- The tick's own effects (R176). -/
  tick : ∀ g, G g → G g.tick
  /-- The expiry of a timer (R179). -/
  expiry : ∀ d e, G e.g → G (expires d e).g
  /-- The end of a MOVE_ORDER (R181). -/
  timer : ∀ g l n, G g → G (g.startMoveTimer l n)
  /-- A lift's station has answered (R120 ❶ ❸). -/
  answered : ∀ g l back accepted, G g → G (g.modLift l fun u => u.answered back accepted)
  /-- A lift's station falls silent, is removed, or its port is turned off (R120 ❷ to ❹). -/
  lost : ∀ g l, G g → G (g.loseLift l)
  /-- The work that an event sets off. -/
  settled : ∀ e, G e.g → G (settle e).g
  /-- A frame to the part that passes the gates. -/
  request : ∀ kind ∉ lineKinds, ∀ c pl (s : State), G s.garage → G (bodyOf kind c pl s).garage

/-- An operation of the block that keeps a property of the blocks behind the ports. -/
def GarageKeeps (G : Garage → Prop) (f : State → State) : Prop := ∀ s : State, G s.garage → G (f s).garage

section
variable {G : Garage → Prop} (inv : GarageInvariant G)
include inv

/-! ### Stations heard and lost, settings taking effect -/

theorem heard_garageKeeps (p : Port) (st : Station) (a : Bool) : GarageKeeps G fun s => s.heard p st a := by
  intro s h
  show G (s.heard p st a).garage
  rw [State.heard_garage_eq]
  unfold heardEv
  split <;> dsimp only <;> split
  · exact inv.answered _ _ _ _ h
  · exact h
  · exact inv.answered _ _ _ _ h
  · exact h

theorem chargeMiss_garageKeeps (p : Port) (st : Station) : GarageKeeps G fun s => s.chargeMiss p st := by
  intro s h
  show G (s.chargeMiss p st).garage
  unfold State.chargeMiss
  split
  · exact h
  · split
    · exact h
    · rw [State.run_garage]
      dsimp only
      split
      · exact inv.settled _ (inv.lost _ _ h)
      · exact h

theorem applyLine_garageKeeps (r : LineRequest) : GarageKeeps G fun s => s.applyLine r := by
  intro s h
  show G (s.applyLine r).garage
  unfold State.applyLine
  dsimp only
  split
  · exact h
  · split
    · split <;> exact h
    · split
      · exact h
      · exact inv.settled _ (inv.lost _ _ (inv.lost _ _ h))

theorem applyDue_garageKeeps (p : Port) : GarageKeeps G fun s => s.applyDue p := by
  have all : ∀ due : List LineRequest, GarageKeeps G fun s => due.foldl State.applyLine s := fun due => by
    induction due with
    | nil => exact fun _ h => h
    | cons r rest ih => exact fun s h => ih _ (applyLine_garageKeeps inv r s h)
  intro s h
  cases p
  · exact h
  · exact all s.line.lineDueG _ h

theorem lineRequestDue_garageKeeps (r : LineRequest) : GarageKeeps G fun s => s.lineRequestDue r := by
  intro s h
  show G (s.lineRequestDue r).garage
  unfold State.lineRequestDue
  split
  · exact h
  · exact applyLine_garageKeeps inv r s h

/-! ### The ends of exchanges and of frames -/

theorem warmStart_garageKeeps : GarageKeeps G State.warmStart := fun s h => by
  rw [State.warmStart_garage]
  exact inv.warm _ h

theorem finishExchange_garageKeeps (p : Port) (more : Bool) : GarageKeeps G fun s => s.finishExchange p more := by
  intro s h
  show G (s.finishExchange p more).garage
  unfold State.finishExchange
  dsimp only
  split
  · rw [(State.beginTurn_lineQuiet _ p).garage]
    exact applyDue_garageKeeps inv p _ h
  · exact h

theorem endTransmission_garageKeeps (p : Port) : GarageKeeps G fun s => s.endTransmission p := by
  intro s h
  show G (s.endTransmission p).garage
  unfold State.endTransmission
  split
  · exact h
  · rename_i q _
    rw [(State.sendNext_lineQuiet _ p).garage]
    refine applyDue_garageKeeps inv p _ ?_
    cases q.mark with
    | plain => exact h
    | restartReply => exact warmStart_garageKeeps inv (s.modPort p _) h
    | lineReply r => exact lineRequestDue_garageKeeps inv r (s.modPort p _) h
    | moveOrder l n => exact inv.timer _ l n h

theorem endExchange_garageKeeps (p : Port) {f : Station → State → State} (hf : ∀ st, GarageKeeps G (f st)) :
    GarageKeeps G fun s => s.endExchange p f := by
  intro s h
  show G (s.endExchange p f).garage
  unfold State.endExchange
  split
  · refine finishExchange_garageKeeps inv p false _ ?_
    split
    · exact hf _ s h
    · exact h
  · exact h

theorem discardAnswer_garageKeeps (p : Port) (st : Station) : GarageKeeps G fun s => s.discardAnswer p st := fun s h =>
  heard_garageKeeps inv p st false (s.tallyFault p) h

theorem dataFrame_garageKeeps (p : Port) (flags : Byte) (pl : List Byte) {f : Station → State → State}
    (hf : ∀ st, GarageKeeps G (f st)) : GarageKeeps G fun s => s.dataFrame p flags pl f := by
  intro s h
  show G (s.dataFrame p flags pl f).garage
  unfold State.dataFrame
  split
  · split
    · exact finishExchange_garageKeeps inv p false s h
    · split
      · exact finishExchange_garageKeeps inv p false _ (discardAnswer_garageKeeps inv p _ s h)
      · exact finishExchange_garageKeeps inv p _ _ (hf _ _ (heard_garageKeeps inv p _ true s h))
  · exact h

theorem breakLine_garageKeeps (p : Port) : GarageKeeps G fun s => s.breakLine p := by
  intro s h
  refine applyDue_garageKeeps inv p (s.lineBroken p) ?_
  show G (s.loseSending p).garage
  rw [State.loseSending_garage]
  split
  · exact inv.timer _ _ _ h
  · exact h

omit inv in
theorem route_garageKeeps (p : Port) (source : Nat) (f : Frame) : GarageKeeps G fun s => s.route p source f := by
  intro s h
  show G (s.route p source f).garage
  unfold State.route
  (repeat' split) <;> exact h

theorem expireAll_garageKeeps (ds : List Due) : GarageKeeps G fun s => s.expireAll ds := by
  induction ds with
  | nil => exact fun _ h => h
  | cons d rest ih =>
    intro s h
    refine ih (s.expire d).underHold ?_
    rw [(s.expire d).underHold_lineQuiet.garage]
    unfold State.expire
    split
    · exact inv.expiry d _ h
    · exact h

theorem tickExpiring_garageKeeps (d : Due) : GarageKeeps G (State.tickExpiring d) := by
  intro s h
  unfold State.tickExpiring
  split
  · exact expireAll_garageKeeps inv _ s.ticked (inv.tick _ h)
  · exact h

omit inv in
theorem pollNext_garageKeeps (p : Port) : GarageKeeps G fun s => s.pollNext p := by
  intro s h
  show G (s.pollNext p).garage
  unfold State.pollNext
  dsimp only
  split
  · split
    · exact h
    · split
      · exact h
      · rw [(State.beginTurn_lineQuiet _ p).garage]
        exact h
  · exact h

/-! ### Frames to the part -/

theorem setLineBody_garageKeeps (c : Caller) (pl : List Byte) : GarageKeeps G (setLineBody c pl) := by
  have taken : ∀ r, GarageKeeps G fun s => s.setLineTaken c r := fun r s h => by
    show G (s.setLineTaken c r).garage
    unfold State.setLineTaken
    dsimp only
    split
    · exact h
    · exact lineRequestDue_garageKeeps inv r (s.run _) h
  intro s h
  unfold setLineBody
  split
  · exact h
  · exact h
  · split
    · exact taken _ s h
    · split
      · exact h
      · split
        · exact h
        · exact taken _ s h

theorem loadStationsBody_garageKeeps (c : Caller) (pl : List Byte) : GarageKeeps G (loadStationsBody c pl) := by
  have unserved : ∀ old new l (e : Ev), G e.g → G (loseUnserved old new l e).g := fun old new l e h => by
    unfold loseUnserved
    split
    · split
      · exact h
      · exact inv.lost _ _ h
    · exact h
  intro s h
  unfold loadStationsBody
  dsimp only
  split
  · exact h
  · split
    · exact h
    · split
      · exact h
      · rw [State.run_garage]
        split
        · exact h
        · exact inv.settled _ (unserved _ _ _ _ (unserved _ _ _ _ h))

theorem bodyOf_garageKeeps (kind : Byte) (c : Caller) (pl : List Byte) : GarageKeeps G (bodyOf kind c pl) := by
  intro s h
  by_cases hk : kind ∈ lineKinds
  · simp only [lineKinds, List.mem_cons, List.not_mem_nil, or_false] at hk
    rcases hk with rfl | rfl | rfl | rfl | rfl | rfl
    · exact setLineBody_garageKeeps inv c pl s h
    · exact loadStationsBody_garageKeeps inv c pl s h
    · show G (loadPassBody c pl s).garage
      unfold loadPassBody
      split <;> exact h
    · exact h
    · exact h
    · show G (restartBody c pl s).garage
      unfold restartBody
      split
      · exact h
      · exact warmStart_garageKeeps inv s h
  · exact inv.request kind hk c pl s h

theorem judge_garageKeeps (c : Caller) (kind : Byte) (pl : List Byte) :
    GarageKeeps G fun s => s.judge c kind pl (bodyOf kind) := by
  intro s h
  show G (s.judge c kind pl (bodyOf kind)).garage
  unfold State.judge
  split
  · exact h
  · split
    · exact h
    · split
      · rw [State.run_garage]
        unfold malformed
        split <;> exact h
      · exact bodyOf_garageKeeps inv kind c pl s h

/-! ### Commands -/

omit inv in
theorem react_garageKeeps {f : State → State} (hf : GarageKeeps G f) {s t : State} (h : G s.garage)
    (ht : s.react f = .next t) : G t.garage := by
  unfold State.react at ht
  cases ht
  split
  · rw [(f s).underHold_lineQuiet.garage]
    exact hf s h
  · exact h

theorem frame_garageKeeps {p : Port} {kind flags : Byte} {pl : List Byte} {s t : State} (h : G s.garage)
    (ht : s.frame p kind flags pl (bodyOf kind) = .next t) : G t.garage :=
  react_garageKeeps (dataFrame_garageKeeps inv p flags pl fun st => judge_garageKeeps inv ⟨p, st.number, st.role⟩ kind pl) h ht

theorem powerUp_garageKeeps {b : Bool} {s t : State} (h : G s.garage) (ht : execPowerUp b s = .next t) : G t.garage := by
  unfold execPowerUp at ht
  split at ht
  · cases ht; exact h
  · split at ht <;> cases ht
    · rw [(State.underHold_lineQuiet _).garage]
      exact warmStart_garageKeeps inv { s with powered := true, storeHeld := true } h
    · exact inv.cold

theorem answer_garageKeeps {c : Instr} {f : Frame} (hf : answerFrame 0 c = some f) (he : ∀ p, c ≠ .empty p)
    (hc : ∀ p f, c ≠ .transit p f) {s t : State} (h : G s.garage) (ht : exec c s = .next t) : G t.garage := by
  obtain ⟨p, hx⟩ := exec_answerFrame hf he hc
  exact frame_garageKeeps inv h ((hx s).symm.trans ht)

/-- Every command keeps every invariant of the blocks behind the ports. -/
theorem exec_garageKeeps (c : Instr) {s t : State} (h : G s.garage) (ht : exec c s = .next t) : G t.garage := by
  cases c
  case powerUp b => exact powerUp_garageKeeps inv h ht
  case powerLoss b => cases ht; exact h
  case warmStart => exact react_garageKeeps (warmStart_garageKeeps inv) h ht
  case tick => exact react_garageKeeps (fun s h => expireAll_garageKeeps inv _ s.ticked (inv.tick _ h)) h ht
  case moveTimerExpiry l => exact react_garageKeeps (tickExpiring_garageKeeps inv _) h ht
  case pickupTimerExpiry r => exact react_garageKeeps (tickExpiring_garageKeeps inv _) h ht
  case holdTimerExpiry n => exact react_garageKeeps (tickExpiring_garageKeeps inv _) h ht
  case poll p => exact react_garageKeeps (pollNext_garageKeeps p) h ht
  case miss p => exact react_garageKeeps (endExchange_garageKeeps inv p (chargeMiss_garageKeeps inv p)) h ht
  case empty p =>
    exact react_garageKeeps (endExchange_garageKeeps inv p fun st => heard_garageKeeps inv p st true) h ht
  case frameDiscarded p => exact react_garageKeeps (endExchange_garageKeeps inv p (discardAnswer_garageKeeps inv p)) h ht
  case idleTimeEnd p => exact react_garageKeeps (endExchange_garageKeeps inv p (discardAnswer_garageKeeps inv p)) h ht
  case sourceMismatch p =>
    exact react_garageKeeps (endExchange_garageKeeps inv p fun st s h =>
      chargeMiss_garageKeeps inv p st (s.tallyFault p) h) h ht
  case lineBreak p =>
    change execLineBreak p s = .next t at ht
    unfold execLineBreak at ht
    refine react_garageKeeps ?_ h ht
    intro s h
    dsimp only
    split
    · exact breakLine_garageKeeps inv p s h
    · exact h
  case lineReturn p =>
    change execLineReturn p s = .next t at ht
    unfold execLineReturn at ht
    refine react_garageKeeps ?_ h ht
    intro s h
    dsimp only
    split
    · rw [(State.beginTurn_lineQuiet _ p).garage]
      exact h
    · exact h
  case frameSent p => exact react_garageKeeps (endTransmission_garageKeeps inv p) h ht
  case moveOrderSent l =>
    change execMoveOrderSent l s = .next t at ht
    unfold execMoveOrderSent at ht
    refine react_garageKeeps ?_ h ht
    intro s h
    dsimp only
    split
    · split
      · exact endTransmission_garageKeeps inv .g s h
      · exact h
    · exact h
  case lineSettingsTakeEffect p =>
    have due : ∀ (b : Bool) (s : State), G s.garage → G (if b then s.applyDue .g else s).garage := fun b s h => by
      split
      · exact applyDue_garageKeeps inv .g s h
      · exact h
    change execLineSettingsTakeEffect p s = .next t at ht
    unfold execLineSettingsTakeEffect at ht
    refine react_garageKeeps ?_ h ht
    intro s h
    dsimp only
    split
    · split
      · exact endTransmission_garageKeeps inv .s s h
      · exact due _ s h
    · exact due _ s h
  case transit p f =>
    exact react_garageKeeps (dataFrame_garageKeeps inv p f.flags f.payload fun st => route_garageKeeps p st.number f) h ht
  all_goals exact answer_garageKeeps inv rfl (fun _ e => by cases e) (fun _ _ e => by cases e) h ht

/-- Every step keeps every invariant of the blocks behind the ports. -/
theorem step_garageKeeps {s t : State} (h : G s.garage) (ht : step s = .next t) : G t.garage := by
  unfold step at ht
  split at ht
  · cases ht; exact h
  · rename_i c rest _
    exact exec_garageKeeps inv c (s := { s with pending := rest }) h ht

end
end Sys2Proof.Machine

namespace Sys2Proof.Machine

/-! ### The settings of the garage -/

/-- Settings and counts of time are of the fixed part, so what leaves that part alone leaves them in range. -/
theorem Garage.SettingsInRange.of_fixed {a b : Garage} (h : a.SettingsInRange) (e : b.fixed = a.fixed) :
    b.SettingsInRange := by
  simp only [Garage.fixed, Fixed.mk.injEq] at e
  obtain ⟨_, _, _, weights, limits, cabinet, _, _, _, floor, podium, park, laneA, laneB, seconds, minute, inMinute, move,
    pickup, hold, _⟩ := e
  exact ⟨weights ▸ h.weights, limits ▸ h.limits, floor ▸ h.floor, podium ▸ h.podium, park ▸ h.park, move ▸ h.move,
    pickup ▸ h.pickup, hold ▸ h.hold, laneA ▸ h.laneA, laneB ▸ h.laneB, cabinet ▸ h.cabinet, seconds ▸ h.seconds,
    minute ▸ h.minute, inMinute ▸ h.inMinute⟩

theorem Garage.SettingsInRange.warm {g : Garage} (h : g.SettingsInRange) : g.warm.SettingsInRange := by
  rw [Garage.warm_eq]
  exact { h with inMinute := Nat.zero_le _ }

theorem LiftUnit.tick_laneCapacity (u : LiftUnit) (measuring : Bool) : (u.tick measuring).laneCapacity = u.laneCapacity := by
  unfold LiftUnit.tick
  rfl

/-- R176, R177: both counts of time stand at their last value, and the seconds of a minute run from 0 to 59. -/
theorem Garage.SettingsInRange.tick {g : Garage} (h : g.SettingsInRange) : g.tick.SettingsInRange :=
  { h with
    laneA := (g.liftA.tick_laneCapacity g.measuring).symm ▸ h.laneA
    laneB := (g.liftB.tick_laneCapacity g.measuring).symm ▸ h.laneB
    seconds := Nat.min_le_right _ _
    minute := by
      show (if g.secsIntoMinute + 1 = 60 then min (g.minute + 1) Config.max32 else g.minute) ≤ 4294967295
      split
      · exact Nat.min_le_right _ _
      · exact h.minute
    inMinute := by
      show (if g.secsIntoMinute + 1 = 60 then 0 else g.secsIntoMinute + 1) ≤ 59
      have := h.inMinute
      split <;> omega }

/-! ### What each SET_ request leaves in range -/

theorem le_clamp {lo hi : Nat} (h : lo ≤ hi) (v : Nat) : lo ≤ clamp lo hi v ∧ clamp lo hi v ≤ hi := by
  rw [clamp_eq_min h]
  omega

theorem u8_le (pl : List Byte) (i : Nat) : u8 pl i ≤ 255 := Nat.le_of_lt_succ (BitVec.isLt _)

theorem u32_le (pl : List Byte) (i : Nat) : u32 pl i ≤ 4294967295 := by
  have h0 := u8_le pl i
  have h1 := u8_le pl (i + 1)
  have h2 := u8_le pl (i + 2)
  have h3 := u8_le pl (i + 2 + 1)
  unfold u32 u16
  omega

theorem weightsUsed_inRange (pl : List Byte) : (weightsUsed pl).InRange :=
  ⟨Nat.min_le_right _ _, Nat.min_le_right _ _, Nat.min_le_right _ _, Nat.min_le_right _ _, Nat.min_le_right _ _,
    Nat.min_le_right _ _⟩

/-- R61 ❶: a SET_LIMITS with no field at fault carries two thresholds in range, the first below the second. -/
theorem limitsFault_none {pl : List Byte} :
    limitsFault pl = none ↔ 1 ≤ u16 pl 2 ∧ u16 pl 2 < u16 pl 4 ∧ u16 pl 4 ≤ 2880 := by
  unfold limitsFault badThreshold
  simp only [Bool.or_eq_true, decide_eq_true_eq]
  (repeat' split) <;> simp <;> omega

theorem limitsUsed_inRange {pl : List Byte} (h : limitsFault pl = none) : (limitsUsed pl).InRange := by
  obtain ⟨least, order, most⟩ := limitsFault_none.mp h
  exact ⟨le_clamp (by decide) _, least, order, most, Nat.min_le_right _ _⟩

theorem cabinetFault_size {pl : List Byte} (h : cabinetFault pl = none) : 1 ≤ u16 pl 0 ∧ u16 pl 0 ≤ 320 := by
  unfold cabinetFault at h
  split at h
  · cases h
  · omega

section
variable (c : Caller) (pl : List Byte) {e : Ev} (h : e.g.SettingsInRange)
include h

theorem setLanes_inRange : (setLanes c pl e).g.SettingsInRange :=
  { h with laneA := le_clamp (by decide) _, laneB := le_clamp (by decide) _ }

theorem setWeights_inRange : (setWeights c pl e).g.SettingsInRange :=
  { h with weights := weightsUsed_inRange pl }

theorem setLimits_inRange : (setLimits c pl e).g.SettingsInRange := by
  unfold setLimits
  split
  · exact h
  · rename_i hf
    exact { h with limits := limitsUsed_inRange hf }

theorem setFloor_inRange : (setFloor c pl e).g.SettingsInRange :=
  { h with floor := Nat.min_le_right _ _, podium := le_clamp (by decide) _, park := Nat.min_le_right _ _ }

theorem setTimes_inRange : (setTimes c pl e).g.SettingsInRange :=
  { h with move := le_clamp (by decide) _, pickup := le_clamp (by decide) _, hold := le_clamp (by decide) _ }

theorem setClock_inRange : (setClock c pl e).g.SettingsInRange := by
  show (e.g.setClock (flag8 pl 0) (u32 pl 1)).SettingsInRange
  unfold Garage.setClock
  split
  · exact { h with minute := u32_le pl 1, inMinute := Nat.zero_le _ }
  · exact h

theorem setMeasure_inRange : (setMeasure c pl e).g.SettingsInRange := by
  unfold setMeasure
  split
  · exact h
  · exact { h with }

theorem loadCabinet_inRange : (loadCabinet c pl e).g.SettingsInRange := by
  unfold loadCabinet
  split
  · exact h
  · rename_i hf
    exact { h with cabinet := (cabinetFault_size hf).2 }

theorem enterService_inRange (stations : List Station) : (enterService stations c e).g.SettingsInRange := by
  unfold enterService
  split
  · exact h
  · exact { h with }

theorem leaveService_inRange : (leaveService c pl e).g.SettingsInRange := by
  unfold leaveService
  split
  · exact { h with }
  · exact h

theorem loadReply_inRange {α : Type} (kind : Byte) (r : Except (Result × Nat) α) (apply : α → Garage → Garage)
    (ha : ∀ a, (apply a e.g).SettingsInRange) : (loadReply c kind pl r apply e).g.SettingsInRange := by
  unfold loadReply
  split
  · exact h
  · exact ha _

end

/-! ### Every kind of frame -/

/-- A body that leaves the settings in range when they were. -/
def BodyInRange (b : Body) : Prop := ∀ c pl (s : State), s.garage.SettingsInRange → (b c pl s).garage.SettingsInRange

theorem evBody_inRange {f : Caller → List Byte → Ev → Ev}
    (hf : ∀ c pl {e : Ev}, e.g.SettingsInRange → (f c pl e).g.SettingsInRange) : BodyInRange (evBody f) :=
  fun c pl _ h => hf c pl h

theorem workBody_inRange {f : Caller → List Byte → Ev → Ev}
    (hf : ∀ c pl {e : Ev}, e.g.SettingsInRange → (f c pl e).g.SettingsInRange) : BodyInRange (workBody f) :=
  fun c pl _ h => (hf c pl h).of_fixed (settle_fixed _)

theorem evBody_inRange_of_fixed {f : Caller → List Byte → Ev → Ev} (hf : ∀ c pl e, (f c pl e).g.fixed = e.g.fixed) :
    BodyInRange (evBody f) :=
  evBody_inRange fun c pl e h => h.of_fixed (hf c pl e)

theorem workBody_inRange_of_fixed {f : Caller → List Byte → Ev → Ev} (hf : ∀ c pl e, (f c pl e).g.fixed = e.g.fixed) :
    BodyInRange (workBody f) :=
  workBody_inRange fun c pl e h => h.of_fixed (hf c pl e)

theorem liftBody_inRange {f : Lift → List Byte → Ev → Ev} (hf : ∀ l pl e, (f l pl e).g.fixed = e.g.fixed) :
    BodyInRange (liftBody f) :=
  workBody_inRange fun c pl e h => by
    split
    · exact h.of_fixed (hf _ pl e)
    · exact h

/-- A request that manages no line leaves the settings in range. -/
theorem bodyOf_inRange {kind : Byte} (hk : kind ∉ lineKinds) : BodyInRange (bodyOf kind) := by
  have line : ∀ k ∈ lineKinds, kind.toNat = k.toNat → False := fun k hm e => hk (BitVec.eq_of_toNat_eq e ▸ hm)
  unfold bodyOf
  split
  case h_1 => exact workBody_inRange_of_fixed arrive_fixed
  case h_2 => exact workBody_inRange_of_fixed retrieve_fixed
  case h_3 => exact workBody_inRange_of_fixed resume_fixed
  case h_4 => exact workBody_inRange_of_fixed cancel_fixed
  case h_5 => exact workBody_inRange_of_fixed handover_fixed
  case h_6 => exact workBody_inRange_of_fixed rePark_fixed
  case h_7 => exact evBody_inRange_of_fixed fun c pl e => congrArg _ (queryTicket_g c pl e)
  case h_8 => exact evBody_inRange_of_fixed keyIn_fixed
  case h_9 => exact evBody_inRange_of_fixed keyOut_fixed
  case h_10 => exact evBody_inRange_of_fixed runnerOn_fixed
  case h_11 => exact evBody_inRange_of_fixed runnerOff_fixed
  case h_12 => exact workBody_inRange_of_fixed pickup_fixed
  case h_13 => exact liftBody_inRange liftStatus_fixed
  case h_14 => exact liftBody_inRange carPresent_fixed
  case h_15 => exact liftBody_inRange moveDone_fixed
  case h_16 => exact liftBody_inRange moveFault_fixed
  case h_17 => exact liftBody_inRange moveRefused_fixed
  case h_18 e => exact (line Kind.setLine (by decide) e).elim
  case h_19 e => exact (line Kind.loadStations (by decide) e).elim
  case h_20 e => exact (line Kind.loadPass (by decide) e).elim
  case h_21 e => exact (line Kind.status (by decide) e).elim
  case h_22 e => exact (line Kind.statusClear (by decide) e).elim
  case h_23 e => exact (line Kind.restart (by decide) e).elim
  case h_24 => exact evBody_inRange fun c pl e h => loadReply_inRange c pl h _ _ _ fun _ => { h with }
  case h_25 => exact evBody_inRange fun c pl e h => loadReply_inRange c pl h _ _ _ fun _ => { h with }
  case h_26 => exact evBody_inRange fun c pl e h => loadReply_inRange c pl h _ _ _ fun _ => { h with }
  case h_27 => exact evBody_inRange setLanes_inRange
  case h_28 => exact evBody_inRange loadCabinet_inRange
  case h_29 => exact fun c _ s h => enterService_inRange c (e := ⟨s.garage, []⟩) h s.line.g.stations
  case h_30 => exact evBody_inRange leaveService_inRange
  case h_31 => exact workBody_inRange_of_fixed bayService_fixed
  case h_32 => exact evBody_inRange_of_fixed fun c pl e => congrArg _ (queryBay_g c pl e)
  case h_33 => exact evBody_inRange_of_fixed hookService_fixed
  case h_34 => exact evBody_inRange setWeights_inRange
  case h_35 => exact evBody_inRange setLimits_inRange
  case h_36 => exact workBody_inRange setFloor_inRange
  case h_37 => exact evBody_inRange setTimes_inRange
  case h_38 => exact evBody_inRange setClock_inRange
  case h_39 => exact evBody_inRange setMeasure_inRange
  case h_40 =>
    exact fun c pl s h => h.of_fixed ((settle_fixed _).trans (liftService_fixed s.line.hears c pl ⟨s.garage, []⟩))
  case h_41 => exact workBody_inRange_of_fixed liftResolve_fixed
  case h_42 => exact evBody_inRange_of_fixed liftReport_fixed
  case h_43 => exact workBody_inRange_of_fixed convoyLoad_fixed
  case h_44 => exact workBody_inRange_of_fixed convoyStart_fixed
  case h_45 => exact workBody_inRange_of_fixed convoyStop_fixed
  case h_46 => exact evBody_inRange_of_fixed fun c pl e => congrArg _ (convoyQuery_g c pl e)
  case h_47 => exact evBody_inRange fun _ _ _ h => h

theorem Garage.settingsInRange_invariant : GarageInvariant Garage.SettingsInRange where
  cold := .reset
  warm _ h := h.warm
  tick _ h := h.tick
  expiry d e h := h.of_fixed (expires_fixed d e)
  timer g l n h := h.of_fixed (g.startMoveTimer_fixed l n)
  answered g l back accepted h := h.of_fixed (g.answered_fixed l back accepted)
  lost g l h := h.of_fixed (g.loseLift_fixed l)
  settled e h := h.of_fixed (settle_fixed e)
  request _ hk := bodyOf_inRange hk

/-- Settles O7: the ranges are an invariant of the blocks behind the ports. -/
theorem settingsStayInRange : Obligations.SettingsStayInRange :=
  fun _ _ h ht => step_garageKeeps Garage.settingsInRange_invariant h ht

/-! ### The supply (R45) -/

theorem exec_powerUp_powered {s : State} (h : s.powered = true) (b : Bool) : exec (.powerUp b) s = .next s :=
  if_pos h

theorem exec_powerUp_held {s : State} (hp : s.powered = false) (hh : s.storeHeld = true) :
    exec (.powerUp true) s = exec .warmStart { s with powered := true } := by
  obtain ⟨line, garage, pending, powered, held⟩ := s
  cases hp
  cases hh
  have on (s : State) (h : s.powered = true) : exec .warmStart s = .next s.warmStart.underHold := by
    show Host.Outcome.next _ = _
    rw [if_pos h]
  rw [on _ rfl]
  rfl

theorem exec_powerUp_lost {s : State} {b : Bool} (hp : s.powered = false) (h : s.storeHeld = false ∨ b = false) :
    exec (.powerUp b) s = .next s.coldStart := by
  show execPowerUp b s = _
  unfold execPowerUp
  rcases h with h | h <;> simp [hp, h]

/-- Settles O50: one case per state of the supply and of the store. -/
theorem powerLostAndRestored : Obligations.PowerLostAndRestored := fun _ _ agrees =>
  ⟨rfl, fun hp => exec_powerUp_powered hp agrees, fun hp hh ha => ha ▸ exec_powerUp_held hp hh, exec_powerUp_lost⟩

end Sys2Proof.Machine

namespace Sys2Proof.Machine

/-! ### The six SET_ requests (R33, R60, R61, R108, R180, R184) -/

/-- A request of fixed length, with no code to check, that both modes take. -/
theorem Passes.of_both {s : State} {kind : Byte} {pl : List Byte} {n : Nat} (h : pl.length = n)
    (hm : (serviceKinds ++ commissioningKinds).contains kind = false) (hc : countedLength kind pl = none)
    (hf : fixedLength kind = n)
    (hk : (kind == Kind.liftStatus || kind == Kind.moveFault || kind == Kind.moveRefused) = false) (hn : n ≤ 48) :
    Passes s kind pl :=
  .of_length h (takenIn_both _ hm) hc hf hk hn

/-- A request of fixed length, with no code to check, that only COMMISSIONING takes. -/
theorem Passes.of_commissioning {s : State} {kind : Byte} {pl : List Byte} {n : Nat} (h : pl.length = n)
    (hg : s.garage.mode = .commissioning) (hm : serviceKinds.contains kind = false) (hc : countedLength kind pl = none)
    (hf : fixedLength kind = n)
    (hk : (kind == Kind.liftStatus || kind == Kind.moveFault || kind == Kind.moveRefused) = false) (hn : n ≤ 48) :
    Passes s kind pl :=
  .of_length h (by rw [hg]; unfold takenIn; rw [hm]; rfl) hc hf hk hn

theorem setLimits_ok {pl : List Byte} (h : limitsFault pl = none) (c : Caller) (e : Ev) :
    setLimits c pl e = (e.modG fun g => { g with limits := limitsUsed pl }).reply c Kind.setLimits .taken
      (w16 (limitsUsed pl).defaultStay ++ w16 (limitsUsed pl).t1 ++ w16 (limitsUsed pl).t2
        ++ w8 (limitsUsed pl).overflowCapacity) := by
  unfold setLimits
  rw [h]

theorem setLimits_fault {pl : List Byte} {item : Nat} (h : limitsFault pl = some item) (c : Caller) (e : Ev) :
    setLimits c pl e = e.badRequest c Kind.setLimits item := by
  unfold setLimits
  rw [h]

theorem badThreshold_iff (t : Nat) : badThreshold t = true ↔ t < 1 ∨ 2880 < t := by
  simp [badThreshold]

/-- R61 ❶: the thresholds are judged before their order, the first before the second (log 21). -/
theorem limitsFault_low {pl : List Byte} (h : u16 pl 2 < 1 ∨ 2880 < u16 pl 2) : limitsFault pl = some 2 := by
  unfold limitsFault
  rw [if_pos ((badThreshold_iff _).mpr h)]

theorem limitsFault_high {pl : List Byte} (h1 : 1 ≤ u16 pl 2) (h2 : u16 pl 2 ≤ 2880)
    (h : u16 pl 4 < 1 ∨ 2880 < u16 pl 4) : limitsFault pl = some 4 := by
  unfold limitsFault
  rw [if_neg (by rw [badThreshold_iff]; omega), if_pos ((badThreshold_iff _).mpr h)]

theorem limitsFault_order {pl : List Byte} (h : u16 pl 4 ≤ u16 pl 2) (h1 : 1 ≤ u16 pl 4) (h2 : u16 pl 2 ≤ 2880) :
    limitsFault pl = some 2 := by
  unfold limitsFault
  rw [if_neg (by rw [badThreshold_iff]; omega), if_neg (by rw [badThreshold_iff]; omega), if_pos h]

section
variable {s : State} {st : Station} (flags : Byte) {pl : List Byte} (ask : AskedBy s st .office)
include ask

theorem setWeights_replies (hl : pl.length = 6) :
    Replies (exec (.setWeights .s flags pl) s) s st { s.garage with weights := weightsUsed pl } Kind.setWeights .taken
      (w8 (min (u8 pl 0) 15) ++ w8 (min (u8 pl 1) 15) ++ w8 (min (u8 pl 2) 15) ++ w8 (min (u8 pl 3) 15)
        ++ w8 (min (u8 pl 4) 15) ++ w8 (min (u8 pl 5) 15)) :=
  Replies.of_event ask rfl (by decide) (.of_both hl (by decide) rfl rfl (by decide) (by decide)) (more := []) rfl

theorem setLimits_replies (hl : pl.length = 7) (h : limitsFault pl = none) :
    Replies (exec (.setLimits .s flags pl) s) s st
      { s.garage with limits := ⟨min (max (u16 pl 0) 30) 1440, u16 pl 2, u16 pl 4, min (u8 pl 6) 64⟩ } Kind.setLimits .taken
      (w16 (min (max (u16 pl 0) 30) 1440) ++ w16 (u16 pl 2) ++ w16 (u16 pl 4) ++ w8 (min (u8 pl 6) 64)) := by
  rw [← clamp_eq_min (by decide)]
  exact Replies.of_event ask rfl (by decide) (.of_both hl (by decide) rfl rfl (by decide) (by decide)) (more := [])
    (setLimits_ok h _ _)

theorem setLimits_refuses (hl : pl.length = 7) {item : Nat} (h : limitsFault pl = some item) :
    Replies (exec (.setLimits .s flags pl) s) s st s.garage Kind.setLimits .badRequest (w8 item) :=
  Replies.of_event ask rfl (by decide) (.of_both hl (by decide) rfl rfl (by decide) (by decide)) (more := [])
    (setLimits_fault h _ _)

theorem setFloor_replies (hl : pl.length = 3) :
    Replies (exec (.setFloor .s flags pl) s) s st
      (Garage.afterwards { s.garage with
        floor := min (u8 pl 0) 7, podiumLimit := min (max (u8 pl 1) 1) 16, parkLevel := min (u8 pl 2) 7 }) Kind.setFloor
      .taken (w8 (min (u8 pl 0) 7) ++ w8 (min (max (u8 pl 1) 1) 16) ++ w8 (min (u8 pl 2) 7)) := by
  rw [← clamp_eq_min (by decide)]
  exact Replies.of_work ask rfl (by decide) (.of_both hl (by decide) rfl rfl (by decide) (by decide)) (more := []) rfl

theorem setTimes_replies (hl : pl.length = 6) :
    Replies (exec (.setTimes .s flags pl) s) s st
      { s.garage with
        movePeriod := min (max (u16 pl 0) 30) 900, pickupPeriod := min (max (u16 pl 2) 30) 1800
        holdPeriod := min (max (u16 pl 4) 60) 7200 } Kind.setTimes .taken
      (w16 (min (max (u16 pl 0) 30) 900) ++ w16 (min (max (u16 pl 2) 30) 1800) ++ w16 (min (max (u16 pl 4) 60) 7200)) := by
  rw [← clamp_eq_min (by decide), ← clamp_eq_min (by decide), ← clamp_eq_min (by decide)]
  exact Replies.of_event ask rfl (by decide) (.of_both hl (by decide) rfl rfl (by decide) (by decide)) (more := []) rfl

theorem setLanes_replies (hl : pl.length = 2) (hm : s.garage.mode = .commissioning) :
    Replies (exec (.setLanes .s flags pl) s) s st
      { s.garage with
        liftA := { s.garage.liftA with laneCapacity := min (max (u8 pl 0) 1) 4 }
        liftB := { s.garage.liftB with laneCapacity := min (max (u8 pl 1) 1) 4 } } Kind.setLanes .taken
      (w8 (min (max (u8 pl 0) 1) 4) ++ w8 (min (max (u8 pl 1) 1) 4)) := by
  rw [← clamp_eq_min (by decide), ← clamp_eq_min (by decide)]
  exact Replies.of_event ask rfl (by decide) (.of_commissioning hl hm (by decide) rfl rfl (by decide) (by decide))
    (more := []) rfl

theorem setMeasure_replies (hl : pl.length = 1) (h : u8 pl 0 ≤ 1) :
    Replies (exec (.setMeasure .s flags pl) s) s st { s.garage with measuring := decide (u8 pl 0 = 1) } Kind.setMeasure
      .taken (w8 (u8 pl 0)) :=
  Replies.of_event ask rfl (by decide) (.of_both hl (by decide) rfl rfl (by decide) (by decide)) (more := [])
    (if_neg (Nat.not_lt.mpr h))

theorem setMeasure_refuses (hl : pl.length = 1) (h : 1 < u8 pl 0) :
    Replies (exec (.setMeasure .s flags pl) s) s st s.garage Kind.setMeasure .badRequest [0] :=
  Replies.of_event ask rfl (by decide) (.of_both hl (by decide) rfl rfl (by decide) (by decide)) (more := []) (if_pos h)

end

/-- Settles O35: each request by its own lemma, SET_LIMITS by its first field at fault. -/
theorem settingsSet : Obligations.SettingsSet := by
  intro s st flags pl ask
  dsimp only
  refine ⟨setWeights_replies flags ask, fun hl => ⟨?_, ?_, ?_, ?_⟩, setFloor_replies flags ask, setTimes_replies flags ask,
    setLanes_replies flags ask, fun hl => ⟨setMeasure_replies flags ask hl, setMeasure_refuses flags ask hl⟩⟩
  · exact fun least order most => setLimits_replies flags ask hl (limitsFault_none.mpr ⟨least, order, most⟩)
  · exact fun h => setLimits_refuses flags ask hl (limitsFault_low h)
  · exact fun h1 h2 h => setLimits_refuses flags ask hl (limitsFault_high h1 h2 h)
  · exact fun h h1 h2 => setLimits_refuses flags ask hl (limitsFault_order h h1 h2)

end Sys2Proof.Machine

namespace Sys2Proof.Machine

/-! ### The load requests (R35 to R37) -/

theorem zoneEntry_ok {pl : List Byte} {off : Nat} (h : ¬ (7 < u8 pl off ∨ (u8 pl (off + 1) = 0 ∧ 1 < u8 pl (off + 2))))
    (t : Table Zone) : zoneEntry pl off t = .ok
      (if u8 pl (off + 1) ≠ 0 then t.remove (u8 pl off)
      else t.put (u8 pl off) ⟨if u8 pl (off + 2) = 0 then .a else .b, u8 pl (off + 3) % 4, u8 pl (off + 4) % 16⟩) := by
  unfold zoneEntry
  dsimp only
  rw [if_neg (by omega)]
  by_cases hf : u8 pl (off + 1) = 0
  · obtain hl | hl : u8 pl (off + 2) = 0 ∨ u8 pl (off + 2) = 1 := by omega
    · simp [flag8, hf, hl, liftOf, low8]
    · simp [flag8, hf, hl, liftOf, low8]
  · simp [flag8, hf]

theorem zoneEntry_error {pl : List Byte} {off : Nat} (h : 7 < u8 pl off ∨ (u8 pl (off + 1) = 0 ∧ 1 < u8 pl (off + 2)))
    (t : Table Zone) : zoneEntry pl off t = .error .badRequest := by
  unfold zoneEntry
  dsimp only
  split
  · rfl
  · obtain ⟨hf, hl⟩ : u8 pl (off + 1) = 0 ∧ 1 < u8 pl (off + 2) := by omega
    simp [flag8, hf, liftOf_none hl]

theorem stackEntry_ok {pl : List Byte} {off : Nat}
    (h : ¬ (127 < u8 pl off ∨ (u8 pl (off + 1) = 0 ∧ (7 < u8 pl (off + 2) ∨ u8 pl (off + 3) < 1 ∨ 3 < u8 pl (off + 3)))))
    (t : Table Stack) : stackEntry pl off t = .ok
      (if u8 pl (off + 1) ≠ 0 then t.remove (u8 pl off) else t.put (u8 pl off) ⟨u8 pl (off + 2), u8 pl (off + 3)⟩) := by
  unfold stackEntry
  dsimp only
  rw [if_neg (by omega)]
  by_cases hf : u8 pl (off + 1) = 0
  · rw [if_neg (by simp [flag8, hf]), if_neg (by omega), if_neg (by omega), if_neg (by simp [hf])]
  · rw [if_pos (by simp [flag8, hf]), if_pos hf]

theorem stackEntry_error {pl : List Byte} {off : Nat}
    (h : 127 < u8 pl off ∨ (u8 pl (off + 1) = 0 ∧ (7 < u8 pl (off + 2) ∨ u8 pl (off + 3) < 1 ∨ 3 < u8 pl (off + 3))))
    (t : Table Stack) : stackEntry pl off t = .error .badRequest := by
  unfold stackEntry
  dsimp only
  split
  · rfl
  · obtain ⟨hf, hb⟩ : u8 pl (off + 1) = 0 ∧ (7 < u8 pl (off + 2) ∨ u8 pl (off + 3) < 1 ∨ 3 < u8 pl (off + 3)) := by omega
    rw [if_neg (by simp [flag8, hf])]
    split
    · rfl
    · rw [if_pos (by omega)]

/-- What R37 ❷ to ❹ refuse in the entry of a bay: a bad stack, position or two-bit field of one that is not removed. -/
def BayEntryBad (pl : List Byte) (off : Nat) : Prop :=
  u8 pl (off + 3) % 2 = 0 ∧ (127 < u8 pl (off + 1) ∨ u8 pl (off + 2) < 1 ∨ 3 < u8 pl (off + 2)
    ∨ 1 < u8 pl (off + 3) / 2 % 4 ∨ 1 < u8 pl (off + 3) / 8 % 4 ∨ 1 < u8 pl (off + 3) / 32 % 4)

theorem bit8_zero_iff (pl : List Byte) (i : Nat) : bit8 pl i 0 = true ↔ u8 pl i % 2 = 1 := by
  show (u8 pl i).testBit 0 = true ↔ _
  rw [Nat.testBit_zero, decide_eq_true_eq]

theorem bayEntry_ok {pl : List Byte} {off : Nat} (h : ¬ BayEntryBad pl off) (t : Table Bay) : bayEntry pl off t = .ok
    (if u8 pl (off + 3) % 2 = 1 then t.remove (u8 pl off)
    else t.put (u8 pl off) ⟨u8 pl (off + 1), u8 pl (off + 2), decide (u8 pl (off + 3) / 2 % 4 = 1),
      decide (u8 pl (off + 3) / 8 % 4 = 1), decide (u8 pl (off + 3) / 32 % 4 = 1), .inService, .free⟩) := by
  unfold BayEntryBad at h
  unfold bayEntry
  dsimp only
  by_cases hr : u8 pl (off + 3) % 2 = 1
  · rw [if_pos ((bit8_zero_iff _ _).mpr hr), if_pos hr]
  · rw [if_neg (by rwa [bit8_zero_iff]), if_neg (by omega), if_neg (by omega), if_neg (by simp only [attrField]; omega),
      if_neg hr]
    rfl

theorem bayEntry_error {pl : List Byte} {off : Nat} (h : BayEntryBad pl off) (t : Table Bay) :
    bayEntry pl off t = .error .badRequest := by
  obtain ⟨hr, hb⟩ := h
  unfold bayEntry
  dsimp only
  rw [if_neg (by rw [bit8_zero_iff]; omega)]
  split
  · rfl
  · split
    · rfl
    · rw [if_pos (by simp only [attrField]; omega)]

/-- R35 ❶: a count outside 1 to 8 is at fault at position 0. -/
theorem loadEntries_count {α : Type} {f : Nat → α → Except Result α} {size : Nat} {pl : List Byte}
    (h : u8 pl 0 < 1 ∨ 8 < u8 pl 0) (a : α) : loadEntries f size pl a = .error (.badRequest, 0) :=
  if_pos h

section
variable {α : Type} {f : Nat → α → Except Result α} {size : Nat} {pl : List Byte} {bad : Nat → Prop} {put : α → Nat → α}
  (h1 : 1 ≤ u8 pl 0) (h8 : u8 pl 0 ≤ 8) (good : ∀ i t, ¬ bad i → f (1 + size * i) t = .ok (put t i))
include h1 h8 good

/-- R35: the entries in frame order, when none is at fault. -/
theorem loadEntries_ok (h : ∀ i < u8 pl 0, ¬ bad i) (a : α) :
    loadEntries f size pl a = .ok ((List.range (u8 pl 0)).foldl put a) := by
  have made := applyEntries_ok (f := f) (base := 1) (size := size) (fun i => (List.range i).foldl put a) (u8 pl 0) 0
    fun j _ hj => by rw [List.range_succ, List.foldl_append]; exact good j _ (h j (by omega))
  rw [Nat.zero_add] at made
  exact (if_neg (by omega)).trans made

/-- R35: the first entry at fault, by its position. -/
theorem loadEntries_error (faulty : ∀ i t, bad i → f (1 + size * i) t = .error .badRequest) {i : Nat} (hi : i < u8 pl 0)
    (hb : bad i) (h : ∀ j < i, ¬ bad j) (a : α) : loadEntries f size pl a = .error (.badRequest, i + 1) := by
  have stops := applyEntries_error (f := f) (base := 1) (size := size) (fun i => (List.range i).foldl put a) i (u8 pl 0) 0 hi
    (fun j _ hj => by rw [List.range_succ, List.foldl_append]; exact good j _ (h j (by omega)))
    (by rw [Nat.zero_add]; exact faulty i _ hb)
  rw [Nat.zero_add] at stops
  exact (if_neg (by omega)).trans stops

end

/-- A load request of the office station in COMMISSIONING: refused at its count or its first entry at fault, and applied
whole otherwise. -/
theorem AskedBy.loads {s : State} {st : Station} {kind flags : Byte} {pl : List Byte}
    {f : Caller → List Byte → Ev → Ev} (ask : AskedBy s st .office) (hp : permits .office kind = true) (hg : Passes s kind pl)
    {α : Type} {entry : Nat → α → Except Result α} {size : Nat} {a : α} {apply : α → Garage → Garage}
    (hf : f ⟨.s, st.number, st.role⟩ pl ⟨s.garage, []⟩ =
      loadReply ⟨.s, st.number, st.role⟩ kind pl (loadEntries entry size pl a) apply ⟨s.garage, []⟩)
    (bad : Nat → Prop) (put : α → Nat → α) (good : ∀ i t, ¬ bad i → entry (1 + size * i) t = .ok (put t i))
    (faulty : ∀ i t, bad i → entry (1 + size * i) t = .error .badRequest) :
    let o := s.frame .s kind flags pl (evBody f)
    (u8 pl 0 < 1 ∨ 8 < u8 pl 0 → Replies o s st s.garage kind .badRequest [0]) ∧
    (1 ≤ u8 pl 0 → u8 pl 0 ≤ 8 →
      ((∀ i, i < u8 pl 0 → ¬ bad i) →
        Replies o s st (apply ((List.range (u8 pl 0)).foldl put a) s.garage) kind .taken (w8 (u8 pl 0))) ∧
      (∀ i, i < u8 pl 0 → bad i → (∀ j, j < i → ¬ bad j) → Replies o s st s.garage kind .badRequest (w8 (i + 1)))) := by
  refine ⟨fun h => ?_, fun h1 h8 => ⟨fun h => ?_, fun i hi hb h => ?_⟩⟩
  · exact Replies.of_event ask rfl hp hg (more := []) (by rw [hf, loadEntries_count h]; rfl)
  · exact Replies.of_event ask rfl hp hg (more := []) (by rw [hf, loadEntries_ok h1 h8 good h]; rfl)
  · exact Replies.of_event ask rfl hp hg (more := []) (by rw [hf, loadEntries_error h1 h8 good faulty hi hb h]; rfl)

/-- The gates, for a load request whose length is that of its count. -/
theorem Passes.of_load {s : State} {kind : Byte} {pl : List Byte} {n : Nat} (h : pl.length = n) (h48 : pl.length ≤ 48)
    (hg : s.garage.mode = .commissioning) (hm : serviceKinds.contains kind = false) (hc : countedLength kind pl = some n)
    (hk : (kind == Kind.liftStatus || kind == Kind.moveFault || kind == Kind.moveRefused) = false) : Passes s kind pl := by
  simp only [Bool.or_eq_false_iff] at hk
  refine ⟨by rw [hg]; unfold takenIn; rw [hm]; rfl, ?_, h48⟩
  unfold wellShaped
  rw [hc, hk.1.1, hk.1.2, hk.2]
  simp [h]

/-! ### LOAD_CABINET (R85) -/

theorem rangeStands_iff (a b : Nat) : rangeStands a b = true ↔ 1 ≤ a ∧ a ≤ b ∧ b ≤ 320 := by
  simp only [rangeStands, Bool.and_eq_true, decide_eq_true_eq]
  omega

theorem cabinetFault_of_size {pl : List Byte} (h : u16 pl 0 < 1 ∨ 320 < u16 pl 0) : cabinetFault pl = some 0 :=
  if_pos h

section
variable {pl : List Byte} (h1 : 1 ≤ u16 pl 0) (h320 : u16 pl 0 ≤ 320)
include h1 h320

/-- R85 ❷: with a size in range, the first range that does not stand is at fault. -/
theorem cabinetFault_ranges : cabinetFault pl =
    if ¬ (1 ≤ u16 pl 2 ∧ u16 pl 2 ≤ u16 pl 4 ∧ u16 pl 4 ≤ 320) then some 1
    else if ¬ (1 ≤ u16 pl 6 ∧ u16 pl 6 ≤ u16 pl 8 ∧ u16 pl 8 ≤ 320) then some 2
    else if ¬ (1 ≤ u16 pl 10 ∧ u16 pl 10 ≤ u16 pl 12 ∧ u16 pl 12 ≤ 320) then some 3
    else none := by
  unfold cabinetFault
  rw [if_neg (by omega)]
  simp only [Bool.not_eq_true', ← Bool.not_eq_true, rangeStands_iff]

end

section
variable {s : State} {st : Station} (flags : Byte) {pl : List Byte} (ask : AskedBy s st .office)
  (hm : s.garage.mode = .commissioning) (hl : pl.length = 14)
include ask hm hl

theorem loadCabinet_refuses {item : Nat} (h : cabinetFault pl = some item) :
    Replies (exec (.loadCabinet .s flags pl) s) s st s.garage Kind.loadCabinet .badRequest (w8 item) :=
  Replies.of_event ask rfl (by decide) (.of_commissioning hl hm (by decide) rfl rfl (by decide) (by decide)) (more := [])
    (by unfold loadCabinet; rw [h]; rfl)

theorem loadCabinet_replies (h : cabinetFault pl = none) :
    Replies (exec (.loadCabinet .s flags pl) s) s st
      { s.garage with
        cabinetSize := u16 pl 0
        hooks := resizeHooks s.garage.hooks (u16 pl 0)
        rangeA := some (u16 pl 2, u16 pl 4), rangeB := some (u16 pl 6, u16 pl 8), rangeO := some (u16 pl 10, u16 pl 12) }
      Kind.loadCabinet .taken
      (w16 (u16 pl 0) ++ w16 (u16 pl 2) ++ w16 (u16 pl 4) ++ w16 (u16 pl 6) ++ w16 (u16 pl 8) ++ w16 (u16 pl 10)
        ++ w16 (u16 pl 12)) :=
  Replies.of_event ask rfl (by decide) (.of_commissioning hl hm (by decide) rfl rfl (by decide) (by decide)) (more := [])
    (by unfold loadCabinet; rw [h]; rfl)

end

/-- Settles O37: each load request by its entries, LOAD_CABINET by its first item at fault. -/
theorem garageLoaded : Obligations.GarageLoaded := by
  refine ⟨fun s st flags pl ask hm h48 => ⟨fun hlen => ?_, fun hlen => ⟨?_, ?_⟩⟩, fun s st flags pl ask hm hl => ?_⟩
  · exact ask.loads (kind := Kind.loadZones) (f := loadZones) (by decide) (.of_load hlen h48 hm (by decide) rfl (by decide)) rfl _ _
      (fun i t h => zoneEntry_ok h t) (fun i t h => zoneEntry_error h t)
  · exact ask.loads (kind := Kind.loadStacks) (f := loadStacks) (by decide) (.of_load hlen h48 hm (by decide) rfl (by decide)) rfl _ _
      (fun i t h => stackEntry_ok h t) (fun i t h => stackEntry_error h t)
  · exact ask.loads (kind := Kind.loadBays) (f := loadBays) (by decide) (.of_load hlen h48 hm (by decide) rfl (by decide)) rfl _ _
      (fun i t h => bayEntry_ok h t) (fun i t h => bayEntry_error h t)
  · refine ⟨fun h => loadCabinet_refuses flags ask hm hl (cabinetFault_of_size h), fun h1 h320 => ⟨fun n1 => ?_,
      fun r1 n2 => ?_, fun r1 r2 n3 => ?_, fun r1 r2 r3 => ?_⟩⟩
    · exact loadCabinet_refuses flags ask hm hl ((cabinetFault_ranges h1 h320).trans (if_pos n1))
    · exact loadCabinet_refuses flags ask hm hl
        ((cabinetFault_ranges h1 h320).trans ((if_neg (not_not_intro r1)).trans (if_pos n2)))
    · exact loadCabinet_refuses flags ask hm hl ((cabinetFault_ranges h1 h320).trans
        ((if_neg (not_not_intro r1)).trans ((if_neg (not_not_intro r2)).trans (if_pos n3))))
    · exact loadCabinet_replies flags ask hm hl ((cabinetFault_ranges h1 h320).trans
        ((if_neg (not_not_intro r1)).trans ((if_neg (not_not_intro r2)).trans (if_neg (not_not_intro r3)))))

end Sys2Proof.Machine

namespace Sys2Proof.Machine

/-! ### ENTER_SERVICE: the five checks (R38) -/

/-- R38 check 1, for a stack that is loaded: one bay at each position up to the depth, and none deeper. -/
theorem stackComplete_loaded {g : Garage} {n : Nat} {st : Stack} (h : g.stackRecs.find n = some st) :
    g.stackComplete n = true ↔ (∀ i, 1 ≤ i → i ≤ st.depth → (g.baysAt n i).length = 1) ∧
      ∀ x ∈ g.bayRecs, x.2.stack = n → x.2.position ≤ st.depth := by
  have positions : (∀ i < st.depth, (g.baysAt n (i + 1)).length = 1) ↔
      ∀ i, 1 ≤ i → i ≤ st.depth → (g.baysAt n i).length = 1 :=
    ⟨fun k i h1 hd => by have := k (i - 1) (by omega); rwa [Nat.sub_add_cancel h1] at this,
      fun k i hi => k (i + 1) (by omega) hi⟩
  unfold Garage.stackComplete
  rw [h]
  simp only [Bool.and_eq_true, List.all_eq_true, List.mem_range, beq_iff_eq, positions]
  refine and_congr_right fun _ => forall_congr' fun x => forall_congr' fun _ => ?_
  simp only [Bool.or_eq_true, bne_iff_ne, decide_eq_true_eq, imp_iff_not_or, ne_eq]

/-- R38 check 1, for a stack that is not loaded: no bay names it. -/
theorem stackComplete_absent {g : Garage} {n : Nat} (h : g.stackRecs.find n = none) :
    g.stackComplete n = true ↔ ∀ x ∈ g.bayRecs, x.2.stack ≠ n := by
  unfold Garage.stackComplete
  rw [h]
  simp only [List.all_eq_true, bne_iff_ne]

theorem check1_none (g : Garage) : g.check1 = none ↔ ∀ n < 128, g.stackComplete n = true := by
  unfold Garage.check1
  simp

theorem check1_first {g : Garage} {n : Nat} (hn : n < 128) (h : ¬ g.stackComplete n = true)
    (below : ∀ m < n, g.stackComplete m = true) : g.check1 = some n := by
  unfold Garage.check1
  rw [List.find?_range_eq_some]
  exact ⟨by simpa using h, List.mem_range.mpr hn, fun m hm => by simp [below m hm]⟩

/-- The first element of a list that satisfies a predicate, by what stands before it. -/
theorem find_first {α : Type} {p : α → Bool} {a rest : List α} {x : α} (hx : p x = true) (ha : ∀ y ∈ a, ¬ p y = true) :
    (a ++ x :: rest).find? p = some x :=
  List.find?_eq_some_iff_append.mpr ⟨hx, a, rest, rfl, fun y hy => by simpa using ha y hy⟩

theorem check2_none (g : Garage) : g.check2 = none ↔ ∀ x ∈ g.stackRecs, g.zoneRecs.find x.2.zone ≠ none := by
  unfold Garage.check2
  simp

theorem check2_first {g : Garage} {a rest : List (Nat × Stack)} {x : Nat × Stack} (e : g.stackRecs = a ++ x :: rest)
    (hx : ¬ g.zoneRecs.find x.2.zone ≠ none) (ha : ∀ y ∈ a, g.zoneRecs.find y.2.zone ≠ none) : g.check2 = some x.1 := by
  unfold Garage.check2
  rw [e, find_first (by simpa using hx) (fun y hy => by simpa using ha y hy)]
  rfl

/-- R38 check 3, for one zone: a station in Port G's table serves its lift. -/
theorem served_iff (stations : List Station) (l : Lift) :
    (stations.any fun st => st.role == liftRole l) = true ↔ ∃ st ∈ stations, st.role = liftRole l := by
  simp

theorem check3_none (g : Garage) (stations : List Station) :
    check3 g stations = none ↔ ∀ x ∈ g.zoneRecs, ∃ st ∈ stations, st.role = liftRole x.2.lift := by
  unfold check3
  simp

theorem check3_first {g : Garage} {stations : List Station} {a rest : List (Nat × Zone)} {x : Nat × Zone}
    (e : g.zoneRecs = a ++ x :: rest) (hx : ¬ ∃ st ∈ stations, st.role = liftRole x.2.lift)
    (ha : ∀ y ∈ a, ∃ st ∈ stations, st.role = liftRole y.2.lift) : check3 g stations = some x.1 := by
  unfold check3
  rw [e, find_first (by rwa [Bool.not_eq_true', ← Bool.not_eq_true, served_iff])
    (fun y hy => by rw [Bool.not_eq_true', Bool.not_eq_false, served_iff]; exact ha y hy)]
  rfl

theorem check4_none (g : Garage) : g.check4 = none ↔ ∃ x ∈ g.bayRecs, x.2.swap = false := by
  unfold Garage.check4
  split <;> rename_i h <;> simpa using h

theorem check4_fails {g : Garage} (h : ¬ ∃ x ∈ g.bayRecs, x.2.swap = false) : g.check4 = some 0 := by
  rw [← check4_none] at h
  unfold Garage.check4 at h ⊢
  split <;> rename_i k
  · exact absurd (if_pos k) h
  · rfl

theorem rangeFits_iff (size : Nat) (r : Option (Nat × Nat)) :
    rangeFits size r = true ↔ ∃ a b, r = some (a, b) ∧ b ≤ size := by
  rcases r with _ | ⟨a, b⟩ <;> simp [rangeFits]

theorem rangesMeet_iff (r q : Option (Nat × Nat)) :
    rangesMeet r q = true ↔ ∃ a b c d, r = some (a, b) ∧ q = some (c, d) ∧ a ≤ d ∧ c ≤ b := by
  rcases r with _ | ⟨a, b⟩ <;> rcases q with _ | ⟨c, d⟩ <;> simp [rangesMeet]

/-! ### The first check that fails (R38) -/

section
variable {g : Garage} {stations : List Station}

theorem serviceFault_check1 {n : Nat} (h : g.check1 = some n) : serviceFault g stations = some (1, n) := by
  unfold serviceFault
  rw [h]

theorem serviceFault_check2 {n : Nat} (h1 : g.check1 = none) (h : g.check2 = some n) :
    serviceFault g stations = some (2, n) := by
  unfold serviceFault
  rw [h1, h]

theorem serviceFault_check3 {n : Nat} (h1 : g.check1 = none) (h2 : g.check2 = none) (h : check3 g stations = some n) :
    serviceFault g stations = some (3, n) := by
  unfold serviceFault
  rw [h1, h2, h]

theorem serviceFault_check4 {n : Nat} (h1 : g.check1 = none) (h2 : g.check2 = none) (h3 : check3 g stations = none)
    (h : g.check4 = some n) : serviceFault g stations = some (4, n) := by
  unfold serviceFault
  rw [h1, h2, h3, h]

theorem serviceFault_check5 (h1 : g.check1 = none) (h2 : g.check2 = none) (h3 : check3 g stations = none)
    (h4 : g.check4 = none) : serviceFault g stations = g.check5.map fun n => (5, n) := by
  unfold serviceFault
  rw [h1, h2, h3, h4]

theorem serviceFault_none : serviceFault g stations = none ↔
    g.check1 = none ∧ g.check2 = none ∧ check3 g stations = none ∧ g.check4 = none ∧ g.check5 = none := by
  cases h1 : g.check1 with
  | some n => simp [serviceFault_check1 h1]
  | none =>
    cases h2 : g.check2 with
    | some n => simp [serviceFault_check2 h1 h2]
    | none =>
      cases h3 : check3 g stations with
      | some n => simp [serviceFault_check3 h1 h2 h3]
      | none =>
        cases h4 : g.check4 with
        | some n => simp [serviceFault_check4 h1 h2 h3 h4]
        | none => simp [serviceFault_check5 h1 h2 h3 h4]

end

/-- Check 5 passes when the three ranges are within the cabinet and no two share a hook. -/
theorem check5_none (g : Garage) : g.check5 = none ↔
    rangeFits g.cabinetSize g.rangeA = true ∧ rangeFits g.cabinetSize g.rangeB = true ∧
      rangeFits g.cabinetSize g.rangeO = true ∧ ¬ rangesMeet g.rangeA g.rangeB = true ∧
      ¬ rangesMeet g.rangeA g.rangeO = true ∧ ¬ rangesMeet g.rangeB g.rangeO = true := by
  unfold Garage.check5
  simp only [ite_eq_iff, reduceCtorEq, and_false, false_or, and_true, Bool.not_eq_true', Bool.not_eq_false,
    Bool.or_eq_true, not_or, and_assoc]
  tauto

section
variable {g : Garage}

theorem check5_rangeA (h : ¬ rangeFits g.cabinetSize g.rangeA = true) : g.check5 = some 0 := by
  unfold Garage.check5
  rw [if_pos (by simpa using h)]

theorem check5_rangeB (ha : rangeFits g.cabinetSize g.rangeA = true)
    (h : ¬ rangeFits g.cabinetSize g.rangeB = true ∨ rangesMeet g.rangeA g.rangeB = true) : g.check5 = some 1 := by
  unfold Garage.check5
  rw [if_neg (by simp [ha]), if_pos (by simpa using h)]

theorem check5_rangeO (ha : rangeFits g.cabinetSize g.rangeA = true) (hb : rangeFits g.cabinetSize g.rangeB = true)
    (hab : ¬ rangesMeet g.rangeA g.rangeB = true)
    (h : ¬ rangeFits g.cabinetSize g.rangeO = true ∨ rangesMeet g.rangeA g.rangeO = true ∨
      rangesMeet g.rangeB g.rangeO = true) : g.check5 = some 2 := by
  unfold Garage.check5
  rw [if_neg (by simp [ha]), if_neg (by simpa [hb] using hab), if_pos (by simpa [or_assoc] using h)]

end

/-! ### ENTER_SERVICE and LEAVE_SERVICE (R38 to R40) -/

/-- R38: Port G's station table is judged as it stands when the request comes. -/
theorem AskedBy.enterService_judges {s : State} {st : Station} (ask : AskedBy s st .office) (flags : Byte)
    (hg : Passes s Kind.enterService []) :
    exec (.enterService .s flags []) s =
      s.frame .s Kind.enterService flags [] (evBody fun c _ e => enterService s.line.g.stations c e) := by
  have stations : (s.heard .s st true).line.g.stations = s.line.g.stations :=
    (congrArg PortState.stations (s.heard_port st .g) :)
  refine (ask.office_body (by decide) hg).trans (Eq.trans ?_ (ask.office_body (by decide) hg).symm)
  unfold enterServiceBody evBody
  rw [stations]

/-- Settles O38: the two requests by their one branch each, the checks in their order. -/
theorem serviceEnteredAndLeft : Obligations.ServiceEnteredAndLeft := by
  refine ⟨fun s st flags ask => ⟨fun hm => ?_, fun hm => ?_⟩, ?_⟩
  · have hg : Passes s Kind.enterService [] := .of_commissioning rfl hm (by decide) rfl rfl (by decide) (by decide)
    rw [ask.enterService_judges flags hg]
    refine ⟨fun check n hf => ?_, fun hf => ?_⟩
    · exact Replies.of_event ask rfl (by decide) hg (more := []) (by unfold enterService; rw [hf]; rfl)
    · exact Replies.of_event ask rfl (by decide) hg (more := []) (by unfold enterService; rw [hf]; rfl)
  · have hg : Passes s Kind.leaveService [] := .of_length rfl (by rw [hm]; decide) rfl rfl (by decide) (by decide)
    refine ⟨fun ht => ?_, fun ht => ?_⟩
    · exact Replies.of_event ask rfl (by decide) hg (more := []) (if_pos (List.isEmpty_iff.mpr ht))
    · exact Replies.of_event ask rfl (by decide) hg (more := []) (if_neg (by rwa [List.isEmpty_iff]))
  · intro g stations complete zoned served fits meet one two three four fails
    have complete_iff : ∀ n, g.stackComplete n = true ↔ complete n := fun n => by
      dsimp only [complete]
      split <;> rename_i h
      · exact stackComplete_loaded h
      · exact stackComplete_absent h
    have c1 : one → g.check1 = none := fun h => (check1_none g).mpr fun n hn => (complete_iff n).mpr (h n hn)
    have c2 : two → g.check2 = none := (check2_none g).mpr
    have c3 : three → check3 g stations = none := (check3_none g stations).mpr
    have c4 : four → g.check4 = none := (check4_none g).mpr
    have fits_iff : ∀ r, fits r ↔ rangeFits g.cabinetSize r = true := fun r => (rangeFits_iff _ r).symm
    have meet_iff : ∀ r q, meet r q ↔ rangesMeet r q = true := fun r q => (rangesMeet_iff r q).symm
    refine ⟨?_, fun n hn h below => ?_, fun h1 a x rest e hx ha => ?_, fun h1 h2 a x rest e hx ha => ?_,
      fun h1 h2 h3 h4 => ?_, fun h1 h2 h3 h4 => ?_⟩
    · rw [serviceFault_none, check1_none, check2_none, check3_none, check4_none, check5_none]
      simp only [fits_iff, meet_iff, complete_iff]
      rfl
    · exact serviceFault_check1 (check1_first hn (by rwa [complete_iff]) fun m hm => (complete_iff m).mpr (below m hm))
    · exact serviceFault_check2 (c1 h1) (check2_first e hx ha)
    · exact serviceFault_check3 (c1 h1) (c2 h2) (check3_first e hx ha)
    · exact serviceFault_check4 (c1 h1) (c2 h2) (c3 h3) (check4_fails h4)
    · have last : ∀ n, g.check5 = some n → fails 5 n := fun n h => by
        dsimp only [fails]
        rw [serviceFault_check5 (c1 h1) (c2 h2) (c3 h3) (c4 h4), h]
        rfl
      simp only [fits_iff, meet_iff]
      exact ⟨fun ha => last 0 (check5_rangeA ha), fun ha h => last 1 (check5_rangeB ha h),
        fun ha hb hab h => last 2 (check5_rangeO ha hb hab h)⟩

end Sys2Proof.Machine

namespace Sys2Proof.Machine

/-! ### Zone reports (R110) -/

/-- The tickets once the zone of a bay is reported: the BLOCKED mark of each QUEUED ticket whose bay lies in it is cleared. -/
def Garage.unmarked (g : Garage) (b : Bay) : Table Ticket :=
  g.tickets.map fun x => (x.1,
    if x.2.state = .queued ∧ ((x.2.bay.bind g.bay).bind g.zoneNoOf).isSome ∧ (x.2.bay.bind g.bay).bind g.zoneNoOf = g.zoneNoOf b
    then { x.2 with blocked := false } else x.2)

theorem Garage.reportBay_eq (g : Garage) (b : Bay) : g.reportBay b = { g with tickets := g.unmarked b } := by
  unfold Garage.reportBay Garage.unmarked
  cases hz : g.zoneNoOf b with
  | none =>
    dsimp only
    have none_marked : ∀ o : Option Nat, ¬ (o.isSome = true ∧ o = none) := fun o h => by simp [h.2] at h
    simp only [none_marked, and_false, if_false, Prod.mk.eta, List.map_id']
  | some z =>
    unfold Garage.zoneReport Table.mapAll
    refine congrArg (fun ts => { g with tickets := ts }) (List.map_congr_left fun (x : Nat × Ticket) _ => congrArg (Prod.mk x.1) ?_)
    dsimp only
    cases x.2.bay.bind g.bay with
    | none => simp
    | some y => cases hy : g.zoneNoOf y <;> simp [hy]

/-- A report reads of a bay its stack, so a change of bays that keeps their stacks does not matter to it. -/
theorem Garage.unmarked_bays (g : Garage) (bays : Table Bay) (b b' : Bay) (hb : b'.stack = b.stack)
    (h : ∀ m, (bays.find m).map Bay.stack = (g.bay m).map Bay.stack) :
    ({ g with bayRecs := bays } : Garage).unmarked b' = g.unmarked b := by
  have zone : ∀ y, ({ g with bayRecs := bays } : Garage).zoneNoOf y = g.zoneNoOf y := fun _ => rfl
  have same : g.zoneNoOf b' = g.zoneNoOf b := by unfold Garage.zoneNoOf; rw [hb]
  have lies : ∀ o : Option Nat, (o.bind ({ g with bayRecs := bays } : Garage).bay).bind g.zoneNoOf =
      (o.bind g.bay).bind g.zoneNoOf := fun o => by
    cases o with
    | none => rfl
    | some m =>
      have stack := h m
      show (bays.find m).bind g.zoneNoOf = (g.bay m).bind g.zoneNoOf
      generalize bays.find m = x, g.bay m = y at stack ⊢
      cases x <;> cases y <;> simp_all [Garage.zoneNoOf]
  unfold Garage.unmarked
  simp only [funext zone, lies, same]

/-! ### A bay that becomes FREE (R29 to R31) -/

/-- The bays once bay `n`, whose record is `b`, is FREE: OUT_PENDING has become OUT. -/
def Garage.opened (g : Garage) (n : Nat) (b : Bay) : Table Bay :=
  g.bayRecs.adjust n fun y =>
    { y with occ := .free, service := if b.service = .outPending then .out else y.service }

/-- R31 ❷: a deeper RETURN_PENDING bay of the stack of `b` whose bays in front are all FREE. -/
def Garage.Returns (bays : Table Bay) (b d : Bay) : Prop :=
  d.stack = b.stack ∧ b.position < d.position ∧ d.service = .returnPending ∧
    ∀ y ∈ bays, y.2.stack = d.stack → 1 ≤ y.2.position → y.2.position < d.position → y.2.occ = .free

theorem adjust_adjust {α : Type} (t : Table α) (n : Nat) (f f' : α → α) :
    (t.adjust n f).adjust n f' = t.adjust n fun x => f' (f x) := by
  unfold Table.adjust
  rw [List.map_map]
  refine List.map_congr_left fun x _ => ?_
  by_cases h : x.1 = n <;> simp [h]

theorem adjust_keys {α : Type} (t : Table α) (n : Nat) (f : α → α) : (t.adjust n f).map Prod.fst = t.map Prod.fst := by
  unfold Table.adjust
  rw [List.map_map]
  refine List.map_congr_left fun x _ => ?_
  by_cases h : x.1 = n <;> simp [h]

/-- The bays in front of a bay are those of its stack at a lower position, which R27 counts from 1. -/
theorem mem_front (g : Garage) (d : Bay) (y : Nat × Bay) :
    y ∈ g.front d ↔ y ∈ g.bayRecs ∧ y.2.stack = d.stack ∧ 1 ≤ y.2.position ∧ y.2.position < d.position := by
  unfold Garage.front Garage.baysAt
  simp only [List.mem_flatMap, List.mem_range, List.mem_filter, Bool.and_eq_true, beq_iff_eq]
  constructor
  · rintro ⟨i, hi, hm, hs, hp⟩
    exact ⟨hm, hs, by omega, by omega⟩
  · rintro ⟨hm, hs, h1, hp⟩
    exact ⟨y.2.position - 1, by omega, hm, hs, by omega⟩

theorem frontFree_iff (g : Garage) (d : Bay) : g.frontFree d = true ↔
    ∀ y ∈ g.bayRecs, y.2.stack = d.stack → 1 ≤ y.2.position → y.2.position < d.position → y.2.occ = .free := by
  unfold Garage.frontFree
  simp only [List.all_eq_true, mem_front, beq_iff_eq]
  exact ⟨fun h y hm hs h1 hp => h y ⟨hm, hs, h1, hp⟩, fun h y k => h y k.1 k.2.1 k.2.2.1 k.2.2.2⟩

/-- The two changes of the record of a bay that becomes FREE, as one. -/
theorem Garage.opened_eq (g : Garage) (n : Nat) (b : Bay) :
    (if b.service = .outPending then
      (g.modBay n fun b => { b with occ := .free }).modBay n fun b => { b with service := .out }
    else g.modBay n fun b => { b with occ := .free }) = { g with bayRecs := g.opened n b } := by
  unfold Garage.modBay Garage.opened
  split
  · dsimp only
    rw [adjust_adjust]
  · rfl

theorem Garage.opened_keys (g : Garage) (n : Nat) (b : Bay) : (g.opened n b).map Prod.fst = g.bayRecs.map Prod.fst :=
  adjust_keys g.bayRecs n _

theorem Garage.opened_stack (g : Garage) (n : Nat) (b : Bay) (m : Nat) :
    ((g.opened n b).find m).map Bay.stack = (g.bay m).map Bay.stack := by
  unfold Garage.opened
  rw [find_adjust]
  show Option.map _ (if m = n then Option.map _ (g.bay m) else g.bay m) = _
  split
  · rw [Option.map_map]; rfl
  · rfl

theorem returnDeeper_stack (g : Garage) (b : Bay) (m : Nat) :
    ((g.returnDeeper b).bay m).map Bay.stack = (g.bay m).map Bay.stack := by
  unfold Garage.returnDeeper Garage.bay
  rw [find_mapAll]
  cases g.bayRecs.find m with
  | none => rfl
  | some d => simp only [Option.map_some]; split <;> rfl

theorem returnDeeper_keys (g : Garage) (b : Bay) : (g.returnDeeper b).bayRecs.map Prod.fst = g.bayRecs.map Prod.fst := by
  unfold Garage.returnDeeper Table.mapAll
  rw [List.map_map]
  rfl

/-- What the freeing of bay `n` comes to: its own record, the deeper bays that return, and the report of its zone. -/
theorem Garage.freed_eq {g : Garage} {n : Nat} {b : Bay} (h : g.bay n = some b) :
    (g.modBay n fun b => { b with occ := .free }).bayFreed n = { g with
      tickets := g.unmarked b
      bayRecs := (({ g with bayRecs := g.opened n b } : Garage).returnDeeper b).bayRecs } := by
  unfold Garage.bayFreed
  rw [bay_modBay, h, Option.map_some]
  dsimp only
  rw [Garage.opened_eq, Garage.reportBay_eq]
  refine congrArg (fun ts => ({ g with
    tickets := ts
    bayRecs := (({ g with bayRecs := g.opened n b } : Garage).returnDeeper b).bayRecs } : Garage))
      (g.unmarked_bays (({ g with bayRecs := g.opened n b } : Garage).returnDeeper b).bayRecs b { b with occ := .free } rfl
        fun m => (returnDeeper_stack _ b m).trans (g.opened_stack n b m))

/-- R31 ❷: which bays a freed bay lets return, record by record. -/
theorem returnDeeper_at {g : Garage} {b : Bay} {i : Nat} {x y : Nat × Bay} (hx : g.bayRecs[i]? = some x)
    (hy : (g.returnDeeper b).bayRecs[i]? = some y) :
    (Garage.Returns g.bayRecs b x.2 → y.2 = { x.2 with service := .inService }) ∧
      (¬ Garage.Returns g.bayRecs b x.2 → y.2 = x.2) := by
  have e : y.2 = if x.2.stack = b.stack ∧ b.position < x.2.position ∧ x.2.service = .returnPending ∧ g.frontFree x.2 = true
      then { x.2 with service := .inService } else x.2 := by
    unfold Garage.returnDeeper Table.mapAll at hy
    rw [List.getElem?_map, hx] at hy
    cases hy
    rfl
  rw [e]
  unfold Garage.Returns
  rw [← frontFree_iff]
  exact ⟨fun h => if_pos h, fun h => if_neg h⟩

/-- R29 to R31: a bay that becomes FREE. -/
theorem Garage.freed_bays {g : Garage} {n : Nat} {b : Bay} (h : g.bay n = some b) :
    let k := (g.modBay n fun b => { b with occ := .free }).bayFreed n
    k = { g with tickets := g.unmarked b, bayRecs := k.bayRecs } ∧ k.bayRecs.map Prod.fst = g.bayRecs.map Prod.fst ∧
      ∀ (i : Nat) (x y : Nat × Bay), (g.opened n b)[i]? = some x → k.bayRecs[i]? = some y →
        (Garage.Returns (g.opened n b) b x.2 → y.2 = { x.2 with service := .inService }) ∧
          (¬ Garage.Returns (g.opened n b) b x.2 → y.2 = x.2) := by
  dsimp only
  rw [Garage.freed_eq h]
  exact ⟨rfl, (returnDeeper_keys { g with bayRecs := g.opened n b } b).trans (g.opened_keys n b),
    fun i x y hx hy => returnDeeper_at (g := { g with bayRecs := g.opened n b }) hx hy⟩

theorem Garage.vacate_absent {g : Garage} {n : Nat} (h : g.bay n = none) (t : Nat) : g.vacate n t = g := by
  unfold Garage.vacate
  rw [h]

theorem Garage.release_absent {g : Garage} {n : Nat} (h : g.bay n = none) (t : Nat) : g.release n t = g := by
  unfold Garage.release
  rw [h]

section
variable {g : Garage} {n t : Nat} {b : Bay} (h : g.bay n = some b)
include h

theorem Garage.vacate_occupied (ho : b.occ = .occupied t) :
    g.vacate n t = (g.modBay n fun b => { b with occ := .free }).bayFreed n := by
  unfold Garage.vacate
  rw [h]
  exact if_pos ho

theorem Garage.vacate_other (ho : b.occ ≠ .occupied t) : g.vacate n t = g := by
  unfold Garage.vacate
  rw [h]
  exact if_neg ho

theorem Garage.release_reserved (ho : b.occ = .reserved t) :
    g.release n t = (g.modBay n fun b => { b with occ := .free }).bayFreed n := by
  unfold Garage.release
  rw [h]
  exact if_pos ho

theorem Garage.release_other (ho : b.occ ≠ .reserved t) : g.release n t = g := by
  unfold Garage.release
  rw [h]
  exact if_neg ho

end

/-! ### BAY_SERVICE (R41, R42) -/

theorem directionOf_none {n : Nat} (h : 1 < n) : directionOf n = none := by
  unfold directionOf
  split <;> first | omega | rfl

theorem directionOf_some {n : Nat} (h : n ≤ 1) : ∃ d, directionOf n = some d := by
  obtain rfl | rfl : n = 0 ∨ n = 1 := by omega
  · exact ⟨false, rfl⟩
  · exact ⟨true, rfl⟩

theorem bayService_direction {c : Caller} {pl : List Byte} {e : Ev} (hn : u16 pl 0 ≤ 255) (h : 1 < u8 pl 2) :
    bayService c pl e = e.badRequest c Kind.bayService 2 := by
  unfold bayService
  rw [if_neg (Nat.not_lt.mpr hn), directionOf_none h]

theorem bayService_absent {c : Caller} {pl : List Byte} {e : Ev} (hn : u16 pl 0 ≤ 255) (hd : u8 pl 2 ≤ 1)
    (h : e.g.bay (u16 pl 0) = none) : bayService c pl e = e.reply c Kind.bayService .notApplicable (w8 0) := by
  obtain ⟨d, hd⟩ := directionOf_some hd
  unfold bayService
  rw [if_neg (Nat.not_lt.mpr hn), hd, h]

section
variable {c : Caller} {pl : List Byte} {e : Ev} {b : Bay} (hn : u16 pl 0 ≤ 255) (h : e.g.bay (u16 pl 0) = some b)
include hn h

theorem bayService_out (hd : u8 pl 2 = 0) : bayService c pl e =
    bayServiceReply c (u16 pl 0) b.closed (e.g.closeCount (u16 pl 0) b) (e.modG fun g => g.closeBays (u16 pl 0) b) := by
  unfold bayService
  rw [if_neg (Nat.not_lt.mpr hn), hd, h]
  rfl

theorem bayService_in (hd : u8 pl 2 = 1) : bayService c pl e = bayIn c (u16 pl 0) b e := by
  unfold bayService
  rw [if_neg (Nat.not_lt.mpr hn), hd, h]
  rfl

end

theorem closedInFront_iff (g : Garage) (b : Bay) :
    g.closedInFront b = true ↔ ∃ x ∈ g.front b, x.2.service = .out ∨ x.2.service = .outPending := by
  unfold Garage.closedInFront
  simp

theorem bayIn_closed {c : Caller} {n : Nat} {b : Bay} {e : Ev} (h : e.g.closedInFront b = true) : bayIn c n b e =
    e.reply c Kind.bayService .notApplicable [Config.bayServiceItem n e.g.seconds] :=
  if_pos h

/-- The count of at most one bay changed is that number. -/
theorem changedCount_le {n k seconds : Nat} (h : k ≤ 255) : [changedCount n k seconds] = w8 k := by
  unfold changedCount
  rw [if_pos h]
  rfl

/-- R42: the blocks behind the ports once the bay `b` is `now`: the zone of one brought into service is reported. -/
def Garage.bayTurned (g : Garage) (n : Nat) (b : Bay) (now : ServiceState) : Garage :=
  let set := g.modBay n fun b => { b with service := now }
  if now = .inService ∧ b.service ≠ .inService then set.reportBay b else set

theorem Garage.bayTurned_reports {g : Garage} {n : Nat} {b : Bay} (h : b.service ≠ .inService) :
    g.bayTurned n b .inService = (g.modBay n fun b => { b with service := .inService }).reportBay b :=
  if_pos ⟨rfl, h⟩

theorem Garage.bayTurned_quiet {g : Garage} {n : Nat} {b : Bay} {now : ServiceState}
    (h : now = .inService → b.service = .inService) :
    g.bayTurned n b now = g.modBay n fun b => { b with service := now } :=
  if_neg fun k => k.2 (h k.1)

theorem bayIn_open {c : Caller} {n : Nat} {b : Bay} {e : Ev} (h : ¬ e.g.closedInFront b = true) : bayIn c n b e =
    bayServiceReply c n (e.g.reopened b) (if e.g.reopened b = b.service then 0 else 1)
      (e.modG fun g => g.bayTurned n b (e.g.reopened b)) :=
  if_neg h

section
variable {s : State} {st : Station} (flags : Byte) {pl : List Byte} (ask : AskedBy s st .office) (hl : pl.length = 3)
include ask hl

/-- What the office station is answered to a BAY_SERVICE. -/
theorem bayService_replies {g : Garage} {r : Result} {detail : List Byte}
    (h : bayService ⟨.s, st.number, st.role⟩ pl ⟨s.garage, []⟩ = ⟨g, [replyOut st Kind.bayService r detail]⟩) :
    Replies (exec (.bayService .s flags pl) s) s st g.afterwards Kind.bayService r detail :=
  Replies.of_work ask rfl (by decide) (.of_both hl (by decide) rfl rfl (by decide) (by decide)) (more := []) h

theorem bayService_becomes {b : Bay} (hn : u16 pl 0 ≤ 255) (hb : s.garage.bay (u16 pl 0) = some b) (hd : u8 pl 2 = 1)
    (hc : ¬ s.garage.closedInFront b = true) {now : ServiceState} (hr : s.garage.reopened b = now) :
    Replies (exec (.bayService .s flags pl) s) s st (s.garage.bayTurned (u16 pl 0) b now).afterwards Kind.bayService .taken
      (w16 (u16 pl 0) ++ w8 (serviceStateCode now) ++ (if now = b.service then [0] else [1])) := by
  refine bayService_replies flags ask hl ((bayService_in hn hb hd).trans ((bayIn_open hc).trans ?_))
  rw [show (⟨s.garage, []⟩ : Ev).g.reopened b = now from hr]
  unfold bayServiceReply
  split
  · rfl
  · rfl

/-- What the office station is answered to a HOOK_SERVICE. -/
theorem hookService_replies {g : Garage} {r : Result} {detail : List Byte}
    (h : hookService ⟨.s, st.number, st.role⟩ pl ⟨s.garage, []⟩ = ⟨g, [replyOut st Kind.hookService r detail]⟩) :
    Replies (exec (.hookService .s flags pl) s) s st g Kind.hookService r detail :=
  Replies.of_event ask rfl (by decide) (.of_both hl (by decide) rfl rfl (by decide) (by decide)) (more := []) h

end

theorem reopened_out_free {g : Garage} {b : Bay} (h : b.service = .out) (hf : g.frontFree b = true) :
    g.reopened b = .inService := by
  unfold Garage.reopened
  rw [h]
  exact if_pos hf

theorem reopened_out_car {g : Garage} {b : Bay} (h : b.service = .out) (hf : ¬ g.frontFree b = true) :
    g.reopened b = .returnPending := by
  unfold Garage.reopened
  rw [h]
  exact if_neg hf

/-- A bay in front is not FREE, or all of them are. -/
theorem frontFree_iff_not (g : Garage) (b : Bay) : g.frontFree b = true ↔ ¬ ∃ x ∈ g.front b, x.2.occ ≠ .free := by
  unfold Garage.frontFree
  simp

/-! ### HOOK_SERVICE (R96) -/

section
variable {c : Caller} {pl : List Byte} {e : Ev} {h : Hook} (hh : e.g.hooks.find (u16 pl 0) = some h)
include hh

theorem hookService_direction (hd : 1 < u8 pl 2) : hookService c pl e = e.badRequest c Kind.hookService 2 := by
  unfold hookService
  rw [hh, directionOf_none hd]

theorem hookService_off (hd : u8 pl 2 = 0) : hookService c pl e = turnHook c (u16 pl 0) h .free .disabled e := by
  unfold hookService
  rw [hh, hd]
  rfl

theorem hookService_on (hd : u8 pl 2 = 1) : hookService c pl e = turnHook c (u16 pl 0) h .disabled .free e := by
  unfold hookService
  rw [hh, hd]
  rfl

end

theorem hookService_absent {c : Caller} {pl : List Byte} {e : Ev} (h : e.g.hooks.find (u16 pl 0) = none) :
    hookService c pl e = e.badRequest c Kind.hookService 0 := by
  unfold hookService
  rw [h]

/-- Settles O39: each request by its branches, and a bay that becomes FREE by Vacate or Release. -/
theorem bayAndHookService : Obligations.BayAndHookService := by
  refine ⟨fun s st flags pl ask hl => ⟨?_, ?_⟩, fun g n ticket => ⟨?_, ?_, ?_⟩⟩
  · intro answers
    refine ⟨fun h => bayService_replies flags ask hl (if_pos h),
      fun hn hd => bayService_replies flags ask hl (bayService_direction hn hd),
      fun hn hd hb => bayService_replies flags ask hl (bayService_absent hn hd hb), fun b hn hb => ?_⟩
    intro shut closes closedInFront carInFront becomes set
    refine ⟨fun hd => ?_, fun hd hc => ?_, fun hd hc => ?_⟩
    · have shut_eq : shut = Bay.closed := funext fun x => by
        dsimp only [shut]
        unfold Bay.closed
        cases x.service <;> rfl
      intro changed
      refine ⟨_, fun h => changedCount_le (n := u16 pl 0) (seconds := s.garage.seconds) h, ?_⟩
      refine bayService_replies flags ask hl ((bayService_out hn hb hd).trans ?_)
      dsimp only [changed]
      rw [shut_eq]
      rfl
    · exact ⟨_, bayService_replies flags ask hl
        ((bayService_in hn hb hd).trans (bayIn_closed ((closedInFront_iff _ _).mpr hc)))⟩
    · have becomes_of : ∀ {now k}, s.garage.reopened b = now → s.garage.bayTurned (u16 pl 0) b now = k → becomes now k :=
        fun hr hk => hk ▸ bayService_becomes flags ask hl hn hb hd (by rwa [closedInFront_iff]) hr
      refine ⟨fun h => ?_, fun h => ?_, fun h hf => ?_, fun h hf => ?_⟩
      · refine becomes_of ?_ (Garage.bayTurned_quiet id)
        unfold Garage.reopened
        rcases h with h | h <;> rw [h]
      · refine becomes_of ?_ (Garage.bayTurned_reports (by rw [h]; decide))
        unfold Garage.reopened
        rw [h]
      · exact becomes_of (reopened_out_free h ((frontFree_iff_not _ _).mpr hf)) (Garage.bayTurned_reports (by rw [h]; decide))
      · exact becomes_of (reopened_out_car h (by rw [frontFree_iff_not]; exact not_not_intro hf))
          (Garage.bayTurned_quiet fun k => nomatch k)
  · intro answers turned shown
    refine ⟨fun h => hookService_replies flags ask hl (hookService_absent h), fun h hh => ⟨fun hd => ?_, fun hd hs => ?_,
      fun hd hs => ?_, fun hd hs => ?_, fun hd hs => ?_⟩⟩
    · exact hookService_replies flags ask hl (hookService_direction hh hd)
    · exact hookService_replies flags ask hl ((hookService_off hh hd).trans (if_pos hs))
    · exact hookService_replies flags ask hl ((hookService_on hh hd).trans (if_pos hs))
    · exact hookService_replies flags ask hl ((hookService_off hh hd).trans (if_neg hs))
    · exact hookService_replies flags ask hl ((hookService_on hh hd).trans (if_neg hs))
  · exact fun b => g.reportBay_eq b
  · exact fun h => ⟨Garage.vacate_absent h ticket, Garage.release_absent h ticket⟩
  · intro b h opened returns freed
    have now : freed ((g.modBay n fun b => { b with occ := .free }).bayFreed n) := Garage.freed_bays h
    exact ⟨fun ho => (Garage.vacate_occupied h ho).symm ▸ now, Garage.vacate_other h,
      fun ho => (Garage.release_reserved h ho).symm ▸ now, Garage.release_other h⟩

end Sys2Proof.Machine

namespace Sys2Proof.Machine

/-! ### A move left unresolved (R140) -/

/-- R140 ❷: the ticket in CHECK and out of every list, its source bay held for it. -/
def Garage.inDoubtFrom (g : Garage) (l : Lift) (m : Move) : Garage :=
  match m.source with
  | .bay b => ((g.dequeue m.ticket).modTicket m.ticket fun t => t.toCheck l m).holdBay b m.ticket
  | _ => (g.dequeue m.ticket).modTicket m.ticket fun t => t.toCheck l m

/-- R140 ❸ ❹: what ends with the move, by its kind. -/
def Garage.endMove (g : Garage) (l : Lift) (m : Move) : Garage :=
  match m.kind with
  | .park => g.modLift l fun u => { u with parkRequest := none }
  | .relocation => (g.markRelocated l m.ticket).abandonPlan l
  | .final => g.modLift l fun u => { u with plan := none }

theorem Garage.leaveUnresolved_eq (g : Garage) (l : Lift) (m : Move) : g.leaveUnresolved l m =
    ((g.inDoubtFrom l m).endMove l m).modLift l fun u => { u with unresolved := some m } := by
  unfold Garage.leaveUnresolved Garage.inDoubtFrom Garage.endMove
  cases m.kind <;> cases m.source <;> rfl

@[simp] theorem Garage.modLift_ticket (g : Garage) (l : Lift) (f : LiftUnit → LiftUnit) (n : Nat) :
    (g.modLift l f).ticket n = g.ticket n := by cases l <;> rfl
@[simp] theorem Garage.modLift_bay (g : Garage) (l : Lift) (f : LiftUnit → LiftUnit) (n : Nat) :
    (g.modLift l f).bay n = g.bay n := by cases l <;> rfl
section
variable (g : Garage) (l : Lift) (m : Move)

theorem Garage.inDoubtFrom_lift (k : Lift) : (g.inDoubtFrom l m).lift k = g.lift k := by
  unfold Garage.inDoubtFrom
  split <;> cases k <;> rfl

theorem Garage.inDoubtFrom_tickets :
    (g.inDoubtFrom l m).tickets = g.tickets.adjust m.ticket fun t => t.toCheck l m := by
  unfold Garage.inDoubtFrom
  split <;> rfl

theorem Garage.inDoubtFrom_ticket : (g.inDoubtFrom l m).ticket m.ticket = (g.ticket m.ticket).map fun t => t.toCheck l m := by
  unfold Garage.ticket
  rw [Garage.inDoubtFrom_tickets, find_adjust_self]

theorem Garage.inDoubtFrom_other {n : Nat} (h : n ≠ m.ticket) : (g.inDoubtFrom l m).ticket n = g.ticket n := by
  unfold Garage.ticket
  rw [Garage.inDoubtFrom_tickets, find_adjust_ne _ _ h]

theorem Garage.inDoubtFrom_queue : ∀ e ∈ (g.inDoubtFrom l m).queue, e.ticket ≠ m.ticket := by
  have kept : (g.inDoubtFrom l m).queue = (g.dequeue m.ticket).queue := by
    unfold Garage.inDoubtFrom
    split <;> rfl
  rw [kept]
  intro e he
  simpa using (List.mem_filter.mp he).2

theorem Garage.inDoubtFrom_list (c : Chan) : m.ticket ∉ ((g.inDoubtFrom l m).chan c).list := by
  have kept : (g.inDoubtFrom l m).chan c = (g.dequeue m.ticket).chan c := by
    unfold Garage.inDoubtFrom
    split <;> cases c <;> rfl
  rw [kept]
  cases c <;> exact fun hm => by simpa using (List.mem_filter.mp hm).2

variable {g m}

theorem Garage.inDoubtFrom_bay {b : Nat} (hb : m.source = .bay b) (n : Nat) :
    (g.inDoubtFrom l m).bay n = if n = b then (g.bay n).map fun x => { x with occ := .reserved m.ticket } else g.bay n := by
  unfold Garage.inDoubtFrom
  rw [hb]
  show (g.bayRecs.adjust b fun x => { x with occ := .reserved m.ticket }).find n = _
  exact find_adjust g.bayRecs b n _

end

/-- What ends with a PARK or FINAL move is of the lift alone. -/
theorem Garage.endMove_lift {m : Move} (h : m.kind ≠ .relocation) (g : Garage) (l : Lift) :
    ∃ f, g.endMove l m = g.modLift l f ∧ (m.kind = .park → ∀ u, (f u).parkRequest = none) ∧
      (m.kind = .final → ∀ u, (f u).plan = none) := by
  unfold Garage.endMove
  cases hk : m.kind with
  | relocation => exact absurd hk h
  | park => exact ⟨_, rfl, fun _ _ => rfl, fun e => nomatch e⟩
  | final => exact ⟨_, rfl, (fun e => nomatch e), fun _ _ => rfl⟩

/-- A PARK or FINAL move left unresolved changes beyond what R140 ❷ says its lift alone. -/
theorem Garage.leaveUnresolved_lift {m : Move} (h : m.kind ≠ .relocation) (g : Garage) (l : Lift) :
    ∃ f, g.leaveUnresolved l m = (g.inDoubtFrom l m).modLift l f ∧ (∀ u, (f u).unresolved = some m) ∧
      (m.kind = .park → ∀ u, (f u).parkRequest = none) ∧ (m.kind = .final → ∀ u, (f u).plan = none) := by
  obtain ⟨f, e, park, final⟩ := (g.inDoubtFrom l m).endMove_lift h l
  refine ⟨fun u => { f u with unresolved := some m }, ?_, fun _ => rfl, park, final⟩
  rw [Garage.leaveUnresolved_eq, e, modLift_modLift]
  rfl

/-! ### A relocation left unresolved (R105, R140) -/

/-- The relocations of a plan once the one of `blocker` is marked completed (R130 ❸). -/
def Plan.marked (p : Plan) (blocker : Nat) : Plan :=
  { p with relocs := p.relocs.map fun r => if r.blocker = blocker then { r with done := true } else r }

/-- No relocation of the blocker is left to release. -/
theorem Plan.marked_open {p : Plan} {n : Nat} {r : Reloc} (h : r ∈ (p.marked n).relocs) (hd : r.done = false) :
    r.blocker ≠ n := by
  obtain ⟨q, -, rfl⟩ := List.mem_map.mp h
  intro e
  by_cases hq : q.blocker = n
  · rw [if_pos hq] at hd
    cases hd
  · rw [if_neg hq] at e
    exact hq e

theorem Plan.mem_marked {p : Plan} {n : Nat} {r : Reloc} (h : r ∈ p.relocs) (hn : r.blocker ≠ n) : r ∈ (p.marked n).relocs :=
  List.mem_map.mpr ⟨r, h, if_neg hn⟩

/-- The target comes back to a record that at most its BLOCKED mark tells apart. -/
theorem Garage.endPlan_target {g : Garage} {l : Lift} {m : Move} {p : Plan} (ht : p.target ≠ m.ticket) {x : Ticket}
    (hx : g.ticket p.target = some x) :
    ∃ mark, (((g.inDoubtFrom l m).markRelocated l m.ticket).endPlan l (p.marked m.ticket)).ticket p.target =
      some { x with blocked := mark } := by
  obtain ⟨mark, e, -⟩ := endPlan_ticket ((g.inDoubtFrom l m).markRelocated l m.ticket) l (p.marked m.ticket) p.target
  unfold Garage.markRelocated at e ⊢
  rw [Garage.modLift_ticket, Garage.inDoubtFrom_other g l m ht, hx] at e
  exact ⟨mark x, e⟩

section
variable {g : Garage} {l : Lift} {m : Move} {p : Plan} (hk : m.kind = .relocation) (hp : (g.lift l).plan = some p)
include hk hp

/-- The plan of a relocation left unresolved ends with that relocation marked, and its target goes back. -/
theorem Garage.leaveUnresolved_relocation : g.leaveUnresolved l m =
    ((((g.inDoubtFrom l m).markRelocated l m.ticket).endPlan l (p.marked m.ticket)).returnTarget p.target).modLift l
      fun u => { u with unresolved := some m } := by
  have plan : (((g.inDoubtFrom l m).markRelocated l m.ticket).lift l).plan = some (p.marked m.ticket) := by
    unfold Garage.markRelocated
    rw [Garage.modLift_lift, Garage.inDoubtFrom_lift, hp]
    rfl
  rw [Garage.leaveUnresolved_eq]
  unfold Garage.endMove Garage.abandonPlan
  rw [hk]
  dsimp only
  rw [plan]
  rfl

theorem Garage.leaveUnresolved_plan : ((g.leaveUnresolved l m).lift l).plan = none := by
  rw [Garage.leaveUnresolved_relocation hk hp, Garage.modLift_lift]
  show (Garage.lift _ l).plan = none
  rw [returnTarget_lift]
  refine endPlan_plan _ l _ (p.marked m.ticket) ?_ rfl
  unfold Garage.markRelocated
  rw [Garage.modLift_lift, Garage.inDoubtFrom_lift, hp]
  rfl

/-- The occupancies that a relocation left unresolved leaves: those of the plan's other relocations are FREE. -/
theorem Garage.leaveUnresolved_occ (d : Nat) : ((g.leaveUnresolved l m).bay d).map Bay.occ =
    if ∃ r ∈ (p.marked m.ticket).relocs, r.done = false ∧ d = r.dest ∧
        ((g.inDoubtFrom l m).bay d).map Bay.occ = some (.reserved r.blocker) then some .free
    else ((g.inDoubtFrom l m).bay d).map Bay.occ := by
  rw [Garage.leaveUnresolved_relocation hk hp, Garage.modLift_bay, returnTarget_bay, endPlan_occ]
  unfold Garage.markRelocated
  rw [Garage.modLift_bay]

/-- A bay RESERVED for the ticket of the move stays so. -/
theorem Garage.leaveUnresolved_reserved {d : Nat}
    (h : ((g.inDoubtFrom l m).bay d).map Bay.occ = some (.reserved m.ticket)) :
    ((g.leaveUnresolved l m).bay d).map Bay.occ = some (.reserved m.ticket) := by
  rw [Garage.leaveUnresolved_occ hk hp, if_neg, h]
  rintro ⟨r, hr, hd, -, ho⟩
  rw [h] at ho
  have same : m.ticket = r.blocker := by simpa using ho
  exact Plan.marked_open hr hd same.symm

variable (ht : p.target ≠ m.ticket)
include ht

theorem Garage.leaveUnresolved_check : (g.leaveUnresolved l m).ticket m.ticket =
    (g.ticket m.ticket).map fun t => t.toCheck l m := by
  rw [Garage.leaveUnresolved_relocation hk hp, Garage.modLift_ticket, returnTarget_other _ ht.symm]
  obtain ⟨mark, e, same⟩ := endPlan_ticket ((g.inDoubtFrom l m).markRelocated l m.ticket) l (p.marked m.ticket) m.ticket
  unfold Garage.markRelocated at e ⊢
  rw [e, Garage.modLift_ticket, Garage.inDoubtFrom_ticket, Option.map_map]
  refine congrArg (fun f => (g.ticket m.ticket).map f) (funext fun t => ?_)
  show ({ t.toCheck l m with blocked := mark (t.toCheck l m) } : Ticket) = _
  rw [same (t.toCheck l m) (show TicketState.check ≠ .queued by decide)]

theorem Garage.leaveUnresolved_lists : (∀ e ∈ (g.leaveUnresolved l m).queue, e.ticket ≠ m.ticket) ∧
    ∀ c, m.ticket ∉ ((g.leaveUnresolved l m).chan c).list := by
  rw [Garage.leaveUnresolved_relocation hk hp]
  obtain ⟨queue, chan⟩ := endPlan_lists ((g.inDoubtFrom l m).markRelocated l m.ticket) l (p.marked m.ticket)
  obtain ⟨stays, out⟩ := returnTarget_lists
    (((g.inDoubtFrom l m).markRelocated l m.ticket).endPlan l (p.marked m.ticket)) ht.symm
  rw [queue] at stays
  simp only [chan] at out
  unfold Garage.markRelocated at stays out ⊢
  simp only [Garage.modLift_queue, Garage.modLift_chan] at stays out ⊢
  exact ⟨stays (g.inDoubtFrom_queue l m), fun c => out c (g.inDoubtFrom_list l m c)⟩

theorem Garage.leaveUnresolved_queue {x : Ticket} (hx : g.ticket p.target = some x) (hc : x.cancelMark = false)
    (hv : x.convoy = none) : (g.leaveUnresolved l m).ticket p.target = some { x with
      state := .queued, phase := none, blocked := false, hold := x.hold && !x.resumePending, resumePending := false } ∧
    ⟨p.target, none⟩ ∈ (g.leaveUnresolved l m).queue := by
  obtain ⟨mark, h⟩ := Garage.endPlan_target ht hx
  rw [Garage.leaveUnresolved_relocation hk hp, Garage.modLift_ticket, Garage.modLift_queue]
  exact returnTarget_queue _ _ { x with blocked := mark } h hc hv

theorem Garage.leaveUnresolved_convoy {x : Ticket} {c : Chan} (hx : g.ticket p.target = some x) (hc : x.cancelMark = false)
    (hv : x.convoy = some c) : (g.leaveUnresolved l m).ticket p.target =
      some { x with state := .queued, phase := none, blocked := false } ∧
    p.target ∈ ((g.leaveUnresolved l m).chan c).list := by
  obtain ⟨mark, h⟩ := Garage.endPlan_target ht hx
  rw [Garage.leaveUnresolved_relocation hk hp, Garage.modLift_ticket, Garage.modLift_chan]
  exact returnTarget_convoy _ _ { x with blocked := mark } c h hc hv

theorem Garage.leaveUnresolved_cancelled {x : Ticket} (hx : g.ticket p.target = some x) (hc : x.cancelMark = true) :
    ((g.leaveUnresolved l m).ticket p.target).map Ticket.state = some .parked ∧
      ((g.leaveUnresolved l m).ticket p.target).map Ticket.place = some false := by
  obtain ⟨mark, h⟩ := Garage.endPlan_target ht hx
  rw [Garage.leaveUnresolved_relocation hk hp, Garage.modLift_ticket]
  exact returnTarget_cancelled _ _ { x with blocked := mark } h hc

end

/-! ### Where the car of an unresolved move is placed (R141) -/

/-- R141, R189: the move is no longer unresolved, and one placed at its destination counts as done. -/
theorem Garage.clearUnresolved_countMove (g : Garage) (l : Lift) (m : Move) :
    (g.clearUnresolved l m).countMove l = g.modLift l fun u => { u with
      unresolved := none, lastResolved := some m.number
      movesDone := if g.measuring then (u.movesDone + 1) % 4294967296 else u.movesDone } := by
  have measuring : (g.clearUnresolved l m).measuring = g.measuring := by cases l <;> rfl
  unfold Garage.countMove
  rw [measuring]
  unfold Garage.clearUnresolved
  cases g.measuring <;> cases l <;> rfl

theorem placeAtDestination_relocation {l : Lift} {m : Move} (h : m.kind = .relocation) (g : Garage) :
    (placeAtDestination l m ⟨g, []⟩).g =
      (((((g.clearUnresolved l m).countMove l).fill m.dest.bayNo m.ticket).release m.source.bayNo m.ticket).modTicket m.ticket
        fun t => { t.placed m.dest.bayNo with relocations := min (t.relocations + 1) 255 }) := by
  unfold placeAtDestination
  dsimp only
  rw [h]
  rfl

theorem placeAtDestination_final {l : Lift} {m : Move} (h : m.kind = .final) (g : Garage) :
    placeAtDestination l m ⟨g, []⟩ = enterReady m.ticket (.lane l)
      ⟨(((g.clearUnresolved l m).countMove l).release m.source.bayNo m.ticket).joinLane l m.ticket, []⟩ := by
  unfold placeAtDestination
  dsimp only
  rw [h]
  rfl

theorem placeAtDestination_park {l : Lift} {m : Move} (h : m.kind = .park) (g : Garage) :
    (placeAtDestination l m ⟨g, []⟩).g = ((g.clearUnresolved l m).countMove l).parked l m := by
  unfold placeAtDestination
  dsimp only
  rw [h]
  rfl

theorem placeAtSource_relocation {l : Lift} {m : Move} (h : m.kind = .relocation) (g : Garage) :
    (placeAtSource l m ⟨g, []⟩).g = (((g.clearUnresolved l m).fill m.source.bayNo m.ticket).release m.dest.bayNo m.ticket).modTicket
      m.ticket fun t => t.placed m.source.bayNo := by
  unfold placeAtSource
  dsimp only [Ev.modG]
  rw [h]

theorem placeAtSource_final {l : Lift} {m : Move} (h : m.kind = .final) (g : Garage) :
    (placeAtSource l m ⟨g, []⟩).g = (((g.clearUnresolved l m).fill m.source.bayNo m.ticket).freeSlot l).modTicket m.ticket
      fun t => t.placed m.source.bayNo := by
  unfold placeAtSource
  dsimp only [Ev.modG]
  rw [h]

theorem placeAtSource_park {l : Lift} {m : Move} {b : Nat} (h : m.kind = .park) (hb : m.dest = .bay b) (g : Garage) :
    let asked := ((g.modLift l fun u => { u with unresolved := none, lastResolved := some m.number }).modTicket m.ticket fun t =>
        { t with state := .allocated, location := .hall l, bay := some b, unresolved := none }).modLift l fun u =>
          { u with parkRequest := some (m.ticket, g.seconds) }
    (∀ x, g.bay b = some x → (placeAtSource l m ⟨g, []⟩).g = asked.reportBay x) ∧
      (g.bay b = none → (placeAtSource l m ⟨g, []⟩).g = asked) ∧ asked.bayRecs = g.bayRecs := by
  intro asked
  have bays : asked.bay b = g.bay b := by cases l <;> rfl
  have e : (placeAtSource l m ⟨g, []⟩).g = match asked.bay b with
      | some x => asked.reportBay x
      | none => asked := by
    unfold placeAtSource
    dsimp only [Ev.modG]
    rw [h, hb]
    cases l <;> rfl
  rw [e, bays]
  exact ⟨fun x hx => by rw [hx], fun hx => by rw [hx], by cases l <;> rfl⟩

/-- Settles O48: a relocation apart from the other two kinds, and each end of each kind of move by its own lemma. -/
theorem unresolved : Obligations.Unresolved := by
  refine ⟨fun l m g t h => ?_, fun l m g => ?_⟩
  · intro k
    have check : (g.inDoubtFrom l m).ticket m.ticket = some (t.toCheck l m) := by rw [Garage.inDoubtFrom_ticket, h]; rfl
    have other := fun hk : m.kind ≠ .relocation => g.leaveUnresolved_lift hk l
    refine ⟨?_, fun hk => ?_, fun e he hk => ?_, fun hk => ?_, fun hk => ?_, fun b bay hb hbay hk => ?_,
      fun b p x hk hb hp ht hx => ⟨?_, Garage.leaveUnresolved_plan hk hp, (Garage.leaveUnresolved_lists hk hp ht).1,
        (Garage.leaveUnresolved_lists hk hp ht).2, fun bay hbay => ?_, fun d hd => ?_, fun r hr hd hn hne ho => ?_,
        Garage.leaveUnresolved_queue hk hp ht hx, fun c => Garage.leaveUnresolved_convoy hk hp ht hx,
        Garage.leaveUnresolved_cancelled hk hp ht hx⟩⟩
    · dsimp only [k]
      rw [Garage.leaveUnresolved_eq, Garage.modLift_lift]
    · obtain ⟨f, e, -⟩ := other hk
      dsimp only [k]
      rw [e, Garage.modLift_ticket, check]
      rfl
    · obtain ⟨f, e', -⟩ := other hk
      dsimp only [k] at he
      rw [e', Garage.modLift_queue] at he
      exact g.inDoubtFrom_queue l m e he
    · obtain ⟨f, e, -, park, -⟩ := other (by rw [hk]; decide)
      dsimp only [k]
      rw [e, Garage.modLift_lift]
      exact park hk _
    · obtain ⟨f, e, -, -, final⟩ := other (by rw [hk]; decide)
      dsimp only [k]
      rw [e, Garage.modLift_lift]
      exact final hk _
    · obtain ⟨f, e, -⟩ := other hk
      dsimp only [k]
      rw [e, Garage.modLift_bay, Garage.inDoubtFrom_bay l hb, if_pos rfl, hbay]
      rfl
    · exact (Garage.leaveUnresolved_check hk hp ht).trans (by rw [h]; rfl)
    · refine Garage.leaveUnresolved_reserved hk hp ?_
      rw [Garage.inDoubtFrom_bay l hb, if_pos rfl, hbay]
      rfl
    · refine Garage.leaveUnresolved_reserved hk hp ?_
      rw [Garage.inDoubtFrom_bay l hb]
      split
      · cases hg : g.bay d with
        | none => rw [hg] at hd; cases hd
        | some y => rfl
      · exact hd
    · refine (Garage.leaveUnresolved_occ hk hp r.dest).trans (if_pos ⟨r, Plan.mem_marked hr hn, hd, rfl, ?_⟩)
      rw [Garage.inDoubtFrom_bay l hb, if_neg hne]
      exact ho
  · intro cleared counted parkedIn
    refine ⟨fun a b hk ha hb => ⟨?_, ?_⟩, fun a hk ha => ⟨?_, ?_⟩, fun b hk hb => ⟨?_, ?_⟩⟩
    · rw [placeAtDestination_relocation hk, Garage.clearUnresolved_countMove, ha, hb]
      rfl
    · rw [placeAtSource_relocation hk, ha, hb]
      rfl
    · rw [placeAtDestination_final hk, Garage.clearUnresolved_countMove, ha]
      rfl
    · rw [placeAtSource_final hk, ha]
      cases l <;> rfl
    · rw [placeAtDestination_park hk, Garage.clearUnresolved_countMove]
      unfold Garage.parked
      rw [hb]
      cases l <;> rfl
    · intro asked
      obtain ⟨loaded, absent, bays⟩ := placeAtSource_park hk hb g (l := l)
      cases hg : g.bay b with
      | none => exact ⟨absent hg, by rw [absent hg, bays]⟩
      | some x => exact ⟨loaded x hg, by rw [loaded x hg, Garage.reportBay_eq]; exact bays⟩

end Sys2Proof.Machine

namespace Sys2Proof.Machine

/-! ### The blocking term (R52) -/

theorem quarterHours_le (late : Nat) : quarterHours late ≤ 16 := Nat.min_le_right _ _

/-- R52: u_k from the difference of the estimates, which may be negative. -/
theorem quarterHours_sub (estimate theirs : Nat) : quarterHours (estimate - theirs) =
    let late : Int := (estimate : Int) - (theirs : Int)
    if 0 < late then (if 16 < (late.toNat + 14) / 15 then 16 else (late.toNat + 14) / 15) else 0 := by
  unfold quarterHours
  dsimp only
  rw [Int.toNat_sub]
  split
  · split <;> omega
  · omega

/-- R52: u_k for the car in a bay, when there is one. -/
def Garage.lateness (g : Garage) (estimate : Nat) (x : Nat × Bay) : Option Nat :=
  (x.2.occ.occupant.bind g.ticket).map fun k => quarterHours (estimate - k.estimate)

theorem Garage.lateness_le (g : Garage) {estimate u : Nat} {x : Nat × Bay} (h : g.lateness estimate x = some u) :
    u ≤ 16 := by
  obtain ⟨k, -, rfl⟩ := Option.map_eq_some_iff.mp h
  exact quarterHours_le _

/-- A fold that adds what some elements give is the sum of what they give. -/
theorem foldl_eq_sum {α : Type} (f : α → Option Nat) (step : Nat → α → Nat)
    (adds : ∀ u x, step u x = u + (f x).getD 0) (l : List α) (u : Nat) : l.foldl step u = u + (l.filterMap f).sum := by
  induction l generalizing u with
  | nil => rfl
  | cons x rest ih =>
    rw [List.foldl_cons, ih, adds, List.filterMap_cons]
    cases f x with
    | none => rfl
    | some k => exact Nat.add_assoc u k _

theorem Garage.blockedCars_eq_sum (g : Garage) (b : Bay) (estimate : Nat) :
    g.blockedCars b estimate = ((g.deeper b).filterMap (g.lateness estimate)).sum := by
  unfold Garage.blockedCars
  rw [foldl_eq_sum (g.lateness estimate), Nat.zero_add]
  intro u x
  unfold Garage.lateness
  cases x.2.occ.occupant.bind g.ticket <;> rfl

theorem Garage.blockedCars_le (g : Garage) (b : Bay) (estimate : Nat) :
    g.blockedCars b estimate ≤ (g.deeper b).length * 16 := by
  rw [g.blockedCars_eq_sum]
  have each : ∀ u ∈ (g.deeper b).filterMap (g.lateness estimate), u ≤ 16 := fun u hu => by
    obtain ⟨x, -, hx⟩ := List.mem_filterMap.mp hu
    exact g.lateness_le hx
  exact (List.sum_le_card_nsmul _ 16 each).trans (Nat.mul_le_mul_right 16 (List.length_filterMap_le _ _))

/-- Settles O53: the fold over the deeper bays as a sum, with at most 16 for each of them. -/
theorem blockingTerm : Obligations.BlockingTerm := by
  intro g b estimate
  refine ⟨congrArg (g.weights.wB * ·) ?_, fun two => ?_⟩
  · rw [g.blockedCars_eq_sum, Garage.deeper, List.filterMap_filter]
    refine congrArg List.sum (List.filterMap_congr fun x _ => ?_)
    simp only [Bool.and_eq_true, beq_iff_eq, decide_eq_true_eq, Garage.lateness, quarterHours_sub]
    cases x.2.occ <;> rfl
  · have bound : g.blockedCars b estimate ≤ 32 :=
      (g.blockedCars_le b estimate).trans (Nat.mul_le_mul_right 16 two)
    exact ⟨bound, fun weight => Nat.mul_le_mul weight bound⟩

end Sys2Proof.Machine

namespace Sys2Proof.Machine

/-! ### The depth term (R53) -/

theorem distance_eq_abs (p q : Nat) : (distance p q : Int) = |(p : Int) - (q : Int)| := by
  unfold distance
  rcases abs_cases ((p : Int) - (q : Int)) with ⟨h, _⟩ | ⟨h, _⟩ <;> omega

theorem distance_eq_natAbs (p q : Nat) : distance p q = ((p : Int) - (q : Int)).natAbs := by
  unfold distance
  omega

theorem distance_self (p : Nat) : distance p p = 0 := by
  unfold distance
  omega

/-- R53: the suited position is one of the three, and no deeper than the stack. -/
theorem Garage.suited_range (g : Garage) (estimate : Nat) {depth : Nat} (h : 1 ≤ depth) :
    1 ≤ g.suited estimate depth ∧ g.suited estimate depth ≤ 3 := by
  unfold Garage.suited
  dsimp only
  split
  · omega
  · split <;> omega

/-- R53: the suited position from the stay ahead, which is 0 for an estimate that lies in the past. -/
theorem Garage.suited_eq (g : Garage) (estimate depth : Nat) : g.suited estimate depth =
    let late : Int := (estimate : Int) - (g.minute : Int)
    let stay := if late < 0 then 0 else late.toNat
    let q := if stay < g.limits.t1 then 1 else if stay < g.limits.t2 then 2 else 3
    if depth < q then depth else q := by
  unfold Garage.suited
  dsimp only
  have ahead : (if (estimate : Int) - g.minute < 0 then 0 else ((estimate : Int) - g.minute).toNat) =
      estimate - g.minute := by
    split <;> omega
  rw [ahead]
  generalize (if estimate - g.minute < g.limits.t1 then 1 else if estimate - g.minute < g.limits.t2 then 2 else 3) = q
  split <;> omega

theorem Garage.suited_past (g : Garage) {estimate depth : Nat} (past : estimate ≤ g.minute) (h1 : 1 ≤ g.limits.t1)
    (hd : 1 ≤ depth) : g.suited estimate depth = 1 := by
  unfold Garage.suited
  dsimp only
  rw [Nat.sub_eq_zero_of_le past, if_pos (show 0 < g.limits.t1 from h1)]
  exact Nat.min_eq_left hd

/-- Settles O54: two positions among the first three lie at most 2 apart. -/
theorem depthTerm : Obligations.DepthTerm := by
  intro g estimate depth position hd hp hp3 hw late stay q suited
  have eq : g.suited estimate depth = suited := g.suited_eq estimate depth
  obtain ⟨low, high⟩ := g.suited_range estimate hd
  refine ⟨eq, ?_, fun lands => ?_, ?_, fun past ht => g.suited_past past ht hd⟩
  · rw [← eq, ← distance_eq_abs, Nat.cast_mul]
  · rw [eq, ← lands, distance_self, Nat.mul_zero]
  · have near : distance position (g.suited estimate depth) ≤ 2 := by
      unfold distance
      omega
    exact Nat.mul_le_mul hw near

end Sys2Proof.Machine

namespace Sys2Proof.Machine

/-! ### The winner of the allocator (R56) -/

/-- R56: a candidate is no worse than another: a lower score, or the same score and no higher bay number. -/
def NoWorse (x y : Nat × Nat) : Prop := x.2 < y.2 ∨ (x.2 = y.2 ∧ x.1 ≤ y.1)

theorem NoWorse.refl (x : Nat × Nat) : NoWorse x x := .inr ⟨rfl, Nat.le_refl _⟩

theorem NoWorse.trans {x y z : Nat × Nat} (h : NoWorse x y) (k : NoWorse y z) : NoWorse x z := by
  unfold NoWorse at *
  omega

theorem betterBay_cases (x y : Nat × Nat) :
    (betterBay x y = x ∧ NoWorse x y) ∨ (betterBay x y = y ∧ NoWorse y x) := by
  unfold betterBay NoWorse
  split
  · exact .inr ⟨rfl, by omega⟩
  · exact .inl ⟨rfl, by omega⟩

/-- Folding with the better of two gives one of the candidates, and none is better. -/
theorem foldl_betterBay (rest : List (Nat × Nat)) (c : Nat × Nat) :
    rest.foldl betterBay c ∈ c :: rest ∧ ∀ x ∈ c :: rest, NoWorse (rest.foldl betterBay c) x := by
  induction rest generalizing c with
  | nil => exact ⟨List.mem_singleton.mpr rfl, fun x hx => List.mem_singleton.mp hx ▸ NoWorse.refl _⟩
  | cons y rest ih =>
    obtain ⟨mem, best⟩ := ih (betterBay c y)
    have first := best _ List.mem_cons_self
    have others : ∀ x ∈ rest, NoWorse (rest.foldl betterBay (betterBay c y)) x :=
      fun x hx => best x (List.mem_cons_of_mem _ hx)
    rw [List.foldl_cons]
    rcases betterBay_cases c y with ⟨e, hc⟩ | ⟨e, hc⟩
    all_goals
      rw [e] at mem first others ⊢
      simp only [List.mem_cons, forall_eq_or_imp] at mem ⊢
    · exact ⟨by tauto, first, first.trans hc, others⟩
    · exact ⟨by tauto, first.trans hc, first, others⟩

/-- The candidates that the stacks in scope offer (R48, R50). -/
def Garage.offered (g : Garage) (sc : Scope) (cls : CarClass) (estimate : Nat) : List (Nat × Nat) :=
  g.stackRecs.filterMap fun kv =>
    if sc.examines g kv.1 kv.2 then g.candidate cls estimate sc.isRelocation kv.1 kv.2 else none

theorem Garage.mem_offered (g : Garage) (sc : Scope) (cls : CarClass) (estimate : Nat) (x : Nat × Nat) :
    x ∈ g.offered sc cls estimate ↔ ∃ kv ∈ g.stackRecs, sc.examines g kv.1 kv.2 = true ∧
      g.candidate cls estimate sc.isRelocation kv.1 kv.2 = some x := by
  unfold Garage.offered
  simp only [List.mem_filterMap, Option.ite_none_right_eq_some]

section
variable {g : Garage} {sc : Scope} {cls : CarClass} {estimate : Nat}

theorem Garage.choose_of_nil (h : g.offered sc cls estimate = []) : g.choose sc cls estimate = none := by
  unfold Garage.offered at h
  unfold Garage.choose
  dsimp only
  rw [h]

theorem Garage.choose_of_cons {c : Nat × Nat} {rest : List (Nat × Nat)} (h : g.offered sc cls estimate = c :: rest) :
    g.choose sc cls estimate = some (rest.foldl betterBay c) := by
  unfold Garage.offered at h
  unfold Garage.choose
  dsimp only
  rw [h]

theorem Garage.choose_none : g.choose sc cls estimate = none ↔ g.offered sc cls estimate = [] := by
  refine ⟨fun h => ?_, Garage.choose_of_nil⟩
  cases offers : g.offered sc cls estimate with
  | nil => rfl
  | cons c rest => rw [Garage.choose_of_cons offers] at h; cases h

/-- R56: the choice is among the offers, and none is better. -/
theorem Garage.choose_some {w : Nat × Nat} (h : g.choose sc cls estimate = some w) :
    w ∈ g.offered sc cls estimate ∧ ∀ x ∈ g.offered sc cls estimate, NoWorse w x := by
  cases offers : g.offered sc cls estimate with
  | nil => rw [Garage.choose_of_nil offers] at h; cases h
  | cons c rest =>
    rw [Garage.choose_of_cons offers] at h
    obtain rfl : rest.foldl betterBay c = w := Option.some.inj h
    exact foldl_betterBay rest c

end

/-! ### The scopes of a choice (R48) -/

theorem Scope.onLift_examines (g : Garage) (l : Lift) (n : Nat) (st : Stack) :
    (Scope.onLift l).examines g n st = true ↔ ∃ z, g.zoneRecs.find st.zone = some z ∧ z.lift = l := by
  simp [Scope.examines]

theorem Scope.relocation_examines (g : Garage) (z x n : Nat) (st : Stack) :
    (Scope.relocation z x).examines g n st = true ↔ st.zone = z ∧ n ≠ x := by
  simp [Scope.examines]

theorem Scope.isRelocation_iff (sc : Scope) : sc.isRelocation = true ↔ ∃ z x, sc = .relocation z x := by
  cases sc <;> simp [Scope.isRelocation]

/-! ### The candidate of a stack (R50, R51) -/

/-- R50 ❶ ❷: what excludes a bay's stack. -/
theorem Garage.excludes_iff (g : Garage) (b : Bay) : g.excludes b = true ↔ (∃ m, b.occ = .reserved m) ∨
    ∃ m t, b.occ = .occupied m ∧ g.ticket m = some t ∧ t.state ∈ [.queued, .retrieving, .held] := by
  unfold Garage.excludes
  cases b.occ with
  | free => simp
  | reserved m => simp
  | occupied m => cases h : g.ticket m <;> simp [h, or_assoc]

theorem Garage.excluded_iff (g : Garage) (n : Nat) : (g.bayRecs.any fun x => x.2.stack == n && g.excludes x.2) = true ↔
    ∃ x ∈ g.bayRecs, x.2.stack = n ∧ ((∃ m, x.2.occ = .reserved m) ∨
      ∃ m t, x.2.occ = .occupied m ∧ g.ticket m = some t ∧ t.state ∈ [.queued, .retrieving, .held]) := by
  rw [List.any_eq_true]
  simp only [Bool.and_eq_true, beq_iff_eq, g.excludes_iff]

theorem Garage.bayAt_eq_find (g : Garage) (n i : Nat) :
    g.bayAt n i = g.bayRecs.find? fun x => decide (x.2.stack = n ∧ x.2.position = i) := by
  unfold Garage.bayAt Garage.baysAt
  rw [List.head?_filter]
  congr 1
  funext x
  exact (Bool.decide_and _ _).symm

theorem Garage.bayAt_position {g : Garage} {n i : Nat} {x : Nat × Bay} (h : g.bayAt n i = some x) : x.2.position = i := by
  rw [g.bayAt_eq_find] at h
  have found := List.find?_some h
  exact (of_decide_eq_true found).2

theorem Garage.openAt_iff (g : Garage) (n i : Nat) :
    g.openAt n i = true ↔ ∃ x, g.bayAt n i = some x ∧ x.2.service = .inService ∧ x.2.occ = .free := by
  unfold Garage.openAt
  cases g.bayAt n i <;> simp

/-- R50 ❸: a run of open bays ends at the depth of the stack, or at the first bay that is not open. -/
theorem Garage.openRun_eq (g : Garage) (n : Nat) {depth p pos : Nat} (le : p ≤ depth)
    (before : ∀ i, pos ≤ i → i < pos + p → g.openAt n i = true)
    (stop : p = depth ∨ ¬ g.openAt n (pos + p) = true) :
    g.openRun n depth pos = p := by
  induction depth generalizing p pos with
  | zero => exact (Nat.le_zero.mp le).symm
  | succ depth ih =>
    unfold Garage.openRun
    cases p with
    | zero => exact if_neg (stop.resolve_left (by omega))
    | succ p =>
      rw [if_pos (before pos (Nat.le_refl _) (by omega)),
        ih (Nat.le_of_succ_le_succ le) (fun i h1 h2 => before i (by omega) (by omega))
          (stop.imp (by omega) (by rw [Nat.add_right_comm]; exact id))]

theorem fits_iff (cls : CarClass) (reloc : Bool) (b : Bay) :
    fits cls reloc b = true ↔ (cls = .l → b.large = true) ∧ (reloc = false → b.swap = false) := by
  unfold fits
  cases reloc <;> cases b.swap <;> simp [imp_iff_not_or]

section
variable {g : Garage} {cls : CarClass} {estimate n : Nat} {reloc : Bool} {st : Stack}

theorem Garage.candidate_excluded (h : (g.bayRecs.any fun x => x.2.stack == n && g.excludes x.2) = true) :
    g.candidate cls estimate reloc n st = none := if_pos h

theorem Garage.candidate_shut (h : ¬ g.openAt n 1 = true) : g.candidate cls estimate reloc n st = none := by
  have run : g.openRun n st.depth 1 = 0 := g.openRun_eq n (Nat.zero_le _) (fun i _ _ => by omega) (.inr h)
  unfold Garage.candidate
  rw [run]
  exact ite_self none

/-- R50, R51: the deepest bay that the car can reach is the candidate when it fits. -/
theorem Garage.candidate_open {p k : Nat} {b : Bay} {z : Zone}
    (h : ¬ (g.bayRecs.any fun x => x.2.stack == n && g.excludes x.2) = true) (hp : 1 ≤ p)
    (run : g.openRun n st.depth 1 = p) (hb : g.bayAt n p = some (k, b)) (hz : g.zoneRecs.find st.zone = some z) :
    g.candidate cls estimate reloc n st =
      if fits cls reloc b then some (k, g.score cls estimate reloc st z b) else none := by
  obtain ⟨q, rfl⟩ := Nat.exists_eq_add_of_le' hp
  unfold Garage.candidate
  rw [if_neg h, run]
  dsimp only
  rw [hb, hz]

end

/-! ### The score (R54 to R56) -/

theorem Garage.load_eq (g : Garage) (l : Lift) : g.load l = min ((g.tickets.filter fun x =>
    (x.2.state == .queued || x.2.state == .retrieving) && x.2.bay.bind g.liftOfBay == some l).length
      + (if (g.lift l).parkRequest = none then 0 else 1)) 31 := by
  unfold Garage.load
  cases (g.lift l).parkRequest <;> rfl

theorem Garage.score_eq (g : Garage) (cls : CarClass) (estimate : Nat) (reloc : Bool) (st : Stack) (z : Zone) (b : Bay) :
    g.score cls estimate reloc st z b = g.weights.wB * g.blockedCars b estimate
      + g.weights.wD * ((b.position : Int) - (g.suited estimate st.depth : Int)).natAbs
      + (if reloc = true then 0 else g.weights.wL * g.load z.lift) + z.cost
      + (if cls = .e then (if b.charger = true then 0 else g.weights.wE) else if b.charger = true then g.weights.wC else 0)
      + (if cls ≠ .l ∧ b.large = true then g.weights.wS else 0) := by
  rw [← distance_eq_natAbs]
  rfl

/-- Settles O52: the fold over the offers for the winner, and the run of open bays for the candidate. -/
theorem allocatorWinner : Obligations.AllocatorWinner := by
  refine ⟨fun g sc cls estimate => ?_, fun g cls estimate n st => ?_⟩
  · intro offers
    have mem : ∀ x, x ∈ g.offered sc cls estimate ↔ offers x := g.mem_offered sc cls estimate
    refine ⟨fun w hw => ?_, ?_⟩
    · obtain ⟨won, best⟩ := Garage.choose_some hw
      exact ⟨(mem w).mp won, fun x hx => best x ((mem x).mpr hx)⟩
    · rw [Garage.choose_none, List.eq_nil_iff_forall_not_mem, not_exists]
      exact forall_congr' fun x => not_congr (mem x)
  · intro at' opened closed load score
    have opens : ∀ i, g.openAt n i = true ↔ opened i := fun i => by rw [g.openAt_iff, g.bayAt_eq_find]
    have closes := g.excluded_iff n
    refine ⟨rfl, fun l => Scope.onLift_examines g l n st, fun z x => Scope.relocation_examines g z x n st,
      Scope.isRelocation_iff, fun reloc => ⟨?_, fun p k b z hc h1 hd run stop hb hz => ?_⟩⟩
    · rintro (hc | ho)
      · exact Garage.candidate_excluded (closes.mpr hc)
      · exact Garage.candidate_shut fun h => ho ((opens 1).mp h)
    · intro fit
      have bayAt : g.bayAt n p = some (k, b) := (g.bayAt_eq_find n p).trans hb
      have reach : g.openRun n st.depth 1 = p := g.openRun_eq n hd
        (fun i hi hp => (opens i).mpr (run i hi (by omega)))
        (stop.imp id fun hs h => hs ((opens (p + 1)).mp (by rwa [Nat.add_comm 1 p] at h)))
      have scored : g.score cls estimate reloc st z b = score reloc z b p := by
        rw [g.score_eq, g.load_eq, Garage.bayAt_position bayAt]
      rw [Garage.candidate_open (fun h => hc (closes.mp h)) h1 reach bayAt hz, scored]
      exact ⟨fun h => if_pos ((fits_iff cls reloc b).mpr h), fun h => if_neg fun k => h ((fits_iff cls reloc b).mp k)⟩

end Sys2Proof.Machine

namespace Sys2Proof.Machine

/-! ### The hook for a ticket (R87) -/

theorem inRange_iff (range : Option (Nat × Nat)) (h : Nat) :
    inRange range h = true ↔ ∃ a b, range = some (a, b) ∧ a ≤ h ∧ h ≤ b := by
  rcases range with _ | ⟨a, b⟩ <;> simp [inRange]

section
variable {g : Garage} {ok : Nat → Bool} {range : Option (Nat × Nat)}

theorem Garage.lowestFreeHook_first {a b : List (Nat × Hook)} {x : Nat × Hook} (e : g.hooks = a ++ x :: b)
    (free : x.2.state = .free) (hx : ok x.1 = true) (before : ∀ y ∈ a, ¬ (y.2.state = .free ∧ ok y.1 = true)) :
    g.lowestFreeHook ok = some x.1 := by
  unfold Garage.lowestFreeHook
  rw [e, find_first (by simp [free, hx]) (fun y hy => by simpa using before y hy)]
  rfl

theorem Garage.lowestFreeHook_none (h : ∀ y ∈ g.hooks, ¬ (y.2.state = .free ∧ ok y.1 = true)) :
    g.lowestFreeHook ok = none := by
  unfold Garage.lowestFreeHook
  rw [List.find?_eq_none.mpr fun y hy => by simpa using h y hy]
  rfl

theorem Garage.chooseHook_inside {h : Nat} (found : g.lowestFreeHook (inRange range) = some h) :
    g.chooseHook range = some (h, false) := by
  unfold Garage.chooseHook
  rw [found]

theorem Garage.chooseHook_outside (none : g.lowestFreeHook (inRange range) = none) :
    g.chooseHook range = (g.lowestFreeHook fun _ => true).map fun h => (h, true) := by
  unfold Garage.chooseHook
  rw [none]

end

/-! ### An ARRIVAL that fails a check (R62, R66, R67) -/

theorem classOf_isSome {k : Nat} (h : k ≤ 2) : ∃ cls, classOf k = some cls := by
  interval_cases k
  all_goals exact ⟨_, rfl⟩

theorem classOf_none {k : Nat} (h : 2 < k) : classOf k = none := by
  obtain ⟨j, rfl⟩ := Nat.exists_eq_add_of_le' h
  rfl

section
variable {c : Caller} {pl : List Byte} {e : Ev}

theorem arrive_number (h : u16 pl 0 = 0) : arrive c pl e = e.badRequest c Kind.arrival 0 := if_pos h

theorem arrive_tag (hn : u16 pl 0 ≠ 0) (h : u32 pl 2 = 0) : arrive c pl e = e.badRequest c Kind.arrival 2 :=
  (if_neg hn).trans (if_pos h)

theorem arrive_class (hn : u16 pl 0 ≠ 0) (ht : u32 pl 2 ≠ 0) (h : classOf (u8 pl 6) = none) :
    arrive c pl e = e.badRequest c Kind.arrival 6 := by
  unfold arrive
  rw [if_neg hn, if_neg ht, h]

theorem arrive_checked {cls : CarClass} (hn : u16 pl 0 ≠ 0) (ht : u32 pl 2 ≠ 0) (h : classOf (u8 pl 6) = some cls) :
    arrive c pl e = arriveChecked c (u16 pl 0) (u32 pl 2) cls (min (u8 pl 7) 7) (u16 pl 8) e := by
  unfold arrive
  rw [if_neg hn, if_neg ht, h]

end

section
variable {c : Caller} {n tag prio hint : Nat} {cls : CarClass} {e : Ev}

/-- R67: a live number, a live tag, or both, and what stands in the way. -/
theorem arriveChecked_duplicate {live : Bool} {holder : Option Nat} {shown : Nat} (hl : (e.g.ticket n).isSome = live)
    (hh : (e.g.tickets.findKey fun t => t.tag == tag) = holder) (h : (live || holder.isSome) = true)
    (hs : (if live then n else 0) = shown) : arriveChecked c n tag cls prio hint e = e.reply c Kind.arrival .duplicate
      (w8 (flagCode live + 2 * flagCode holder.isSome) ++ w16 shown ++ w16 (orZero holder)) := by
  subst hl hh hs
  exact if_pos h

/-- R67: neither the number nor the tag is live. -/
structure Garage.Unknown (g : Garage) (n tag : Nat) : Prop where
  number : g.ticket n = none
  tag : (g.tickets.findKey fun t => t.tag == tag) = none

theorem Garage.Unknown.passes (h : e.g.Unknown n tag) :
    ¬ ((e.g.ticket n).isSome || (e.g.tickets.findKey fun t => t.tag == tag).isSome) = true := by
  rw [h.number, h.tag]
  decide

theorem arriveChecked_tableFull (h : e.g.Unknown n tag) (hc : 320 ≤ e.g.tickets.length) :
    arriveChecked c n tag cls prio hint e = e.reply c Kind.arrival .noHook [] :=
  (if_neg h.passes).trans (if_pos hc)

variable (h : e.g.Unknown n tag) (hc : e.g.tickets.length < 320)
include h hc

/-! ### An ARRIVAL that passes the checks (R49, R66, R68) -/

theorem arriveChecked_bay {x : Nat × Nat}
    (hx : e.g.choose .everywhere cls (e.g.formEstimate (e.g.stayUsed hint)) = some x) :
    arriveChecked c n tag cls prio hint e = admitCar c n tag cls prio (e.g.stayUsed hint)
      (e.g.formEstimate (e.g.stayUsed hint)) (some x) (e.modG fun g => g.reserve x.1 n) := by
  unfold arriveChecked
  dsimp only
  rw [if_neg h.passes, if_neg (show ¬ Config.ticketCapacity ≤ _ from Nat.not_le.mpr hc), hx]

theorem arriveChecked_lot (hx : e.g.choose .everywhere cls (e.g.formEstimate (e.g.stayUsed hint)) = none)
    (room : e.g.overflowCount < e.g.limits.overflowCapacity) :
    arriveChecked c n tag cls prio hint e = admitCar c n tag cls prio (e.g.stayUsed hint)
      (e.g.formEstimate (e.g.stayUsed hint)) none e := by
  unfold arriveChecked
  dsimp only
  rw [if_neg h.passes, if_neg (show ¬ Config.ticketCapacity ≤ _ from Nat.not_le.mpr hc), hx]
  exact if_pos room

theorem arriveChecked_full (hx : e.g.choose .everywhere cls (e.g.formEstimate (e.g.stayUsed hint)) = none)
    (room : ¬ e.g.overflowCount < e.g.limits.overflowCapacity) :
    arriveChecked c n tag cls prio hint e = e.reply c Kind.arrival .full (w16 (e.g.stayUsed hint)) := by
  unfold arriveChecked
  dsimp only
  rw [if_neg h.passes, if_neg (show ¬ Config.ticketCapacity ≤ _ from Nat.not_le.mpr hc), hx]
  exact if_neg room

end

/-! ### The admission (R69 to R71) -/

/-- R70, R87: the record is made, and the hook RESERVED for it. -/
def Garage.register (g : Garage) (n h : Nat) (t : Ticket) : Garage :=
  ({ g with tickets := g.tickets.put n t } : Garage).tieHook h n

section
variable {c : Caller} {n tag prio stay estimate h : Nat} {cls : CarClass} {e : Ev} {out : Bool}

theorem admitCar_lot_noHook (hh : e.g.chooseHook e.g.rangeO = none) :
    admitCar c n tag cls prio stay estimate none e = e.reply c Kind.arrival .noHook [] := by
  unfold admitCar
  dsimp only [Option.map, Option.bind, Garage.rangeFor]
  rw [hh]
  rfl

theorem admitCar_lot (hh : e.g.chooseHook e.g.rangeO = some (h, out)) :
    admitCar c n tag cls prio stay estimate none e =
      let t := newTicket tag cls prio e.g.minute estimate c.station none .lot h out e.g.measuring
      allocation c Kind.arrival n t none stay (e.modG fun g => g.register n h t) := by
  unfold admitCar
  dsimp only [Option.map, Option.bind, Garage.rangeFor]
  rw [hh]
  rfl

variable {b score : Nat} {l : Lift} (hl : e.g.liftOfBay b = some l)
include hl

theorem admitCar_bay_noHook (hh : e.g.chooseHook (e.g.rangeFor (some l)) = none) :
    admitCar c n tag cls prio stay estimate (some (b, score)) e =
      (e.modG fun g => g.release b n).reply c Kind.arrival .noHook [] := by
  unfold admitCar
  dsimp only [Option.map, Option.bind]
  rw [hl, hh]

theorem admitCar_bay (hh : e.g.chooseHook (e.g.rangeFor (some l)) = some (h, out)) :
    admitCar c n tag cls prio stay estimate (some (b, score)) e =
      let t := newTicket tag cls prio e.g.minute estimate c.station (some b) (.hall l) h out e.g.measuring
      allocation c Kind.arrival n t (some (b, score)) stay (e.modG fun g => g.register n h t) := by
  unfold admitCar Garage.hallFor
  dsimp only [Option.map, Option.bind]
  rw [hl, hh]
  rfl

end

/-- What ALLOCATION says of a loaded bay on a lift (R201). -/
theorem allocationPlace_bay {g : Garage} {b : Nat} {bay : Bay} {l : Lift} (hb : g.bay b = some bay)
    (hl : g.liftOfBay b = some l) (score : Nat) : allocationPlace g (some (b, score)) =
      [0] ++ w16 b ++ w8 (liftCode l) ++ w8 bay.stack ++ w8 bay.position ++ w16 score := by
  unfold allocationPlace
  dsimp only
  rw [hb, hl]
  rfl

/-- ALLOCATION, from what it says of the car's place (R201). -/
theorem allocation_eq {c : Caller} {kind : Byte} {n stay : Nat} {t : Ticket} {choice : Option (Nat × Nat)} {g : Garage}
    {place : List Byte} (h : allocationPlace g choice = place) : allocation c kind n t choice stay ⟨g, []⟩ =
      ⟨g, [⟨.reply c.port c.station, Kind.allocation, [kind, 0] ++ w16 n ++ w32 t.tag ++ place ++ w16 t.hook
        ++ wFlag t.outOfRange ++ w16 stay ++ w32 t.estimate ++ w8 t.defaultPriority, .plain⟩]⟩ := by
  subst h
  rfl

/-! ### ARRIVAL as a whole -/

section
variable {s : State} {st : Station} {pl : List Byte} (flags : Byte) (ask : AskedBy s st .podium)
  (hm : s.garage.mode = .service) (hl : pl.length = 10)
include hm hl

theorem arrival_passes : Passes s Kind.arrival pl :=
  Passes.of_length hl (by rw [hm]; decide) rfl rfl (by decide) (by decide)

include ask

theorem arrival_replies {g : Garage} {r : Result} {detail : List Byte}
    (h : arrive ⟨.s, st.number, st.role⟩ pl ⟨s.garage, []⟩ = ⟨g, [replyOut st Kind.arrival r detail]⟩) :
    Replies (exec (.arrival .s flags pl) s) s st g.afterwards Kind.arrival r detail :=
  Replies.of_work ask rfl (by decide) (arrival_passes hm hl) h

theorem arrival_allocates {g : Garage} {payload : List Byte} (h : arrive ⟨.s, st.number, st.role⟩ pl ⟨s.garage, []⟩ =
      ⟨g, [⟨.reply .s st.number, Kind.allocation, payload, .plain⟩]⟩) :
    ∃ t, exec (.arrival .s flags pl) s = .next t ∧ t.garage = g.afterwards ∧
      AnsweredWith s t st (originated st.number Kind.allocation payload) := by
  obtain ⟨t, more, comes⟩ := s.work_comes st .podium Kind.arrival flags pl arrive ask rfl (by decide)
    (arrival_passes hm hl)
  rw [h] at comes
  exact ⟨t, comes.next, comes.garage, comes.heard, comes.answers _ _ _ _ more rfl (by decide)⟩

end

/-- Settles O22: each check of an ARRIVAL, the three fates of its car, and the hook, by a lemma each. -/
theorem arrivalAnswered : Obligations.ArrivalAnswered := by
  refine ⟨fun s st flags pl cls ask hm hl => ?_, fun s st flags pl ask hm hl => ?_, fun g range => ?_⟩
  · intro g n tag hn ht hc number tags room prio stay estimate made tie answer exec'
    have unknown : g.Unknown n tag := ⟨number, findKey_tag tags⟩
    have checked := arrive_checked (c := ⟨.s, st.number, st.role⟩) (e := ⟨g, []⟩) hn ht hc
    refine ⟨fun b bay l score hx hb hlift => ?_, fun hx below => ⟨fun h out hh => ?_, fun hh => ?_⟩,
      fun hx taken => ?_⟩
    · have chosen := checked.trans (arriveChecked_bay unknown room hx)
      have lift : (g.reserve b n).liftOfBay b = some l := (reserve_lift g b n b).trans hlift
      have place : (g.reserve b n).bay b = some { bay with occ := .reserved n } := by
        rw [reserve_bay, if_pos rfl, hb]
        rfl
      refine ⟨fun h out hh => ?_, fun hh => ?_⟩
      · exact arrival_allocates flags ask hm hl (chosen.trans
          ((admitCar_bay lift hh).trans (allocation_eq (allocationPlace_bay place lift score))))
      · exact arrival_replies flags ask hm hl (chosen.trans (admitCar_bay_noHook lift hh))
    · exact arrival_allocates flags ask hm hl ((checked.trans (arriveChecked_lot unknown room hx below)).trans
        ((admitCar_lot hh).trans (allocation_eq rfl)))
    · exact arrival_replies flags ask hm hl ((checked.trans (arriveChecked_lot unknown room hx below)).trans
        (admitCar_lot_noHook hh))
    · exact arrival_replies flags ask hm hl (checked.trans (arriveChecked_full unknown room hx taken))
  · intro g n tag answers
    refine ⟨fun hn => arrival_replies flags ask hm hl (arrive_number hn),
      fun hn ht => arrival_replies flags ask hm hl (arrive_tag hn ht),
      fun hn ht hc => arrival_replies flags ask hm hl (arrive_class hn ht (classOf_none hc)), fun hn ht hc => ?_⟩
    obtain ⟨cls, known⟩ := classOf_isSome hc
    have checked := arrive_checked (c := ⟨.s, st.number, st.role⟩) (e := ⟨g, []⟩) hn ht known
    refine ⟨fun t live tags => ?_, fun m dead holder => ?_, fun t m live holder => ?_, fun dead tags full => ?_⟩
    · exact arrival_replies flags ask hm hl (checked.trans
        (arriveChecked_duplicate (live := true) (shown := n) (congrArg Option.isSome live) (findKey_tag tags) rfl rfl))
    · exact arrival_replies flags ask hm hl (checked.trans
        (arriveChecked_duplicate (live := false) (holder := some m) (shown := 0)
          (congrArg Option.isSome dead) holder rfl rfl))
    · exact arrival_replies flags ask hm hl (checked.trans
        (arriveChecked_duplicate (live := true) (holder := some m) (shown := n)
          (congrArg Option.isSome live) holder rfl rfl))
    · exact arrival_replies flags ask hm hl (checked.trans
        (arriveChecked_tableFull ⟨dead, findKey_tag tags⟩ full))
  · intro free inside
    have inside_iff : ∀ y : Nat × Hook, inRange range y.1 = true ↔ inside y := fun y => inRange_iff range y.1
    refine ⟨rfl, rfl, rfl, fun a x b e hx hin before => ?_, fun a x b e hx outside before => ?_, fun none => ?_⟩
    · exact Garage.chooseHook_inside (Garage.lowestFreeHook_first e hx ((inside_iff x).mpr hin)
        fun y hy h => before y hy ⟨h.1, (inside_iff y).mp h.2⟩)
    · have shut := Garage.lowestFreeHook_none fun y hy h => outside y hy ⟨h.1, (inside_iff y).mp h.2⟩
      rw [Garage.chooseHook_outside shut,
        Garage.lowestFreeHook_first e hx rfl fun y hy h => before y hy h.1]
      rfl
    · rw [Garage.chooseHook_outside (Garage.lowestFreeHook_none fun y hy h => none y hy h.1),
        Garage.lowestFreeHook_none fun y hy h => none y hy h.1]
      rfl

end Sys2Proof.Machine

namespace Sys2Proof.Machine

/-! ### LIFT_STATUS (R121) -/

theorem liftStatus_passes {s : State} {pl : List Byte} (hl : pl.length = 1) (h : u8 pl 0 ≤ 1) :
    Passes s Kind.liftStatus pl where
  mode := takenIn_both _ (by decide)
  shape := by
    have code : decide (1 < u8 pl 0) = false := decide_eq_false (Nat.not_lt.mpr h)
    unfold wellShaped
    rw [code, hl]
    rfl
  fits := by omega

/-- R121: the readiness is recorded, and a lift at work, FAULTED or OUT keeps its state. -/
theorem LiftUnit.reported_eq (u : LiftUnit) (ready : Bool) : u.reported ready = { u with
    readiness := if ready then .ready else .notReady
    state := if u.state ∈ [LiftState.offline, .notReady, .ready] then (if ready then .ready else .notReady)
      else u.state } := by
  obtain ⟨state⟩ := u
  unfold LiftUnit.reported
  cases state <;> simp

theorem liftStatus_notes {s : State} {st : Station} {l : Lift} {pl : List Byte} (flags : Byte) (ask : ReportedBy s st l)
    (hl : pl.length = 1) (h : u8 pl 0 ≤ 1) : NotesG (exec (.liftStatus .g flags pl) s) s st
      ((s.garage.heardLift l st).modLift l fun u => u.reported (u8 pl 0 == 1)) [] :=
  NotesG.of_lift (f := liftStatus) ask (by cases l <;> decide) (liftStatus_passes hl h) rfl fun _ ha => nomatch ha

/-! ### CAR_PRESENT (R72 to R75) -/

theorem Garage.hallOf_isSome (g : Garage) (n : Nat) : (g.hallOf n).isSome = true ↔
    g.liftA.hall.map Prod.snd = some n ∨ g.liftB.hall.map Prod.snd = some n := by
  unfold Garage.hallOf
  by_cases ha : g.liftA.hall.map Prod.snd = some n
  · simp [ha]
  · by_cases hb : g.liftB.hall.map Prod.snd = some n <;> simp [ha, hb]

section
variable {l : Lift} {pl : List Byte} {e : Ev}

theorem carPresent_hallFull (h : (e.g.lift l).hall ≠ none) : carPresent l pl e = hallNotExpected l (u32 pl 0) e :=
  if_pos (Option.isSome_iff_ne_none.mpr h)

variable (free : (e.g.lift l).hall = none)
include free

theorem carPresent_noTicket (h : ∀ x ∈ e.g.tickets, x.2.tag ≠ u32 pl 0) :
    carPresent l pl e = hallNotExpected l (u32 pl 0) e := by
  unfold carPresent
  dsimp only
  rw [free, findKey_tag h]
  rfl

variable {n : Nat} {t : Ticket} (key : (e.g.tickets.findKey fun t => t.tag == u32 pl 0) = some n)
  (ht : e.g.ticket n = some t)
include key ht

/-- R72: the car of a ticket is presented when the ticket waits for a hall and is in none. -/
theorem carPresent_ticket : carPresent l pl e =
    if t.state ≠ .allocated ∨ (e.g.hallOf n).isSome = true then hallNotExpected l (u32 pl 0) e
    else presentCar l (u32 pl 0) n t e := by
  unfold carPresent
  dsimp only
  rw [free, key]
  dsimp only
  rw [ht]
  rfl

theorem carPresent_notWaiting (h : t.state ≠ .allocated ∨ (e.g.hallOf n).isSome = true) :
    carPresent l pl e = hallNotExpected l (u32 pl 0) e :=
  (carPresent_ticket free key ht).trans (if_pos h)

theorem carPresent_waiting (hs : t.state = .allocated) (h : ¬ (e.g.hallOf n).isSome = true) :
    carPresent l pl e = presentCar l (u32 pl 0) n t e :=
  (carPresent_ticket free key ht).trans (if_neg (not_or.mpr ⟨not_not.mpr hs, h⟩))

end

section
variable {l : Lift} {tag n : Nat} {t : Ticket} {e : Ev}

theorem presentCar_here (h : t.bay.bind e.g.liftOfBay = some l) :
    presentCar l tag n t e = e.modG fun g => g.present l tag n := if_pos h

theorem presentCar_moved (h : t.bay.bind e.g.liftOfBay ≠ some l) {b score : Nat}
    (hb : e.g.choose (.onLift l) t.cls t.estimate = some (b, score)) :
    presentCar l tag n t e = e.modG fun g => (g.reallocate l n t b).present l tag n := by
  unfold presentCar
  rw [if_neg h, hb]

theorem presentCar_wrongHall (h : t.bay.bind e.g.liftOfBay ≠ some l)
    (hb : e.g.choose (.onLift l) t.cls t.estimate = none) :
    presentCar l tag n t e = e.alert AlertKind.wrongHall (w8 (liftCode l) ++ w32 tag ++ w16 n) := by
  unfold presentCar
  rw [if_neg h, hb]

end

/-- R74 ❶ ❷: the new bay is RESERVED and the old one given up. -/
def Garage.swapBay (g : Garage) (n : Nat) (t : Ticket) (b : Nat) : Garage :=
  match t.bay with
  | some old => (g.reserve b n).release old n
  | none => g.reserve b n

/-- Swapping bays changes bays and BLOCKED marks alone. -/
theorem Garage.swapBay_rest (g : Garage) (n : Nat) (t : Ticket) (b : Nat) :
    ∃ bays tickets, g.swapBay n t b = { g with bayRecs := bays, tickets := tickets } := by
  unfold Garage.swapBay
  split
  · obtain ⟨bays, tickets, e⟩ := (release_releases (g.reserve b n) _ n).rest
    exact ⟨bays, tickets, e⟩
  · exact ⟨_, g.tickets, rfl⟩

/-- R73, R74: the car of a ticket given another bay fills the hall, and its park move is requested. -/
theorem Garage.reallocate_present (g : Garage) (l : Lift) (tag n : Nat) (t : Ticket) (b : Nat) :
    (g.reallocate l n t b).present l tag n = ((g.swapBay n t b).modTicket n fun x => { x with
      bay := some b, location := .hall l, outOfRange := !inRange (g.rangeFor (some l)) x.hook }).modLift l
        fun u => { u with hall := some (tag, n), parkRequest := some (n, g.seconds) } := by
  obtain ⟨bays, tickets, swapped⟩ := g.swapBay_rest n t b
  have reallocated : g.reallocate l n t b = (g.swapBay n t b).modTicket n fun x => { x with
      bay := some b, location := .hall l, outOfRange := !inRange ((g.swapBay n t b).rangeFor (some l)) x.hook } := by
    unfold Garage.reallocate Garage.swapBay
    cases t.bay <;> rfl
  rw [reallocated, swapped]
  cases l <;> rfl

section
variable {s : State} {st : Station} {l : Lift} {pl : List Byte} (flags : Byte) (ask : ReportedBy s st l)
  (hl : pl.length = 4)
include ask hl

theorem carPresent_notes {g : Garage} {alerts : List (Nat × List Byte)}
    (h : carPresent l pl ⟨s.garage.heardLift l st, []⟩ =
      ⟨g, alerts.map fun a => alertOut s.garage.seconds a.1 a.2⟩) :
    NotesG (exec (.carPresent .g flags pl) s) s st g alerts :=
  NotesG.of_lift (f := carPresent) ask (by cases l <;> decide)
    (.of_both hl (by decide) rfl rfl (by decide) (by decide)) (congrArg Ev.g h)
    fun _ ha => by rw [h]; exact List.mem_map_of_mem ha

end

/-- Settles O31: the readiness by the state of the lift, and each fate of a presented car by a lemma. -/
theorem liftStatusAndCars : Obligations.LiftStatusAndCars := by
  refine ⟨fun s st l flags pl ask hl code => ?_, fun s st l flags pl ask hl => ?_⟩
  · have notes := liftStatus_notes flags ask hl code
    simp only [LiftUnit.reported_eq, beq_iff_eq] at notes
    exact notes
  · intro g tag notes unexpected fill
    have seconds : g.seconds = s.garage.seconds := by cases l <;> rfl
    have alerted : ∀ kind args, carPresent l pl ⟨g, []⟩ = Ev.alert ⟨g, []⟩ kind args → notes g [(kind, args)] :=
      fun kind args h => carPresent_notes flags ask hl (h.trans (by rw [← seconds]; rfl))
    refine ⟨fun full => alerted _ _ (carPresent_hallFull full),
      fun free tags => alerted _ _ (carPresent_noTicket free tags), fun n t free key ht => ?_⟩
    have hall := g.hallOf_isSome n
    refine ⟨fun h => alerted _ _ (carPresent_notWaiting free key ht (h.imp_right hall.mpr)), fun hs away => ?_⟩
    have waiting := carPresent_waiting (e := ⟨g, []⟩) free key ht hs (away ∘ hall.mp)
    refine ⟨fun here => carPresent_notes flags ask hl (waiting.trans (presentCar_here here)),
      fun there => ⟨fun b score hb => ?_, fun hb => alerted _ _ (waiting.trans (presentCar_wrongHall there hb))⟩⟩
    have moved := waiting.trans (presentCar_moved there hb)
    refine carPresent_notes flags ask hl (moved.trans ?_)
    exact congrArg (fun k : Garage => (⟨k, []⟩ : Ev)) (g.reallocate_present l tag n t b)

end Sys2Proof.Machine

namespace Sys2Proof.Machine

/-! ### The next numbers (R65, R99) -/

section
variable {g : Garage}

theorem Garage.takeSeq_below (h : g.requestCounter ≠ 4294967295) :
    g.takeSeq = ({ g with requestCounter := g.requestCounter + 1 }, g.requestCounter) := by
  unfold Garage.takeSeq
  rw [if_neg (show ¬ g.requestCounter = Config.max32 from h)]

theorem Garage.takeReadySeq_below (h : g.readyCounter ≠ 4294967295) :
    g.takeReadySeq = ({ g with readyCounter := g.readyCounter + 1 }, g.readyCounter) := by
  unfold Garage.takeReadySeq
  rw [if_neg (show ¬ g.readyCounter = Config.max32 from h)]

end

/-! ### The record of a ticket that enters READY (R65, R155, R187, R188) -/

/-- A channel once a ticket has been delivered: the ticket leaves its list, and the channel of a member counts it. -/
def Garage.chanAfter (g : Garage) (n : Nat) (c : Chan) : Channel := { g.chan c with
  list := (g.chan c).list.filter (· != n)
  delivered :=
    if (g.ticket n).bind Ticket.convoy = some c then tallyUp (g.chan c).delivered else (g.chan c).delivered }

/-- The blocks once a ticket has left the retrieval queue or its channel. -/
def Garage.delivered (g : Garage) (n : Nat) : Garage := { g with
  queue := g.queue.filter fun e => e.ticket != n
  chan0 := g.chanAfter n .c0
  chan1 := g.chanAfter n .c1 }

theorem Garage.delivered_eq (g : Garage) (n : Nat) : (g.countDelivery n).dequeue n = g.delivered n := by
  unfold Garage.countDelivery Garage.delivered Garage.chanAfter
  cases (g.ticket n).bind Ticket.convoy with
  | none => rfl
  | some c => cases c <;> rfl

theorem Garage.becomeReady_eq (g : Garage) (n : Nat) (loc : Location) : g.becomeReady n loc =
    (g.delivered n).takeReadySeq.1.modTicket n fun t =>
      t.toReady (g.delivered n).takeReadySeq.1.seconds (g.delivered n).takeReadySeq.2 loc := by
  rw [← g.delivered_eq n]
  rfl

/-- The blocks once a ticket has its record of READY with the counter's number. -/
def Garage.recorded (g : Garage) (n : Nat) (loc : Location) : Garage :=
  Garage.modTicket { g.delivered n with readyCounter := g.readyCounter + 1 } n fun t =>
    t.toReady g.seconds g.readyCounter loc

theorem Garage.becomeReady_below {g : Garage} (h : g.readyCounter ≠ 4294967295) (n : Nat) (loc : Location) :
    g.becomeReady n loc = g.recorded n loc := by
  rw [g.becomeReady_eq, Garage.takeReadySeq_below (g := g.delivered n) h]
  rfl

theorem Garage.recorded_ticket (g : Garage) (n : Nat) (loc : Location) :
    (g.recorded n loc).ticket n = (g.ticket n).map fun t => t.toReady g.seconds g.readyCounter loc :=
  ticket_modTicket _ _ _

theorem Garage.recorded_other (g : Garage) {n m : Nat} (h : m ≠ n) (loc : Location) :
    (g.recorded n loc).ticket m = g.ticket m := ticket_modTicket_ne _ _ h

/-! ### The hook opened (R92) -/

/-- The hooks once the map has acted on one. -/
def Garage.hooksOpened (g : Garage) (hook : Nat) : Table Hook :=
  if (g.hooks.find hook).map Hook.state = some .held then g.hooks.adjust hook fun h => { h with state := .released }
  else g.hooks

/-- The blocks once the map has acted on a hook. -/
def Garage.unlocked (g : Garage) (hook : Nat) : Garage := { g with hooks := g.hooksOpened hook }

/-- The HOOK_OPEN of a ticket whose key hangs on its hook. -/
def Garage.hookFrames (g : Garage) (n : Nat) (t : Ticket) : List Out :=
  if (g.hooks.find t.hook).map Hook.state = some .held then [hookOpenFrame t.hook n t.tag] else []

theorem Garage.hooksOpened_find {g : Garage} {hook : Nat} {h : Hook} (hh : g.hooks.find hook = some h) :
    (g.hooksOpened hook).find hook = some (if h.state = .held then { h with state := .released } else h) := by
  unfold Garage.hooksOpened
  rw [hh, Option.map_some]
  by_cases held : h.state = .held
  · rw [if_pos (congrArg some held), if_pos held, find_adjust_self, hh]
    rfl
  · rw [if_neg (fun e => held (Option.some.inj e)), if_neg held, hh]

theorem openHook_eq (n : Nat) (t : Ticket) (e : Ev) :
    openHook n t e = ⟨e.g.unlocked t.hook, e.out ++ e.g.hookFrames n t⟩ := by
  unfold openHook Garage.unlocked Garage.hooksOpened Garage.hookFrames
  cases e.g.hooks.find t.hook with
  | none => exact congrArg (Ev.mk e.g) (List.append_nil _).symm
  | some h =>
    by_cases held : h.state = .held
    · simp only [held, Option.map_some, if_true]
      rfl
    · simp only [held, Option.map_some, Option.some.injEq, if_false, List.append_nil]

theorem keyConditionCode_eq (h : Option Hook) : keyConditionCode (keyConditionOf h) =
    match h.map Hook.state with
    | some .held => 0
    | some .mishung => 2
    | some .out => 3
    | _ => 1 := by
  unfold keyConditionOf
  cases h.map Hook.state with
  | none => rfl
  | some state => cases state <;> rfl

/-! ### A runner for a ticket (R164) -/

/-- The blocks once the head of the free list has been assigned to a ticket. -/
def Garage.assigned (g : Garage) (n r : Nat) (rest : List Nat) : Garage :=
  (Garage.modRunner { g with freeList := rest } r fun _ => ⟨.assigned, some n, some g.pickupPeriod⟩).modTicket n
    fun t => { t with runner := some r }

theorem Garage.assigned_ticket (g : Garage) (n r : Nat) (rest : List Nat) :
    (g.assigned n r rest).ticket n = (g.ticket n).map fun t => { t with runner := some r } := ticket_modTicket _ _ _

theorem Garage.assigned_runner (g : Garage) (n r : Nat) (rest : List Nat) : (g.assigned n r rest).runners.find r =
    (g.runners.find r).map fun _ => ⟨.assigned, some n, some g.pickupPeriod⟩ :=
  find_adjust_self g.runners r fun _ => ⟨.assigned, some n, some g.pickupPeriod⟩

/-- The blocks once a ticket has joined those that wait for a runner. -/
def Garage.waiting (g : Garage) (n : Nat) : Garage := { g with waitList := insertBy g.readySeqOf n g.waitList }

section
variable {n : Nat} {e : Ev}

theorem giveRunner_assigns {r : Nat} {rest : List Nat} {t : Ticket} (hf : e.g.freeList = r :: rest)
    (ht : e.g.ticket n = some t) : giveRunner n e =
      ⟨e.g.assigned n r rest, e.out ++ [runnerTaskFrame r n { t with runner := some r }]⟩ := by
  have named := e.g.assigned_ticket n r rest
  rw [ht] at named
  unfold giveRunner
  rw [hf]
  show (match (e.g.assigned n r rest).ticket n with
    | some t => Ev.emit ⟨e.g.assigned n r rest, e.out⟩ (runnerTaskFrame r n t)
    | none => ⟨e.g.assigned n r rest, e.out⟩) = _
  rw [named]
  rfl

theorem giveRunner_waits (hf : e.g.freeList = []) : giveRunner n e = ⟨e.g.waiting n, e.out⟩ := by
  unfold giveRunner
  rw [hf]
  rfl

end

/-! ### The READY effects in their order (R103) -/

/-- CAR_READY for a ticket, with the key condition of its hook as found. -/
def Garage.carReady (g : Garage) (n : Nat) (t : Ticket) : Out :=
  carReadyFrame n t (keyConditionOf (g.hooks.find t.hook))

/-- What the READY effects leave of the blocks `k` in which the ticket has its record. -/
structure Garage.Readied (k : Garage) (n : Nat) (t : Ticket) (e : Garage) : Prop where
  readyCounter : e.readyCounter = k.readyCounter
  bayRecs : e.bayRecs = k.bayRecs
  chan : ∀ c, e.chan c = k.chan c
  queue : e.queue = k.queue
  hooks : e.hooks = k.hooksOpened t.hook
  other : ∀ m, m ≠ n → e.ticket m = k.ticket m
  readySeq : (e.ticket n).bind Ticket.readySeq = t.readySeq

theorem unlocked_assigned_ticket {k : Garage} {n : Nat} {t : Ticket} (ht : k.ticket n = some t) (r : Nat)
    (rest : List Nat) : ((k.unlocked t.hook).assigned n r rest).ticket n = some { t with runner := some r } :=
  (Garage.assigned_ticket _ _ _ _).trans (congrArg _ ht)

section
variable {n : Nat} {loc : Location} {g k : Garage} {out : List Out} {t : Ticket} (hk : g.becomeReady n loc = k)
  (ht : k.ticket n = some t)
include hk ht

/-- What follows the record: the hook, the runner, and CAR_READY for the ticket as the runner leaves it. -/
theorem enterReady_record {e : Ev} {x : Ticket}
    (he : giveRunner n ⟨k.unlocked t.hook, out ++ k.hookFrames n t⟩ = e) (hx : e.g.ticket n = some x) :
    enterReady n loc ⟨g, out⟩ = e.emit (carReadyFrame n x (keyConditionOf (k.hooks.find t.hook))) := by
  subst hk
  unfold enterReady
  dsimp only [Ev.modG]
  rw [ht]
  dsimp only
  rw [openHook_eq, he, hx]

theorem enterReady_assigns {r : Nat} {rest : List Nat} (hf : k.freeList = r :: rest) : enterReady n loc ⟨g, out⟩ =
    ⟨(k.unlocked t.hook).assigned n r rest,
      out ++ k.hookFrames n t ++ [runnerTaskFrame r n { t with runner := some r }]
        ++ [k.carReady n { t with runner := some r }]⟩ :=
  enterReady_record hk ht (giveRunner_assigns (e := ⟨k.unlocked t.hook, _⟩) hf ht) (unlocked_assigned_ticket ht r rest)

theorem enterReady_waits (hf : k.freeList = []) : enterReady n loc ⟨g, out⟩ =
    ⟨(k.unlocked t.hook).waiting n, out ++ k.hookFrames n t ++ [k.carReady n t]⟩ :=
  enterReady_record hk ht (giveRunner_waits (e := ⟨k.unlocked t.hook, _⟩) hf) ht

/-- The READY effects leave the blocks as the record left them, but for the hook, the runners and their lists. -/
theorem enterReady_readied : k.Readied n t (enterReady n loc ⟨g, out⟩).g := by
  cases hf : k.freeList with
  | cons r rest =>
    rw [enterReady_assigns hk ht hf]
    exact ⟨rfl, rfl, fun c => by cases c <;> rfl, rfl, rfl, fun m hm => ticket_modTicket_ne _ _ hm,
      congrArg (fun o => o.bind Ticket.readySeq) (unlocked_assigned_ticket ht r rest)⟩
  | nil =>
    rw [enterReady_waits hk ht hf]
    exact ⟨rfl, rfl, fun c => by cases c <;> rfl, rfl, rfl, fun m _ => rfl,
      congrArg (fun o => o.bind Ticket.readySeq) ht⟩

end

theorem queue_filter_ticket (q : List Entry) (n : Nat) :
    (q.filter fun e => e.ticket != n).map Entry.ticket = (q.map Entry.ticket).filter (· != n) := by
  rw [List.filter_map]
  rfl

/-- Settles O27: what the READY effects leave alone by `enterReady_readied`, and the two fates of the runner by a
lemma each. -/
theorem readyEffects : Obligations.ReadyEffects := by
  intro n loc g t ht below e hook opened key ready record
  have counted := Garage.becomeReady_below (Nat.ne_of_lt below) n loc
  have entered : (g.recorded n loc).ticket n = some (record t.runner) :=
    (g.recorded_ticket n loc).trans (congrArg _ ht)
  have shown : ∀ runner, (g.recorded n loc).carReady n (record runner) = ready (runner.getD 0) := fun runner => by
    unfold Garage.carReady carReadyFrame
    rw [keyConditionCode_eq]
    rfl
  have left : (g.recorded n loc).Readied n (record t.runner) e.g := enterReady_readied counted entered
  have convoy : (g.ticket n).bind Ticket.convoy = t.convoy := congrArg (fun o => o.bind Ticket.convoy) ht
  refine ⟨left.readyCounter, left.bayRecs, fun c => ?_, ?_, fun h hh => ?_,
    fun m hm => (left.other m hm).trans (g.recorded_other hm loc), fun r rs hf hr => ?_, fun hf => ?_⟩
  · rw [left.chan, ← convoy]
    cases c <;> rfl
  · rw [left.queue]
    exact queue_filter_ticket g.queue n
  · rw [left.hooks]
    exact Garage.hooksOpened_find (g := g.recorded n loc) hh
  · obtain ⟨x, hx⟩ := Option.isSome_iff_exists.mp hr
    have tied := (((g.recorded n loc).unlocked t.hook).assigned_runner n r rs).trans (congrArg _ hx)
    have assigned : e = _ := enterReady_assigns counted entered hf
    rw [assigned]
    exact ⟨rfl, rfl, unlocked_assigned_ticket entered r rs, tied,
      congrArg (fun o => opened ++ [_] ++ [o]) (shown (some r))⟩
  · have waits : e = _ := enterReady_waits counted entered hf
    rw [waits]
    exact ⟨hf, entered, rfl, rfl, congrArg (fun o => opened ++ [o]) (shown t.runner)⟩

end Sys2Proof.Machine

namespace Sys2Proof.Machine

/-! ### The tickets that hold a number, in its order (R65, R99) -/

/-- A list names the tickets that hold a number, each once, in the order of the numbers. -/
structure Garage.Orders (g : Garage) (number : Ticket → Option Nat) (l : List Nat) : Prop where
  nodup : l.Nodup
  mem : ∀ n, n ∈ l ↔ ∃ t, g.ticket n = some t ∧ (number t).isSome = true
  sorted : l.Pairwise fun a b => ((g.ticket a).bind number).getD 0 ≤ ((g.ticket b).bind number).getD 0

theorem Garage.readyOrder_orders {g : Garage} (h : g.tickets.rising = true) :
    g.Orders Ticket.readySeq g.readyOrder where
  nodup := Garage.readyOrder_nodup h
  mem n := by
    rw [mem_readyOrder]
    simp only [Garage.ticket, find_rising h]
  sorted := by
    have number : ∀ x ∈ sortBy Prod.fst (Table.readyPairs g.tickets),
        ((g.ticket x.2).bind Ticket.readySeq).getD 0 = x.1 := fun x hx => by
      obtain ⟨k, hk, hs⟩ := mem_readyPairs ((mem_sortBy _ _ _).mp hx)
      have found : g.ticket x.2 = some k := (find_rising h _ _).mpr hk
      rw [found, Option.bind_some, hs]
      rfl
    rw [Garage.readyOrder_eq, List.pairwise_map]
    refine (sortBy_sorted Prod.fst _).imp_of_mem fun ha hb le => ?_
    rw [number _ ha, number _ hb]
    exact le

/-- The blocks with another number of each ticket in the place of its ready number: the request numbers are ordered as
the ready numbers are. -/
def Garage.relabelled (g : Garage) (number : Ticket → Option Nat) : Garage :=
  { g with tickets := g.tickets.mapAll fun t => { t with readySeq := number t } }

theorem Garage.relabelled_ticket (g : Garage) (number : Ticket → Option Nat) (n : Nat) :
    (g.relabelled number).ticket n = (g.ticket n).map fun t => { t with readySeq := number t } :=
  find_mapAll g.tickets n fun t => { t with readySeq := number t }

theorem Garage.seqOrder_eq (g : Garage) : g.seqOrder = (g.relabelled Ticket.seq).readyOrder := by
  unfold Garage.seqOrder Garage.readyOrder Garage.relabelled Table.mapAll
  rw [List.filterMap_map]
  rfl

theorem Garage.seqOrder_orders {g : Garage} (h : g.tickets.rising = true) : g.Orders Ticket.seq g.seqOrder := by
  have rising : (g.relabelled Ticket.seq).tickets.rising = true :=
    (rising_mapKeyed (t := g.tickets) fun _ t => { t with readySeq := t.seq }).trans h
  have number : ∀ n, ((g.relabelled Ticket.seq).ticket n).bind Ticket.readySeq = (g.ticket n).bind Ticket.seq := by
    intro n
    rw [g.relabelled_ticket, Option.bind_map]
    rfl
  obtain ⟨nodup, mem, sorted⟩ := Garage.readyOrder_orders rising
  rw [← g.seqOrder_eq] at nodup mem sorted
  refine ⟨nodup, fun n => (mem n).trans ?_, by simpa only [number] using sorted⟩
  rw [g.relabelled_ticket]
  cases g.ticket n <;> simp

/-! ### Numbers dealt anew (R65, R99) -/

/-- Numbering the tickets of an order gives each the place it has there. -/
theorem Garage.Orders.renumber {g : Garage} {number : Ticket → Option Nat} {l : List Nat} (h : g.Orders number l)
    {set : Option Nat → Ticket → Ticket} (same : ∀ t, set (number t) t = t) (n : Nat) :
    (Garage.renumber g (fun k => set (some k)) 1 l).ticket n =
      (g.ticket n).map fun t => set ((number t).map fun _ => placeIn l n) t := by
  rw [(renumber_spec _ l 1 g h.nodup).2, placeIn_eq]
  cases ht : g.ticket n with
  | none => rfl
  | some t =>
    have listed : n ∈ l ↔ (number t).isSome = true := (h.mem n).trans (by simp [ht])
    have absent : (l.findIdx? fun m => m == n) = none ↔ n ∉ l := by
      rw [List.findIdx?_eq_none_iff]
      exact ⟨fun no hn => by simpa using no n hn, fun no m hm => beq_false_of_ne fun e => no (e ▸ hm)⟩
    rw [Option.map_some, Option.map_some]
    cases hs : number t with
    | none =>
      have kept := same t
      rw [hs] at kept
      rw [absent.mpr (by rw [listed, hs]; decide)]
      exact congrArg some kept.symm
    | some k =>
      have found : (l.findIdx? fun m => m == n) ≠ none := fun no => absent.mp no (listed.mpr (by rw [hs]; rfl))
      obtain ⟨i, hi⟩ := Option.ne_none_iff_exists'.mp found
      rw [hi]
      exact congrArg (fun k => some (set (some k) t)) (Nat.add_comm 1 i)

section
variable {g : Garage} (h : g.tickets.rising = true)
include h

theorem Garage.takeSeq_anew (top : g.requestCounter = 4294967295) : ∃ tickets,
    g.takeSeq = ({ g with requestCounter := g.seqOrder.length + 2, tickets := tickets }, g.seqOrder.length + 1) ∧
      ∀ n, g.takeSeq.1.ticket n =
        (g.ticket n).map fun t => { t with seq := t.seq.map fun _ => placeIn g.seqOrder n } := by
  have orders := Garage.seqOrder_orders h
  obtain ⟨tickets, e⟩ := (renumber_spec (fun k t => { t with seq := some k }) g.seqOrder 1 g orders.nodup).1
  have taken : g.takeSeq = ({ Garage.renumber g (fun k t => { t with seq := some k }) 1 g.seqOrder with
      requestCounter := g.seqOrder.length + 2 }, g.seqOrder.length + 1) := by
    unfold Garage.takeSeq
    rw [if_pos (show g.requestCounter = Config.max32 from top)]
  rw [taken]
  exact ⟨tickets, by rw [e], orders.renumber (set := fun k t => { t with seq := k }) fun _ => rfl⟩

theorem Garage.takeReadySeq_anew (top : g.readyCounter = 4294967295) : ∃ tickets,
    g.takeReadySeq = ({ g with readyCounter := g.readyOrder.length + 2, tickets := tickets }, g.readyOrder.length + 1) ∧
      ∀ n, g.takeReadySeq.1.ticket n =
        (g.ticket n).map fun t => { t with readySeq := t.readySeq.map fun _ => placeIn g.readyOrder n } := by
  have orders := Garage.readyOrder_orders h
  obtain ⟨tickets, e⟩ := (renumber_spec (fun k t => { t with readySeq := some k }) g.readyOrder 1 g orders.nodup).1
  have taken : g.takeReadySeq = ({ Garage.renumber g (fun k t => { t with readySeq := some k }) 1 g.readyOrder with
      readyCounter := g.readyOrder.length + 2 }, g.readyOrder.length + 1) := by
    unfold Garage.takeReadySeq
    rw [if_pos (show g.readyCounter = Config.max32 from top)]
  rw [taken]
  exact ⟨tickets, by rw [e], orders.renumber (set := fun k t => { t with readySeq := k }) fun _ => rfl⟩

/-- An entry into READY at the top of the counter: the number follows those dealt anew (R65). -/
theorem enterReady_anew (top : g.readyCounter = 4294967295) {n : Nat} {t : Ticket} (ht : g.ticket n = some t)
    (loc : Location) (out : List Out) :
    (enterReady n loc ⟨g, out⟩).g.readyCounter = g.readyOrder.length + 2 ∧
      ((enterReady n loc ⟨g, out⟩).g.ticket n).bind Ticket.readySeq = some (g.readyOrder.length + 1) ∧
      ∀ m, m ≠ n → ((enterReady n loc ⟨g, out⟩).g.ticket m).bind Ticket.readySeq =
        ((g.ticket m).bind Ticket.readySeq).map fun _ => placeIn g.readyOrder m := by
  obtain ⟨tickets, taken, anew⟩ := Garage.takeReadySeq_anew (g := g.delivered n) h top
  have counted := g.becomeReady_eq n loc
  have entered := ticket_modTicket (g.delivered n).takeReadySeq.1 n fun t =>
    t.toReady (g.delivered n).takeReadySeq.1.seconds (g.delivered n).takeReadySeq.2 loc
  rw [anew, show (g.delivered n).ticket n = some t from ht] at entered
  have left := enterReady_readied (out := out) counted entered
  refine ⟨left.readyCounter.trans ?_, left.readySeq.trans ?_, fun m hm => ?_⟩
  · rw [taken]
    rfl
  · rw [taken]
    rfl
  · rw [left.other m hm, ticket_modTicket_ne _ _ hm, anew, Option.bind_map]
    show (g.ticket m).bind _ = _
    cases g.ticket m <;> rfl

end

/-! ### RETRIEVE of a PARKED ticket (R102) -/

/-- A request that podiums and desks may make, answered first of all. -/
theorem Replies.of_request {s : State} {st : Station} {kind flags : Byte} {pl : List Byte}
    {f : Caller → List Byte → Ev → Ev} (ask : AskedBy s st .podium ∨ AskedBy s st .desk)
    (podium : permits .podium kind = true) (desk : permits .desk kind = true) (pass : Passes s kind pl) {g : Garage}
    {k : Byte} {res : Result} {detail : List Byte} {more : List Out}
    (h : f ⟨.s, st.number, st.role⟩ pl ⟨s.garage, []⟩ = ⟨g, replyOut st k res detail :: more⟩) :
    Replies (s.frame .s kind flags pl (workBody f)) s st g.afterwards k res detail := by
  rcases ask with ask | ask
  · exact .of_work ask rfl podium pass h
  · exact .of_work ask rfl desk pass h

theorem retrieve_parked {c : Caller} {pl : List Byte} {e : Ev} {t : Ticket} (hn : u16 pl 0 ≠ 0)
    (ht : e.g.ticket (u16 pl 0) = some t) (hs : t.state = .parked) (room : e.g.placesHeld < 64) :
    retrieve c pl e = joinQueue c (u16 pl 0) (priorityUsed pl t) (bit8 pl 3 0) e := by
  unfold retrieve retrieveTicket
  rw [if_neg hn, ht]
  dsimp only
  rw [hs]
  exact if_neg (show ¬ Config.places ≤ _ from Nat.not_le.mpr room)

/-- The reply to a RETRIEVE of a PARKED ticket carries the number dealt, and the place behind the queue as it stood. -/
theorem joinQueue_out (c : Caller) (n prio : Nat) (hold : Bool) (e : Ev) : (joinQueue c n prio hold e).out = e.out ++
    [⟨.reply c.port c.station, Kind.reply, Kind.retrieve :: w8 Result.taken.code ++
      retrieveDetail n 4 e.g.takeSeq.2 prio hold (e.g.takeSeq.1.queue.length + 1), .plain⟩] := by
  show e.out ++ [Out.mk _ _ (_ :: _ ++ retrieveDetail n 4 _ prio hold (e.g.takeSeq.1.queue ++ [_]).length) _] = _
  rw [List.length_append]
  rfl

/-- Settles O56: the orders of the numbers, the number dealt below the top and at it, and the two events that take
one. -/
theorem numbersDealtAnew : Obligations.NumbersDealtAnew := by
  intro g rising place inOrder requests readies
  have places : place = placeIn := funext₂ fun l n => (placeIn_eq l n).symm
  have byRequest := Garage.seqOrder_orders rising
  have byReady := Garage.readyOrder_orders rising
  rw [places]
  refine ⟨⟨byRequest.nodup, byRequest.mem, byRequest.sorted⟩, ⟨byReady.nodup, byReady.mem, byReady.sorted⟩,
    Garage.takeSeq_below, fun top => ?_, Garage.takeReadySeq_below, fun top => ?_,
    fun n loc t out ht top => enterReady_anew rising top ht loc out,
    fun s st flags pl t hg ask hm hl hn ht hs room top => ?_⟩
  · obtain ⟨tickets, taken, anew⟩ := Garage.takeSeq_anew rising top
    exact ⟨congrArg Prod.snd taken, by rw [taken], anew⟩
  · obtain ⟨tickets, taken, anew⟩ := Garage.takeReadySeq_anew rising top
    exact ⟨congrArg Prod.snd taken, by rw [taken], anew⟩
  · intro prio
    subst hg
    obtain ⟨tickets, taken, -⟩ := Garage.takeSeq_anew rising top
    have joined := retrieve_parked (c := ⟨.s, st.number, st.role⟩) (e := ⟨s.garage, []⟩) hn ht hs room
    have told := joinQueue_out ⟨.s, st.number, st.role⟩ (u16 pl 0) (priorityUsed pl t) (bit8 pl 3 0) ⟨s.garage, []⟩
    rw [← joined, show (Ev.mk s.garage []).g.takeSeq = _ from taken] at told
    exact ⟨_, Replies.of_request (f := retrieve) ask (by decide) (by decide)
      (.of_length hl (by rw [hm]; decide) rfl rfl (by decide) (by decide))
      (congrArg (Ev.mk (retrieve ⟨.s, st.number, st.role⟩ pl ⟨s.garage, []⟩).g) told)⟩

end Sys2Proof.Machine

namespace Sys2Proof.Machine

/-! ### Requests that name a ticket (R76, R112, R113) -/

/-- A request that names a ticket: refused for ticket 0 and for one that is not live, and otherwise answered by `f`. -/
def ticketRequest (kind : Byte) (f : Caller → Nat → Ticket → Ev → Ev) (c : Caller) (pl : List Byte) (e : Ev) : Ev :=
  if u16 pl 0 = 0 then e.ticketReply c kind .badRequest 0 absentCode
  else
    match e.g.ticket (u16 pl 0) with
    | none => e.ticketReply c kind .unknownTicket (u16 pl 0) absentCode
    | some t => f c (u16 pl 0) t e

theorem resume_eq : resume = ticketRequest Kind.resume resumeTicket := rfl
theorem cancel_eq : cancel = ticketRequest Kind.cancel cancelTicket := rfl

section
variable {kind : Byte} {f : Caller → Nat → Ticket → Ev → Ev} {c : Caller} {pl : List Byte} {e : Ev}

theorem ticketRequest_zero (h : u16 pl 0 = 0) :
    ticketRequest kind f c pl e = e.ticketReply c kind .badRequest (u16 pl 0) 0xFF :=
  (if_pos h).trans (by rw [h]; rfl)

theorem ticketRequest_unknown (hn : u16 pl 0 ≠ 0) (h : e.g.ticket (u16 pl 0) = none) :
    ticketRequest kind f c pl e = e.ticketReply c kind .unknownTicket (u16 pl 0) 0xFF := by
  unfold ticketRequest
  rw [if_neg hn, h]
  rfl

theorem ticketRequest_ticket {t : Ticket} (hn : u16 pl 0 ≠ 0) (h : e.g.ticket (u16 pl 0) = some t) :
    ticketRequest kind f c pl e = f c (u16 pl 0) t e := by
  unfold ticketRequest
  rw [if_neg hn, h]

end

/-- A request that podiums and desks may make comes to its event and the work that it sets off. -/
theorem State.request_comes (s : State) (st : Station) (kind flags : Byte) (pl : List Byte)
    (f : Caller → List Byte → Ev → Ev) (ask : AskedBy s st .podium ∨ AskedBy s st .desk)
    (podium : permits .podium kind = true) (desk : permits .desk kind = true) (pass : Passes s kind pl) :
    ∃ t more, ComesTo (s.frame .s kind flags pl (workBody f)) s st
      ⟨(f ⟨.s, st.number, st.role⟩ pl ⟨s.garage, []⟩).g.afterwards,
        (f ⟨.s, st.number, st.role⟩ pl ⟨s.garage, []⟩).out ++ more⟩ t := by
  rcases ask with ask | ask
  · exact s.work_comes st .podium kind flags pl f ask rfl podium pass
  · exact s.work_comes st .desk kind flags pl f ask rfl desk pass

/-! ### RESUME (R112) -/

section
variable {c : Caller} {n : Nat} {t : Ticket} {e : Ev}

theorem resumeTicket_held (hs : t.state = .held) : resumeTicket c n t e =
    (e.modG fun g => g.resumeHeld n).ticketReply c Kind.resume .taken n 4 := by
  unfold resumeTicket
  rw [hs]
  rfl

theorem resumeTicket_retrieving (hs : t.state = .retrieving) : resumeTicket c n t e =
    if t.convoy = none ∧ t.hold = true ∧ t.resumePending = false ∧ t.cancelMark = false then
      (e.modG fun g => g.modTicket n fun t => { t with resumePending := true }).ticketReply c Kind.resume .taken n 5
    else e.ticketReply c Kind.resume .notApplicable n 5 := by
  unfold resumeTicket
  rw [hs]
  rfl

theorem resumeTicket_queued (hs : t.state = .queued) : resumeTicket c n t e =
    if t.convoy = none ∧ t.hold = true then
      (e.modG fun g => g.modTicket n fun t => { t with hold := false }).ticketReply c Kind.resume .taken n 4
    else e.ticketReply c Kind.resume .notApplicable n 4 := by
  unfold resumeTicket
  rw [hs]
  rfl

theorem resumeTicket_other (h : t.state ∉ [TicketState.held, .retrieving, .queued]) : resumeTicket c n t e =
    e.ticketReply c Kind.resume .notApplicable n (ticketStateCode t.state) := by
  unfold resumeTicket
  cases hs : t.state with
  | held | retrieving | queued => simp [hs] at h
  | _ => rfl

end

/-! ### CANCEL (R76, R113 to R116) -/

section
variable {c : Caller} {n : Nat} {t : Ticket} {e : Ev}

theorem cancelTicket_waiting (hs : t.state = .queued ∨ t.state = .held) : cancelTicket c n t e =
    (e.modG fun g => g.becomeParked n).ticketReply c Kind.cancel .taken n 2 := by
  unfold cancelTicket
  rcases hs with hs | hs <;> rw [hs] <;> rfl

theorem Garage.flightOf_none {g : Garage} : g.flightOf n = none ↔
    ¬ (g.liftA.inFlight.bind Move.target = some n ∨ g.liftB.inFlight.bind Move.target = some n) := by
  unfold Garage.flightOf
  by_cases ha : g.liftA.inFlight.bind Move.target = some n
  · simp [ha]
  · by_cases hb : g.liftB.inFlight.bind Move.target = some n <;> simp [ha, hb]

theorem cancelTicket_inFlight (hs : t.state = .retrieving) (h : e.g.flightOf n ≠ none) : cancelTicket c n t e =
    (e.modG fun g => g.modTicket n fun t => { t with cancelMark := true }).ticketReply c Kind.cancel .taken n 5 := by
  obtain ⟨l, hl⟩ := Option.ne_none_iff_exists'.mp h
  unfold cancelTicket Garage.giveUp
  rw [hs]
  dsimp only [Ev.modG]
  rw [hl]
  rfl

theorem cancelTicket_planned (hs : t.state = .retrieving) (h : e.g.flightOf n = none) : cancelTicket c n t e =
    (e.modG fun g => (g.endPlanOf n).becomeParked n).ticketReply c Kind.cancel .taken n 2 := by
  unfold cancelTicket Garage.giveUp
  rw [hs]
  dsimp only [Ev.modG]
  rw [h]
  rfl

theorem cancelTicket_other (h : t.state ∉ [TicketState.queued, .held, .retrieving, .allocated]) :
    cancelTicket c n t e = e.ticketReply c Kind.cancel .notApplicable n (ticketStateCode t.state) := by
  unfold cancelTicket
  cases hs : t.state with
  | queued | held | retrieving | allocated => simp [hs] at h
  | _ => rfl

end

/-! ### The close of an ALLOCATED ticket (R76, R173) -/

/-- TICKET_CLOSED, from the record as it stood at the close (R173, R201). -/
def closedFrame (n : Nat) (t : Ticket) (station : Nat) (cause : CloseCause) : Out :=
  ⟨.role .office, Kind.ticketClosed, w16 n ++ w32 t.tag ++ w8 (classCode t.cls) ++ w32 t.arrivalMinute
    ++ w32 t.estimate ++ w8 t.podium ++ w8 station ++ w8 (ticketStateCode t.state)
    ++ w8 (if t.state = .ready then locationCode t.location else 0xFF) ++ w16 t.hook ++ wFlag t.outOfRange
    ++ w8 (keyStatusCode t.keyStatus) ++ w8 (t.runner.getD 0) ++ w8 t.relocations ++ wFlag t.measure.isSome
    ++ w16 ((t.measure.bind Measure.parkedMinutes).getD 0) ++ w16 ((t.measure.bind Measure.waitSeconds).getD 0)
    ++ w16 ((t.measure.bind Measure.handoverSeconds).getD 0) ++ w8 (closeCauseCode cause), .plain⟩

theorem closeTicket_eq (n : Nat) (t : Ticket) (station : Nat) (cause : CloseCause) (e : Ev) :
    closeTicket n t station cause e = ⟨{ e.g with tickets := e.g.tickets.remove n },
      e.out ++ [closedFrame n (t.measured (Measure.recordClose e.g.seconds)) station cause]⟩ := by
  unfold closeTicket ticketClosed closedFrame
  rw [wMeasure_eq]
  simp only [Ev.emit, Ev.modG, List.append_assoc, orZero, absentCode]

/-- R76 ❶: the bay of an ALLOCATED ticket is given up. -/
def Garage.bayGivenUp (g : Garage) (n : Nat) (t : Ticket) : Garage :=
  match t.bay with
  | some b => g.release b n
  | none => g

theorem Garage.bayGivenUp_seconds (g : Garage) (n : Nat) (t : Ticket) : (g.bayGivenUp n t).seconds = g.seconds := by
  unfold Garage.bayGivenUp
  split
  · exact congrArg Fixed.seconds (g.release_fixed _ n)
  · rfl

/-- R76 ❶ ❷: an ALLOCATED ticket has given up its bay and its hall. -/
def Garage.withdrawn (g : Garage) (n : Nat) (t : Ticket) : Garage := { g.bayGivenUp n t with
  liftA := (g.bayGivenUp n t).liftA.withdraw n
  liftB := (g.bayGivenUp n t).liftB.withdraw n }

/-- R76: the reply, the close mapping, and TICKET_CLOSED with the cause CANCELLED. -/
theorem cancelTicket_allocated {n : Nat} {t : Ticket} (hs : t.state = .allocated) (st : Station) (g : Garage) :
    ∃ more, cancelTicket ⟨.s, st.number, st.role⟩ n t ⟨g, []⟩ =
      ⟨{ (closeMapping t ⟨g.withdrawn n t, []⟩).g with tickets := (g.withdrawn n t).tickets.remove n },
        replyOut st Kind.cancel .taken (w16 n ++ [14]) ::
          (more ++ [closedFrame n (t.measured (Measure.recordClose g.seconds)) st.number .cancelled])⟩ := by
  obtain ⟨more, mapped⟩ := closeMapping_adds t (g.withdrawn n t) [replyOut st Kind.cancel .taken (w16 n ++ [14])]
  have closed : cancelTicket ⟨.s, st.number, st.role⟩ n t ⟨g, []⟩ = closeTicket n t st.number .cancelled
      (closeMapping t ⟨g.withdrawn n t, [replyOut st Kind.cancel .taken (w16 n ++ [14])]⟩) := by
    unfold cancelTicket
    rw [hs]
    rfl
  refine ⟨more, ?_⟩
  rw [closed, mapped, closeTicket_eq]
  dsimp only
  rw [closeMapping_tickets, closeMapping_seconds,
    show (g.withdrawn n t).seconds = g.seconds from g.bayGivenUp_seconds n t]
  rfl

/-! ### The plan of a cancelled retrieval (R115) -/

theorem LiftUnit.plans_none (u : LiftUnit) (n : Nat) : (u.plans.find? fun p => p.target == n) = none ↔
    ¬ ((∃ p, u.plan = some p ∧ p.target = n) ∨ ∃ p ∈ u.waiting, p.target = n) := by
  unfold LiftUnit.plans
  rw [List.find?_eq_none]
  cases u.plan <;> simp

theorem Garage.endPlanOf_found {g : Garage} {n : Nat} {l : Lift} {p : Plan}
    (found : ((g.lift l).plans.find? fun p => p.target == n) = some p)
    (first : l = .b → (g.liftA.plans.find? fun p => p.target == n) = none) : g.endPlanOf n = g.endPlan l p := by
  unfold Garage.endPlanOf
  cases l with
  | a => rw [show (g.liftA.plans.find? fun p => p.target == n) = some p from found]
  | b => rw [first rfl, show (g.liftB.plans.find? fun p => p.target == n) = some p from found]

theorem Garage.endPlanOf_none {g : Garage} {n : Nat} (ha : (g.liftA.plans.find? fun p => p.target == n) = none)
    (hb : (g.liftB.plans.find? fun p => p.target == n) = none) : g.endPlanOf n = g := by
  unfold Garage.endPlanOf
  rw [ha, hb]

theorem Garage.releaseRelocs_eq (g : Garage) (rs : List Reloc) :
    g.releaseRelocs rs = (rs.filter fun r => !r.done).foldl (fun k r => k.release r.dest r.blocker) g := by
  unfold Garage.releaseRelocs
  rw [List.foldl_filter]
  congr 1
  funext k r
  cases r.done <;> rfl

/-- The reservations of a plan given up: its bays, and its slot in the lane of its lift. -/
def Garage.planGivenUp (g : Garage) (l : Lift) (p : Plan) : Garage :=
  if p.slot then (g.releaseRelocs p.relocs).modLift l fun u => { u with
    reserved := u.reserved - 1, waiting := u.waiting.map fun w => { w with stamp := some g.seconds } }
  else g.releaseRelocs p.relocs

theorem Garage.planGivenUp_eq (g : Garage) (l : Lift) (p : Plan) : g.planGivenUp l p =
    if p.slot then (g.releaseRelocs p.relocs).freeSlot l else g.releaseRelocs p.relocs := by
  obtain ⟨bays, tickets, e⟩ := (releaseRelocs_releases p.relocs g).rest
  unfold Garage.planGivenUp
  rw [e]
  rfl

theorem Garage.planGivenUp_plan (g : Garage) (l : Lift) (p : Plan) :
    ((g.planGivenUp l p).lift l).plan = (g.lift l).plan := by
  obtain ⟨bays, tickets, e⟩ := (releaseRelocs_releases p.relocs g).rest
  unfold Garage.planGivenUp
  rw [e]
  cases p.slot <;> cases l <;> rfl

/-- A plan that stands on its lift ends (R115). -/
theorem Garage.endPlan_standing {g : Garage} {l : Lift} {p : Plan} (h : (g.lift l).plan = some p) :
    g.endPlan l p = (g.planGivenUp l p).modLift l fun u => { u with
      plan := none, reorder := none, tenure := if u.tenure = some .plan then none else u.tenure } := by
  unfold Garage.endPlan
  show Garage.modLift (if p.slot then (g.releaseRelocs p.relocs).freeSlot l else g.releaseRelocs p.relocs) l _ = _
  rw [← g.planGivenUp_eq]
  refine modLift_congr _ _ (if_pos ?_)
  rw [g.planGivenUp_plan, h]
  rfl

/-- A plan in WAIT_LANE, which holds no reservation, leaves the plans that wait (R115, R132). -/
theorem Garage.endPlan_waiting {g : Garage} {l : Lift} {p : Plan}
    (h : ∀ q, (g.lift l).plan = some q → q.target ≠ p.target) (slot : p.slot = false) (done : ∀ r ∈ p.relocs, r.done = true) :
    g.endPlan l p = g.modLift l fun u => { u with waiting := u.waiting.filter fun w => w.target != p.target } := by
  have kept : g.releaseRelocs p.relocs = g := by
    rw [g.releaseRelocs_eq, List.filter_eq_nil_iff.mpr fun r hr => by simp [done r hr]]
    rfl
  have given : g.planGivenUp l p = g := by
    unfold Garage.planGivenUp
    rw [slot, kept]
    rfl
  unfold Garage.endPlan
  show Garage.modLift (if p.slot then (g.releaseRelocs p.relocs).freeSlot l else g.releaseRelocs p.relocs) l _ = _
  rw [← g.planGivenUp_eq, given]
  refine modLift_congr _ _ (if_neg fun e => ?_)
  obtain ⟨q, hq, target⟩ := Option.map_eq_some_iff.mp e
  exact h q hq target

/-! ### RESUME and CANCEL as a whole -/

section
variable {s : State} {st : Station} {kind flags : Byte} {pl : List Byte} {f : Caller → Nat → Ticket → Ev → Ev}
  (ask : AskedBy s st .podium ∨ AskedBy s st .desk) (podium : permits .podium kind = true)
  (desk : permits .desk kind = true) (pass : Passes s kind pl)
include ask podium desk pass

theorem ticketRequest_replies {g : Garage} {r : Result} {state : Nat}
    (h : ticketRequest kind f ⟨.s, st.number, st.role⟩ pl ⟨s.garage, []⟩ =
      Ev.ticketReply ⟨g, []⟩ ⟨.s, st.number, st.role⟩ kind r (u16 pl 0) state) :
    Replies (s.frame .s kind flags pl (workBody (ticketRequest kind f))) s st g.afterwards kind r
      (w16 (u16 pl 0) ++ w8 state) :=
  .of_request ask podium desk pass h

/-- A request answered first of all, with a frame for the station of a role after the reply. -/
theorem ticketRequest_tells {g : Garage} {r : Result} {detail : List Byte} {more : List Out} {o : Out} {role : Role}
    (h : ticketRequest kind f ⟨.s, st.number, st.role⟩ pl ⟨s.garage, []⟩ = ⟨g, replyOut st kind r detail :: more⟩)
    (ho : o ∈ more) (hr : o.dest = .role role) :
    ∃ u, s.frame .s kind flags pl (workBody (ticketRequest kind f)) = .next u ∧ u.garage = g.afterwards ∧
      Answered s u st kind r detail ∧ Sends s u role o.kind o.payload := by
  obtain ⟨u, rest, comes⟩ := s.request_comes st kind flags pl (ticketRequest kind f) ask podium desk pass
  rw [h] at comes
  exact ⟨u, comes.next, comes.garage, ⟨comes.heard, comes.answers _ _ _ _ _ rfl (by decide)⟩,
    comes.sends o (by simp [ho]) role hr⟩

end

/-- Settles O24: RESUME and CANCEL by the state of the ticket, a lemma for each, and the end of a plan by where it
is. -/
theorem resumeAndCancel : Obligations.ResumeAndCancel := by
  refine ⟨fun s st flags pl ask hm hl => ?_, fun s st flags pl ask hm hl => ?_, fun g n => ?_⟩
  · intro g n answers
    have pass : Passes s Kind.resume pl := .of_length hl (by rw [hm]; decide) rfl rfl (by decide) (by decide)
    have reply : ∀ (k : Garage) (r : Result) (state : Nat),
        resume ⟨.s, st.number, st.role⟩ pl ⟨g, []⟩ =
          Ev.ticketReply ⟨k, []⟩ ⟨.s, st.number, st.role⟩ Kind.resume r n state → answers k r state :=
      fun _ _ _ h => ticketRequest_replies ask (by decide) (by decide) pass (resume_eq ▸ h)
    refine ⟨fun hn => reply _ _ _ (ticketRequest_zero hn), fun hn ht => reply _ _ _ (ticketRequest_unknown hn ht),
      fun t hn ht => ?_⟩
    have named := ticketRequest_ticket (kind := Kind.resume) (f := resumeTicket) (c := ⟨.s, st.number, st.role⟩)
      (e := ⟨g, []⟩) hn ht
    refine ⟨fun hs => reply _ _ _ (named.trans (resumeTicket_held hs)), fun hs single hold pending mark => ?_,
      fun hs single hold => ?_, fun hs no => ?_, fun hs no => ?_,
      fun hs => reply _ _ _ (named.trans (resumeTicket_other hs))⟩
    · exact reply _ _ _ (named.trans ((resumeTicket_retrieving hs).trans (if_pos ⟨single, hold, pending, mark⟩)))
    · exact reply _ _ _ (named.trans ((resumeTicket_queued hs).trans (if_pos ⟨single, hold⟩)))
    · refine reply _ _ _ (named.trans ((resumeTicket_retrieving hs).trans (if_neg ?_)))
      rintro ⟨single, hold, pending, mark⟩
      simp [single, hold, pending, mark] at no
    · refine reply _ _ _ (named.trans ((resumeTicket_queued hs).trans (if_neg ?_)))
      rintro ⟨single, hold⟩
      simp [single, hold] at no
  · intro g n answers parked inFlight
    have pass : Passes s Kind.cancel pl := .of_length hl (by rw [hm]; decide) rfl rfl (by decide) (by decide)
    have reply : ∀ (k : Garage) (r : Result) (state : Nat),
        cancel ⟨.s, st.number, st.role⟩ pl ⟨g, []⟩ =
          Ev.ticketReply ⟨k, []⟩ ⟨.s, st.number, st.role⟩ Kind.cancel r n state → answers k r state :=
      fun _ _ _ h => ticketRequest_replies ask (by decide) (by decide) pass (cancel_eq ▸ h)
    refine ⟨fun hn => reply _ _ _ (ticketRequest_zero hn), fun hn ht => reply _ _ _ (ticketRequest_unknown hn ht),
      fun t hn ht => ?_⟩
    have named := ticketRequest_ticket (kind := Kind.cancel) (f := cancelTicket) (c := ⟨.s, st.number, st.role⟩)
      (e := ⟨g, []⟩) hn ht
    refine ⟨fun hs => reply _ _ _ (named.trans (cancelTicket_waiting hs)), fun hs flies => ?_, fun hs rests => ?_,
      fun hs => ?_, fun hs => reply _ _ _ (named.trans (cancelTicket_other hs))⟩
    · exact reply _ _ _ (named.trans (cancelTicket_inFlight hs fun no => Garage.flightOf_none.mp no flies))
    · exact reply _ _ _ (named.trans (cancelTicket_planned hs (Garage.flightOf_none.mpr rests)))
    · intro freed leave withdrawn m
      obtain ⟨more, closed⟩ := cancelTicket_allocated (n := n) hs st g
      obtain ⟨u, next, garage, answered, sent⟩ := ticketRequest_tells (flags := flags) ask (by decide) (by decide) pass
        (named.trans closed) (List.mem_append_right more (List.mem_singleton_self _)) rfl
      refine ⟨u, next, garage, answered, ?_⟩
      simp only [closedFrame, Ticket.measured, hs, Option.isSome_map] at sent
      exact sent
  · intro has
    have none : ∀ l, ((g.lift l).plans.find? fun p => p.target == n) = none ↔ ¬ has l := fun l =>
      (g.lift l).plans_none n
    refine ⟨fun ha hb => Garage.endPlanOf_none ((none .a).mpr ha) ((none .b).mpr hb), fun l p hp target first => ?_,
      fun l a p b hw target before standing first slot done => ?_⟩
    · intro released freed
      have found : ((g.lift l).plans.find? fun p => p.target == n) = some p := by
        unfold LiftUnit.plans
        rw [hp]
        simp [target]
      rw [Garage.endPlanOf_found found fun hl => (none .a).mpr (first hl), Garage.endPlan_standing hp]
      unfold Garage.planGivenUp
      rw [g.releaseRelocs_eq]
    · have found : ((g.lift l).plans.find? fun p => p.target == n) = some p := by
        unfold LiftUnit.plans
        rw [List.find?_append, hw, find_first (by simp [target]) (by simpa using before),
          List.find?_eq_none.mpr (by simpa using standing)]
        rfl
      rw [Garage.endPlanOf_found found fun hl => (none .a).mpr (first hl),
        Garage.endPlan_waiting (fun q hq => target ▸ standing q hq) slot done, target]

end Sys2Proof.Machine

namespace Sys2Proof.Machine

/-! ### RE_PARK by its ticket and the allocator (R78) -/

section
variable {c : Caller} {pl : List Byte} {e : Ev}

theorem rePark_zero (h : u16 pl 0 = 0) : rePark c pl e = e.badRequest c Kind.rePark 0 := if_pos h

theorem rePark_unknown (hn : u16 pl 0 ≠ 0) (h : e.g.ticket (u16 pl 0) = none) :
    rePark c pl e = e.reply c Kind.rePark .unknownTicket [] := by
  unfold rePark
  rw [if_neg hn, h]

theorem rePark_ticket {t : Ticket} (hn : u16 pl 0 ≠ 0) (h : e.g.ticket (u16 pl 0) = some t) :
    rePark c pl e = reParkTicket c (u16 pl 0) t (u16 pl 2) e := by
  unfold rePark
  rw [if_neg hn, h]

end

section
variable {c : Caller} {n : Nat} {t : Ticket} {hint : Nat} {e : Ev}

theorem reParkTicket_inside (hs : t.state ≠ .outbound) :
    reParkTicket c n t hint e = e.reply c Kind.rePark .notApplicable [] := if_pos hs

variable (hs : t.state = .outbound)
include hs

theorem reParkTicket_bay {x : Nat × Nat}
    (hx : e.g.choose .everywhere t.cls (e.g.formEstimate (e.g.stayUsed hint)) = some x) : reParkTicket c n t hint e =
      rePlace c n (e.g.stayUsed hint) (e.g.formEstimate (e.g.stayUsed hint)) (some x) e := by
  unfold reParkTicket
  dsimp only
  rw [if_neg (not_not.mpr hs), hx]

theorem reParkTicket_lot (hx : e.g.choose .everywhere t.cls (e.g.formEstimate (e.g.stayUsed hint)) = none)
    (room : e.g.overflowCount < e.g.limits.overflowCapacity) : reParkTicket c n t hint e =
      rePlace c n (e.g.stayUsed hint) (e.g.formEstimate (e.g.stayUsed hint)) none e := by
  unfold reParkTicket
  dsimp only
  rw [if_neg (not_not.mpr hs), hx]
  exact if_pos room

theorem reParkTicket_full (hx : e.g.choose .everywhere t.cls (e.g.formEstimate (e.g.stayUsed hint)) = none)
    (room : ¬ e.g.overflowCount < e.g.limits.overflowCapacity) :
    reParkTicket c n t hint e = e.reply c Kind.rePark .full (w16 (e.g.stayUsed hint)) := by
  unfold reParkTicket
  dsimp only
  rw [if_neg (not_not.mpr hs), hx]
  exact if_neg room

end

/-! ### RE_PARK taken (R79, R95, R174) -/

/-- The blocks once a car has its new place: the record by `f`, and the hook of its ticket RESERVED again. -/
def Garage.rePlaced (g : Garage) (n hook : Nat) (f : Ticket → Ticket) : Garage := (g.modTicket n f).tieHook hook n

theorem Garage.rePlaced_place (g : Garage) (n hook : Nat) (f : Ticket → Ticket) (choice : Option (Nat × Nat)) :
    allocationPlace (g.rePlaced n hook f) choice = allocationPlace g choice := by cases choice <;> rfl

/-- The answer to a RE_PARK comes first, then the release of the runner, which may be given its next ticket. -/
theorem releaseRunner_allocation {g : Garage} {choice : Option (Nat × Nat)} {place : List Byte}
    (h : allocationPlace g choice = place) (st : Station) (n stay : Nat) (t : Ticket) :
    ∃ more, releaseRunner n (allocation ⟨.s, st.number, st.role⟩ Kind.rePark n t choice stay ⟨g, []⟩) =
      ⟨(releaseRunner n ⟨g, []⟩).g, ⟨.reply .s st.number, Kind.allocation, [Kind.rePark, 0] ++ w16 n ++ w32 t.tag
        ++ place ++ w16 t.hook ++ wFlag t.outOfRange ++ w16 stay ++ w32 t.estimate ++ w8 t.defaultPriority,
        .plain⟩ :: more⟩ := by
  rw [allocation_eq h]
  exact releaseRunner_adds n _ _

section
variable {c : Caller} {n stay estimate : Nat} {t : Ticket} {g : Garage} (ht : g.ticket n = some t)
include ht

theorem rePlace_bay {b score : Nat} {l : Lift} (hl : g.liftOfBay b = some l) :
    rePlace c n stay estimate (some (b, score)) ⟨g, []⟩ =
      let f (x : Ticket) := x.reParked (some b) (.hall l) estimate c.station (!inRange (g.rangeFor (some l)) x.hook)
      releaseRunner n (allocation c Kind.rePark n (f t) (some (b, score)) stay
        ⟨(g.reserve b n).rePlaced n t.hook f, []⟩) := by
  have found := ticket_modTicket (g.reserve b n) n fun x =>
    x.reParked (some b) (.hall l) estimate c.station (!inRange (g.rangeFor (some l)) x.hook)
  rw [show (g.reserve b n).ticket n = some t from ht] at found
  unfold rePlace Garage.hallFor
  dsimp only [Option.map, Option.bind, Ev.modG]
  rw [hl]
  dsimp only [Option.getD]
  rw [found]
  rfl

theorem rePlace_lot : rePlace c n stay estimate none ⟨g, []⟩ =
    let f (x : Ticket) := x.reParked none .lot estimate c.station (!inRange g.rangeO x.hook)
    releaseRunner n (allocation c Kind.rePark n (f t) none stay ⟨g.rePlaced n t.hook f, []⟩) := by
  have found := ticket_modTicket g n fun x => x.reParked none .lot estimate c.station (!inRange g.rangeO x.hook)
  rw [ht] at found
  unfold rePlace
  dsimp only [Option.map, Option.bind, Ev.modG, Garage.rangeFor]
  rw [found]
  rfl

end

/-! ### RE_PARK as a whole -/

section
variable {s : State} {st : Station} {pl : List Byte} (flags : Byte) (ask : AskedBy s st .podium)
  (hm : s.garage.mode = .service) (hl : pl.length = 4)
include hm hl

theorem rePark_passes : Passes s Kind.rePark pl :=
  .of_length hl (by rw [hm]; decide) rfl rfl (by decide) (by decide)

include ask

theorem rePark_replies {g : Garage} {r : Result} {detail : List Byte}
    (h : rePark ⟨.s, st.number, st.role⟩ pl ⟨s.garage, []⟩ = ⟨g, [replyOut st Kind.rePark r detail]⟩) :
    Replies (exec (.rePark .s flags pl) s) s st g.afterwards Kind.rePark r detail :=
  Replies.of_work ask rfl (by decide) (rePark_passes hm hl) h

theorem rePark_allocates {g : Garage} {payload : List Byte}
    (h : ∃ more, rePark ⟨.s, st.number, st.role⟩ pl ⟨s.garage, []⟩ =
      ⟨g, ⟨.reply .s st.number, Kind.allocation, payload, .plain⟩ :: more⟩) :
    ∃ u, exec (.rePark .s flags pl) s = .next u ∧ u.garage = g.afterwards ∧
      AnsweredWith s u st (originated st.number Kind.allocation payload) := by
  obtain ⟨more, h⟩ := h
  obtain ⟨u, rest, comes⟩ := s.work_comes st .podium Kind.rePark flags pl rePark ask rfl (by decide)
    (rePark_passes hm hl)
  rw [h] at comes
  exact ⟨u, comes.next, comes.garage, comes.heard, comes.answers _ _ _ _ (more ++ rest) rfl (by decide)⟩

end

/-- Settles O26: each refusal of a RE_PARK, and its two places, by a lemma each. -/
theorem reParkAnswered : Obligations.ReParkAnswered := by
  intro s st flags pl ask hm hl g n answers
  refine ⟨fun hn => rePark_replies flags ask hm hl (rePark_zero hn),
    fun hn ht => rePark_replies flags ask hm hl (rePark_unknown hn ht), fun t hn ht => ?_⟩
  have named := rePark_ticket (c := ⟨.s, st.number, st.role⟩) (e := ⟨g, []⟩) hn ht
  refine ⟨fun hs => rePark_replies flags ask hm hl (named.trans (reParkTicket_inside hs)), fun hs => ?_⟩
  intro stay estimate inside placed answer
  refine ⟨fun b bay l score hx hb lift => ?_, fun hx room => ?_, fun hx room => ?_⟩
  · have kept : (g.reserve b n).bay b = some { bay with occ := .reserved n } := by
      rw [reserve_bay, if_pos rfl, hb]
      rfl
    have place := ((g.reserve b n).rePlaced_place n t.hook (fun x => x.reParked (some b) (.hall l) estimate st.number
      (!inRange (g.rangeFor (some l)) x.hook)) _).trans
        (allocationPlace_bay kept ((reserve_lift g b n b).trans lift) score)
    obtain ⟨more, answered⟩ := releaseRunner_allocation place st n stay _
    exact rePark_allocates flags ask hm hl
      ⟨more, (named.trans (reParkTicket_bay hs hx)).trans ((rePlace_bay ht lift).trans answered)⟩
  · obtain ⟨more, answered⟩ := releaseRunner_allocation (choice := none) rfl st n stay _
    exact rePark_allocates flags ask hm hl
      ⟨more, (named.trans (reParkTicket_lot hs hx room)).trans ((rePlace_lot ht).trans answered)⟩
  · exact rePark_replies flags ask hm hl (named.trans (reParkTicket_full hs hx room))

end Sys2Proof.Machine

namespace Sys2Proof.Machine

/-! ### KEY_IN by its hook (R88) -/

section
variable {c : Caller} {pl : List Byte} {e : Ev}

theorem keyIn_noHook (h : e.g.hooks.find (u16 pl 0) = none) :
    keyIn c pl e = keyUnexpected (u16 pl 0) true (u32 pl 2) none e := by
  unfold keyIn
  rw [h]

variable {h : Hook} (hh : e.g.hooks.find (u16 pl 0) = some h)
include hh

theorem keyIn_noTag (tag : u32 pl 2 = 0) : keyIn c pl e = keyUnexpected (u16 pl 0) true 0 none e := by
  unfold keyIn
  rw [hh]
  exact if_pos tag

theorem keyIn_hook (tag : u32 pl 2 ≠ 0) : keyIn c pl e = keyInHook (u16 pl 0) (u32 pl 2) h e := by
  unfold keyIn
  rw [hh]
  exact if_neg tag

end

section
variable {hook tag : Nat} {h : Hook} {e : Ev}

theorem keyInHook_free (hs : h.state = .free) : keyInHook hook tag h e =
    keyStray hook tag (e.modG fun g => g.modHook hook fun _ => ⟨.stray, none, some tag⟩) := by
  unfold keyInHook
  rw [hs]

theorem keyInHook_tied (hs : h.state = .reserved ∨ h.state = .out) :
    keyInHook hook tag h e = keyHungTied hook tag h e := by
  unfold keyInHook
  rcases hs with hs | hs <;> rw [hs]

theorem keyInHook_other (hs : h.state ∈ [HookState.held, .released, .mishung, .stray, .disabled]) :
    keyInHook hook tag h e = keyUnexpected hook true tag (some h.state) e := by
  unfold keyInHook
  cases state : h.state with
  | free | reserved | out => simp [state] at hs
  | _ => rfl

end

/-! ### A key hung on a tied hook (R88, R89, R91) -/

section
variable {hook n tag : Nat} {h : Hook} {t : Ticket} {e : Ev}

theorem Garage.tagOf_ticket {g : Garage} (ht : g.ticket n = some t) : g.tagOf n = t.tag := by
  unfold Garage.tagOf
  rw [ht]
  rfl

/-- The blocks once the right key hangs on a tied hook, RELEASED at once or HELD. -/
def Garage.keyHung (g : Garage) (hook n tag : Nat) (wasOut : Prop) [Decidable wasOut] (state : HookState) : Garage :=
  { g with
    hooks := g.hooks.adjust hook fun h => { h with state := state, tag := some tag }
    tickets := g.tickets.adjust n fun t => if wasOut then { t with keyStatus := .normal } else t }

section
variable (hn : h.ticket = some n) (ht : e.g.ticket n = some t)
include hn ht

theorem keyHungTied_wrong (wrong : tag ≠ t.tag) : keyHungTied hook tag h e = keyMishung hook n t.tag tag e := by
  unfold keyHungTied
  rw [hn]
  dsimp only [orZero, Option.getD]
  rw [Garage.tagOf_ticket ht]
  exact if_neg wrong

theorem keyHungTied_right (right : tag = t.tag) :
    keyHungTied hook tag h e = keyReturned hook n tag (h.state == .out) e := by
  unfold keyHungTied
  rw [hn]
  dsimp only [orZero, Option.getD]
  rw [Garage.tagOf_ticket ht]
  exact if_pos right

end

/-- R91: the hook of a READY or OUTBOUND ticket opens as its key is hung; any other keeps it. -/
theorem keyReturned_eq (ht : e.g.ticket n = some t) : keyReturned hook n tag (h.state == .out) e =
    ⟨e.g.keyHung hook n tag (h.state = .out)
        (if t.state = .ready ∨ t.state = .outbound then .released else .held),
      e.out ++ if t.state = .ready ∨ t.state = .outbound then [hookOpenFrame hook n tag] else []⟩ := by
  unfold keyReturned Garage.keyHung
  rw [ht]
  by_cases opens : t.state = .ready ∨ t.state = .outbound
  · simp [opens, Ev.emit, Ev.modG, Garage.modHook, Garage.modTicket]
  · simp [opens, Ev.modG, Garage.modHook, Garage.modTicket]

end

/-! ### KEY_OUT by its hook (R90) -/

section
variable {c : Caller} {pl : List Byte} {e : Ev}

theorem keyOut_noHook (h : e.g.hooks.find (u16 pl 0) = none) :
    keyOut c pl e = keyUnexpected (u16 pl 0) false 0 none e := by
  unfold keyOut
  rw [h]

theorem keyOut_hook {h : Hook} (hh : e.g.hooks.find (u16 pl 0) = some h) :
    keyOut c pl e = keyOutHook (u16 pl 0) h e := by
  unfold keyOut
  rw [hh]

end

section
variable {hook : Nat} {h : Hook} {e : Ev}

theorem keyOutHook_released (hs : h.state = .released) : keyOutHook hook h e =
    e.modG fun g => g.modHook hook fun h => { h with state := .out, tag := none } := by
  unfold keyOutHook
  rw [hs]

theorem keyOutHook_held (hs : h.state = .held) : keyOutHook hook h e =
    (e.modG fun g => (g.modHook hook fun h => { h with state := .out, tag := none }).modTicket (h.ticket.getD 0)
      fun t => { t with keyStatus := .takenUnreleased }).alert AlertKind.keyTaken
        (w16 hook ++ w16 (h.ticket.getD 0)) := by
  unfold keyOutHook
  rw [hs]
  rfl

theorem keyOutHook_mishung (hs : h.state = .mishung) : keyOutHook hook h e =
    e.modG fun g => (g.modHook hook fun h => { h with state := .reserved, tag := none }).modTicket (h.ticket.getD 0)
      fun t => { t with keyStatus := .normal } := by
  unfold keyOutHook
  rw [hs]
  rfl

theorem keyOutHook_stray (hs : h.state = .stray) : keyOutHook hook h e =
    e.modG fun g => g.modHook hook fun _ => ⟨.free, none, none⟩ := by
  unfold keyOutHook
  rw [hs]

theorem keyOutHook_other (hs : h.state ∈ [HookState.free, .reserved, .out, .disabled]) :
    keyOutHook hook h e = keyUnexpected hook false 0 (some h.state) e := by
  unfold keyOutHook
  cases state : h.state with
  | released | held | mishung | stray => simp [state] at hs
  | _ => rfl

end

/-! ### KEY_IN and KEY_OUT as a whole -/

section
variable {s : State} {st : Station} {pl : List Byte} (flags : Byte) (ask : AskedBy s st .cabinet)

section
variable (hl : pl.length = 6)
include hl

theorem keyIn_passes : Passes s Kind.keyIn pl := .of_both hl (by decide) rfl rfl (by decide) (by decide)

include ask

theorem keyIn_notes {g : Garage} {kind : Nat} {args : List Byte}
    (h : keyIn ⟨.s, st.number, st.role⟩ pl ⟨s.garage, []⟩ = ⟨g, [alertOut s.garage.seconds kind args]⟩) :
    NotesS (exec (.keyIn .s flags pl) s) s st g [(kind, args)] :=
  NotesS.of_event ask rfl (by decide) (keyIn_passes hl) h

/-- R88, R91: the right key hung on a tied hook, with HOOK_OPEN to the cabinet when its ticket is READY or
OUTBOUND. -/
theorem keyIn_returns {h : Hook} {n : Nat} {t : Ticket} (hh : s.garage.hooks.find (u16 pl 0) = some h)
    (tag : u32 pl 2 ≠ 0) (hs : h.state = .reserved ∨ h.state = .out) (hn : h.ticket = some n)
    (ht : s.garage.ticket n = some t) (right : u32 pl 2 = t.tag) :
    ∃ u, exec (.keyIn .s flags pl) s = .next u ∧
      u.garage = s.garage.keyHung (u16 pl 0) n (u32 pl 2) (h.state = .out)
        (if t.state = .ready ∨ t.state = .outbound then .released else .held) ∧
      HeardS s u st ∧
      (t.state = .ready ∨ t.state = .outbound →
        Sends s u .cabinet Kind.hookOpen (w16 (u16 pl 0) ++ w16 n ++ w32 (u32 pl 2))) := by
  obtain ⟨u, comes⟩ := s.frame_comes st .cabinet Kind.keyIn flags pl keyIn ask rfl (by decide) (keyIn_passes hl)
  have returned := (keyIn_hook (c := ⟨.s, st.number, st.role⟩) (e := ⟨s.garage, []⟩) hh tag).trans
    ((keyInHook_tied hs).trans ((keyHungTied_right hn ht right).trans (keyReturned_eq ht)))
  rw [returned] at comes
  refine ⟨u, comes.next, comes.garage, comes.heard, fun opens => ?_⟩
  exact comes.sends (hookOpenFrame (u16 pl 0) n (u32 pl 2)) (by simp [opens]) .cabinet rfl

end

section
variable (hl : pl.length = 2)
include hl

theorem keyOut_passes : Passes s Kind.keyOut pl := .of_both hl (by decide) rfl rfl (by decide) (by decide)

include ask

theorem keyOut_notes {g : Garage} {kind : Nat} {args : List Byte}
    (h : keyOut ⟨.s, st.number, st.role⟩ pl ⟨s.garage, []⟩ = ⟨g, [alertOut s.garage.seconds kind args]⟩) :
    NotesS (exec (.keyOut .s flags pl) s) s st g [(kind, args)] :=
  NotesS.of_event ask rfl (by decide) (keyOut_passes hl) h

theorem keyOut_quiet {g : Garage} (h : keyOut ⟨.s, st.number, st.role⟩ pl ⟨s.garage, []⟩ = ⟨g, []⟩) :
    NotesS (exec (.keyOut .s flags pl) s) s st g [] :=
  NotesS.of_quiet ask rfl (by decide) (keyOut_passes hl) (congrArg Ev.g h)

end

end

/-- Settles O28: each case of KEY_IN and of KEY_OUT by the lemma for its hook. -/
theorem keyEvents : Obligations.KeyEvents := by
  intro s st flags pl ask g hook tag set
  refine ⟨fun hl => ?_, fun hl => ?_⟩
  · refine ⟨fun hh => keyIn_notes flags ask hl (keyIn_noHook hh), fun h hh => ?_⟩
    have found := fun ht => keyIn_hook (c := ⟨.s, st.number, st.role⟩) (e := ⟨g, []⟩) hh ht
    refine ⟨fun ht => keyIn_notes flags ask hl (keyIn_noTag hh ht),
      fun ht hs => keyIn_notes flags ask hl ((found ht).trans (keyInHook_free hs)),
      fun ht hs => keyIn_notes flags ask hl ((found ht).trans (keyInHook_other hs)),
      fun n t htag hs hn ht => ⟨fun wrong => ?_, fun right => keyIn_returns flags ask hl hh htag hs hn ht right⟩⟩
    exact keyIn_notes flags ask hl
      ((found htag).trans ((keyInHook_tied hs).trans (keyHungTied_wrong hn ht wrong)))
  · refine ⟨fun hh => keyOut_notes flags ask hl (keyOut_noHook hh), fun h hh => ?_⟩
    have found := keyOut_hook (c := ⟨.s, st.number, st.role⟩) (e := ⟨g, []⟩) hh
    exact ⟨fun hs => keyOut_quiet flags ask hl (found.trans (keyOutHook_released hs)),
      fun hs => keyOut_notes flags ask hl (found.trans (keyOutHook_held hs)),
      fun hs => keyOut_quiet flags ask hl (found.trans (keyOutHook_mishung hs)),
      fun hs => keyOut_quiet flags ask hl (found.trans (keyOutHook_stray hs)),
      fun hs => keyOut_notes flags ask hl (found.trans (keyOutHook_other hs))⟩

end Sys2Proof.Machine

namespace Sys2Proof.Machine

/-! ### The hook of a ticket that closes (R94) -/

section
variable {t : Ticket} {h : Hook} {e : Ev} (hh : e.g.hooks.find t.hook = some h)
include hh

theorem closeMapping_empty (hs : h.state = .out ∨ h.state = .reserved) :
    closeMapping t e = e.modG fun g => g.modHook t.hook fun _ => ⟨.free, none, none⟩ := by
  unfold closeMapping
  rw [hh]
  rcases hs with hs | hs <;> simp only [hs]

theorem closeMapping_hung (hs : h.state = .held ∨ h.state = .released) : closeMapping t e =
    keyStray t.hook t.tag (e.modG fun g => g.modHook t.hook fun _ => ⟨.stray, none, some t.tag⟩) := by
  unfold closeMapping
  rw [hh]
  rcases hs with hs | hs <;> simp only [hs]

theorem closeMapping_mishung {tag : Nat} (hs : h.state = .mishung) (ht : h.tag = some tag) : closeMapping t e =
    keyStray t.hook tag (e.modG fun g => g.modHook t.hook fun _ => ⟨.stray, none, some tag⟩) := by
  unfold closeMapping
  rw [hh]
  simp only [hs, ht, orZero, Option.getD_some]

end

/-! ### HANDOVER by the state of its ticket (R170 to R173) -/

theorem handover_eq : handover = ticketRequest Kind.handover handoverTicket := rfl

theorem handoverTicket_taken {c : Caller} {n : Nat} {t : Ticket} {e : Ev} (hs : t.state = .ready ∨ t.state = .outbound) :
    handoverTicket c n t e = handOver c n t e := if_pos hs

theorem handoverTicket_other {c : Caller} {n : Nat} {t : Ticket} {e : Ev} (ready : t.state ≠ .ready)
    (outbound : t.state ≠ .outbound) :
    handoverTicket c n t e = e.ticketReply c Kind.handover .notApplicable n (ticketStateCode t.state) :=
  if_neg (not_or.mpr ⟨ready, outbound⟩)

/-- R172 ❶ ❸: a READY ticket has left its lane and the wait list. -/
def Garage.ticketLeft (g : Garage) (n : Nat) (t : Ticket) : Garage := if t.state = .ready then g.leaveReady n t else g

theorem Garage.ticketLeft_seconds (g : Garage) (n : Nat) (t : Ticket) : (g.ticketLeft n t).seconds = g.seconds := by
  unfold Garage.ticketLeft
  split
  · exact congrArg Fixed.seconds (g.leaveReady_fixed n t)
  · rfl

/-- The release of a runner and the close mapping add frames after those of the event. -/
theorem closeMapping_releaseRunner_adds (t : Ticket) (n : Nat) (g : Garage) (out : List Out) :
    ∃ more, closeMapping t (releaseRunner n ⟨g, out⟩) =
      ⟨(closeMapping t (releaseRunner n ⟨g, []⟩)).g, out ++ more⟩ := by
  obtain ⟨tasks, released⟩ := releaseRunner_adds n g out
  obtain ⟨alerts, mapped⟩ := closeMapping_adds t (releaseRunner n ⟨g, []⟩).g (out ++ tasks)
  obtain ⟨_, alone⟩ := closeMapping_adds t (releaseRunner n ⟨g, []⟩).g (releaseRunner n ⟨g, []⟩).out
  refine ⟨tasks ++ alerts, ?_⟩
  rw [released, mapped, List.append_assoc]
  exact congrArg (Ev.mk · _) (congrArg Ev.g alone).symm

/-- R171 to R173: the reply, the runner released, the close mapping, and TICKET_CLOSED with the cause HANDED_OVER. -/
theorem handOver_closes (st : Station) (n : Nat) (t : Ticket) (g : Garage) :
    let closed := (closeMapping t (releaseRunner n ⟨g.ticketLeft n t, []⟩)).g
    ∃ more, handOver ⟨.s, st.number, st.role⟩ n t ⟨g, []⟩ =
      ⟨{ closed with tickets := closed.tickets.remove n },
        replyOut st Kind.handover .taken (w16 n ++ w8 (ticketStateCode t.state)) ::
          (more ++ [closedFrame n (t.measured (Measure.recordClose g.seconds)) st.number .handedOver])⟩ := by
  intro closed
  obtain ⟨more, mapped⟩ := closeMapping_releaseRunner_adds t n (g.ticketLeft n t)
    [replyOut st Kind.handover .taken (w16 n ++ w8 (ticketStateCode t.state))]
  have seconds : closed.seconds = g.seconds :=
    calc closed.seconds = (releaseRunner n ⟨g.ticketLeft n t, []⟩).g.seconds := closeMapping_seconds t _
      _ = (g.ticketLeft n t).seconds := congrArg Fixed.seconds (releaseRunner_fixed n _)
      _ = g.seconds := g.ticketLeft_seconds n t
  have ends : handOver ⟨.s, st.number, st.role⟩ n t ⟨g, []⟩ = closeTicket n t st.number .handedOver
      (closeMapping t (releaseRunner n
        ⟨g.ticketLeft n t, [replyOut st Kind.handover .taken (w16 n ++ w8 (ticketStateCode t.state))]⟩)) := rfl
  refine ⟨more, ?_⟩
  rw [ends, mapped, closeTicket_eq]
  dsimp only
  rw [seconds]
  rfl

/-! ### HANDOVER as a whole -/

section
variable {s : State} {st : Station} {pl : List Byte} (flags : Byte) (ask : AskedBy s st .podium)
  (hm : s.garage.mode = .service) (hl : pl.length = 2)
include hm hl

theorem handover_passes : Passes s Kind.handover pl :=
  .of_length hl (by rw [hm]; decide) rfl rfl (by decide) (by decide)

include ask

theorem handover_replies {g : Garage} {r : Result} {state : Nat}
    (h : handover ⟨.s, st.number, st.role⟩ pl ⟨s.garage, []⟩ =
      Ev.ticketReply ⟨g, []⟩ ⟨.s, st.number, st.role⟩ Kind.handover r (u16 pl 0) state) :
    Replies (exec (.handover .s flags pl) s) s st g.afterwards Kind.handover r (w16 (u16 pl 0) ++ w8 state) :=
  Replies.of_work ask rfl (by decide) (handover_passes hm hl) h

/-- A HANDOVER answered first of all and told to the office station last of all. -/
theorem handover_tells {g : Garage} {r : Result} {detail : List Byte} {o : Out} (hr : o.dest = .role .office)
    (h : ∃ more, handover ⟨.s, st.number, st.role⟩ pl ⟨s.garage, []⟩ =
      ⟨g, replyOut st Kind.handover r detail :: (more ++ [o])⟩) :
    ∃ u, exec (.handover .s flags pl) s = .next u ∧ u.garage = g.afterwards ∧
      Answered s u st Kind.handover r detail ∧ Sends s u .office o.kind o.payload := by
  obtain ⟨more, h⟩ := h
  obtain ⟨u, rest, comes⟩ := s.work_comes st .podium Kind.handover flags pl handover ask rfl (by decide)
    (handover_passes hm hl)
  rw [h] at comes
  exact ⟨u, comes.next, comes.garage, ⟨comes.heard, comes.answers _ _ _ _ _ rfl (by decide)⟩,
    comes.sends o (by simp) .office hr⟩

end

/-- Settles O25: each answer to a HANDOVER by the state of its ticket, and the close mapping by the state of the
hook. -/
theorem handoverCloses : Obligations.HandoverCloses := by
  refine ⟨fun s st flags pl ask hm hl => ?_, fun t h e hh => ?_⟩
  · intro g n answers
    refine ⟨fun hn => handover_replies flags ask hm hl (ticketRequest_zero hn),
      fun hn ht => handover_replies flags ask hm hl (ticketRequest_unknown hn ht), fun t hn ht => ?_⟩
    have named : handover ⟨.s, st.number, st.role⟩ pl ⟨g, []⟩ = handoverTicket ⟨.s, st.number, st.role⟩ n t ⟨g, []⟩ :=
      ticketRequest_ticket hn ht
    refine ⟨fun ready outbound =>
      handover_replies flags ask hm hl (named.trans (handoverTicket_other ready outbound)), fun hs => ?_⟩
    intro left released closed m
    have leaves : g.ticketLeft n t = left := by
      show g.ticketLeft n t = if t.state = .ready then _ else g
      unfold Garage.ticketLeft Garage.leaveReady
      cases t.location <;> rfl
    obtain ⟨more, handed⟩ := handOver_closes st n t g
    obtain ⟨u, next, garage, answered, sent⟩ := handover_tells flags ask hm hl rfl
      ⟨more, named.trans ((handoverTicket_taken hs).trans handed)⟩
    rw [leaves] at garage
    refine ⟨u, next, garage, answered, ?_⟩
    simp only [closedFrame, Ticket.measured, Option.isSome_map] at sent
    exact sent
  · intro hook stray
    exact ⟨closeMapping_empty hh, closeMapping_hung hh, fun _ => closeMapping_mishung hh⟩

end Sys2Proof.Machine

namespace Sys2Proof.Machine

/-! ### RETRIEVE (R100 to R104) -/

section
variable {c : Caller} {pl : List Byte} {e : Ev}

theorem retrieve_zero (h : u16 pl 0 = 0) :
    retrieve c pl e = retrieveRefused c (u16 pl 0) 0xFF .badRequest e :=
  (if_pos h).trans (by rw [h]; rfl)

theorem retrieve_unknown (hn : u16 pl 0 ≠ 0) (h : e.g.ticket (u16 pl 0) = none) :
    retrieve c pl e = retrieveRefused c (u16 pl 0) 0xFF .unknownTicket e := by
  unfold retrieve
  rw [if_neg hn, h]
  rfl

variable {t : Ticket}

theorem retrieve_ticket (hn : u16 pl 0 ≠ 0) (ht : e.g.ticket (u16 pl 0) = some t) :
    retrieve c pl e = retrieveTicket c pl (u16 pl 0) t e := by
  unfold retrieve
  rw [if_neg hn, ht]

variable {n : Nat}

theorem retrieveTicket_queueFull (hs : t.state = .parked) (full : 64 ≤ e.g.placesHeld) :
    retrieveTicket c pl n t e = retrieveRefused c n 2 .queueFull e := by
  unfold retrieveTicket
  rw [hs]
  exact if_pos (show Config.places ≤ _ from full)

theorem retrieveTicket_overflow (hs : t.state = .overflow) :
    retrieveTicket c pl n t e = releaseAtLot c n (priorityUsed pl t) e := by
  unfold retrieveTicket
  rw [hs]

/-- R101: how a RETRIEVE that changes nothing is answered, by a state that is neither PARKED nor OVERFLOW. -/
def retrieveAnswer : TicketState → Result
  | .queued | .retrieving | .held => .inProgress
  | .ready | .outbound => .handoverPending
  | _ => .notParked

theorem retrieveTicket_answers (parked : t.state ≠ .parked) (overflow : t.state ≠ .overflow) :
    retrieveTicket c pl n t e = retrieveRefused c n (ticketStateCode t.state) (retrieveAnswer t.state) e := by
  unfold retrieveTicket
  cases hs : t.state with
  | parked => exact absurd hs parked
  | overflow => exact absurd hs overflow
  | _ => rfl

/-- R102: the blocks once a PARKED ticket has joined the tail of the queue with the counter's value. -/
theorem joinQueue_below {st : Station} {g : Garage} (prio : Nat) (hold : Bool) (below : g.requestCounter ≠ 4294967295) :
    joinQueue ⟨.s, st.number, st.role⟩ n prio hold ⟨g, []⟩ =
      ⟨{ g with
          requestCounter := g.requestCounter + 1
          tickets := g.tickets.adjust n fun t =>
            t.toQueued g.seconds g.requestCounter prio hold (if st.role = .podium then st.number else t.podium)
          queue := g.queue ++ [⟨n, none⟩] },
        [replyOut st Kind.retrieve .taken (w16 n ++ [4] ++ w32 g.requestCounter ++ w8 prio ++ wFlag hold ++
          w8 (g.queue.length + 1))]⟩ := by
  have told := joinQueue_out ⟨.s, st.number, st.role⟩ n prio hold ⟨g, []⟩
  rw [show (Ev.mk g []).g.takeSeq = _ from Garage.takeSeq_below below] at told
  unfold joinQueue at told ⊢
  rw [show (Ev.mk g []).g.takeSeq = _ from Garage.takeSeq_below below] at told ⊢
  exact congrArg (Ev.mk _) told

/-- R104: the reply for an OVERFLOW ticket, then its entry into READY at the lot. -/
theorem releaseAtLot_below {st : Station} {g : Garage} (prio : Nat) (below : g.requestCounter ≠ 4294967295) :
    ∃ more, releaseAtLot ⟨.s, st.number, st.role⟩ n prio ⟨g, []⟩ =
      ⟨(enterReady n .lot ⟨({ g with requestCounter := g.requestCounter + 1 } : Garage).modTicket n fun t => { t with
          podium := if st.role = .podium then st.number else t.podium
          measure := t.measure.map fun m => m.markWait g.seconds }, []⟩).g,
        replyOut st Kind.retrieve .taken (w16 n ++ [7] ++ w32 0 ++ w8 prio ++ [0, 0]) :: more⟩ := by
  obtain ⟨more, entered⟩ := enterReady_adds n .lot
    (({ g with requestCounter := g.requestCounter + 1 } : Garage).modTicket n fun t => { t with
      podium := if st.role = .podium then st.number else t.podium
      measure := t.measure.map fun m => m.markWait g.seconds })
    [replyOut st Kind.retrieve .taken (w16 n ++ [7] ++ w32 0 ++ w8 prio ++ [0, 0])]
  refine ⟨more, Eq.trans ?_ entered⟩
  unfold releaseAtLot
  simp only [Ev.modG, Garage.takeSeq_below below]
  rfl

end

/-- Settles O23: a RETRIEVE that joins the queue or releases a car at the lot, and each that changes nothing. -/
theorem retrieveAnswered : Obligations.RetrieveAnswered := by
  have passes : ∀ {s : State} {pl : List Byte}, s.garage.mode = .service → pl.length = 4 → Passes s Kind.retrieve pl :=
    fun hm hl => .of_length hl (by rw [hm]; decide) rfl rfl (by decide) (by decide)
  refine ⟨fun s st flags pl k ask hm hl hn hk below => ?_, fun s st flags pl ask hm hl => ?_⟩
  · intro g n now prio counted
    have replies : ∀ {h : Garage} {detail more}, retrieve ⟨.s, st.number, st.role⟩ pl ⟨g, []⟩ =
        ⟨h, replyOut st Kind.retrieve .taken detail :: more⟩ →
          Replies (exec (.retrieve .s flags pl) s) s st h.afterwards Kind.retrieve .taken detail :=
      Replies.of_request ask (by decide) (by decide) (passes hm hl)
    refine ⟨fun hs room => ?_, fun hs => ?_⟩
    · exact replies ((retrieve_parked hn hk hs room).trans (joinQueue_below _ _ below.ne))
    · obtain ⟨more, released⟩ := releaseAtLot_below (n := n) (st := st) (g := g) prio below.ne
      exact replies ((retrieve_ticket hn hk).trans ((retrieveTicket_overflow hs).trans released))
  · intro g n answers
    have reply : ∀ r state, retrieve ⟨.s, st.number, st.role⟩ pl ⟨g, []⟩ =
        retrieveRefused ⟨.s, st.number, st.role⟩ n state r ⟨g, []⟩ → answers r state :=
      fun r state h => Replies.of_request (f := retrieve) ask (by decide) (by decide) (passes hm hl) (more := [])
        (h.trans rfl)
    refine ⟨fun hn => reply _ _ (retrieve_zero hn), fun hn hk => reply _ _ (retrieve_unknown hn hk), fun k hn hk => ?_⟩
    have told : k.state ≠ .parked → k.state ≠ .overflow → answers (retrieveAnswer k.state) (ticketStateCode k.state) :=
      fun parked overflow => reply _ _ ((retrieve_ticket hn hk).trans (retrieveTicket_answers parked overflow))
    refine ⟨fun hs full => reply _ _ ((retrieve_ticket hn hk).trans (retrieveTicket_queueFull hs full)),
      ?_, ?_, ?_, ?_, ?_, ?_, ?_, ?_⟩
    all_goals
      intro hs
      rw [hs] at told
      exact told (by decide) (by decide)

end Sys2Proof.Machine

namespace Sys2Proof.Machine

/-! ### The completion of a move (R130, R133, R134) -/

section
variable {l : Lift} {m : Move} {e : Ev}

theorem complete_park {b : Nat} (hk : m.kind = .park) (hb : m.dest = .bay b) : complete l m e =
    ⟨((e.g.fill b m.ticket).modLift l fun u => { u with hall := none, parkRequest := none }).modTicket m.ticket
      fun t => { t with
        state := .parked, bay := some b, location := .bay b, unresolved := none
        measure := t.measure.map (Measure.markParked e.g.seconds) }, e.out⟩ := by
  unfold complete Garage.parked
  rw [hk, hb]
  rfl

theorem complete_relocation {a b : Nat} (hk : m.kind = .relocation) (ha : m.source = .bay a) (hb : m.dest = .bay b) :
    complete l m e = ⟨((((e.g.vacate a m.ticket).fill b m.ticket).modTicket m.ticket fun t => { t with
      bay := some b, location := .bay b, relocations := min (t.relocations + 1) 255 }).markRelocated l
        m.ticket).endIfCancelled l, e.out⟩ := by
  unfold complete Garage.relocated
  rw [hk, ha, hb]
  rfl

theorem complete_final {a : Nat} (hk : m.kind = .final) (ha : m.source = .bay a) : complete l m e =
    enterReady m.ticket (.lane l) ⟨(e.g.vacate a m.ticket).modLift l fun u => { u with
      lane := u.lane ++ [m.ticket], reserved := u.reserved - 1, plan := none }, e.out⟩ := by
  unfold complete Garage.joinLane
  rw [hk, ha]
  simp only [Ev.modG, modLift_modLift]
  rfl

/-- The frames originated so far do not decide what a completion does. -/
theorem complete_blind {d : Ev} (h : d.g = e.g) : (complete l m d).g = (complete l m e).g := by
  unfold complete
  split
  · simp only [Ev.modG_g, h]
  · exact enterReady_blind _ _ (by simp only [Ev.modG_g, h])
  · simp only [Ev.modG_g, h]

end

/-! ### A cancelled plan (R115, R116, R130) -/

section
variable {g : Garage} {l : Lift}

theorem Garage.endIfCancelled_noPlan (h : (g.lift l).plan = none) : g.endIfCancelled l = g := by
  unfold Garage.endIfCancelled
  rw [h]

variable {p : Plan} (hp : (g.lift l).plan = some p)
include hp

theorem Garage.endIfCancelled_unmarked (h : ∀ t, g.ticket p.target = some t → t.cancelMark = false) :
    g.endIfCancelled l = g := by
  have unmarked : g.cancelMarked p.target = false := by
    unfold Garage.cancelMarked
    cases ht : g.ticket p.target with
    | none => rfl
    | some t => exact h t ht
  unfold Garage.endIfCancelled
  rw [hp]
  exact if_neg (by rw [unmarked]; decide)

theorem Garage.endIfCancelled_marked {t : Ticket} (ht : g.ticket p.target = some t) (mark : t.cancelMark = true) :
    g.endIfCancelled l = (g.endPlan l p).becomeParked p.target := by
  have marked : g.cancelMarked p.target = true := by
    unfold Garage.cancelMarked
    rw [ht]
    exact mark
  unfold Garage.endIfCancelled
  rw [hp]
  exact if_pos marked

end

/-! ### Reports for the move in flight (R136) -/

/-- The gates, for a MOVE_FAULT with a position and a MOVE_REFUSED with a reason. -/
theorem Passes.of_report {s : State} {kind : Byte} {pl : List Byte} {most : Nat} (hl : pl.length = 2)
    (hk : (kind = Kind.moveFault ∧ most = 2) ∨ (kind = Kind.moveRefused ∧ most = 1)) (code : u8 pl 1 ≤ most) :
    Passes s kind pl := by
  have coded : decide (most < u8 pl 1) = false := decide_eq_false (Nat.not_lt.mpr code)
  rcases hk with ⟨rfl, rfl⟩ | ⟨rfl, rfl⟩
  all_goals
    refine ⟨takenIn_both _ (by decide), ?_, by omega⟩
    unfold wellShaped
    rw [coded, hl]
    rfl

theorem LiftUnit.matchReport_inFlight {u : LiftUnit} {m : Move} {n : Nat} (h : u.inFlight = some m) (hn : m.number = n) :
    u.matchReport n = .inFlight m := by
  unfold LiftUnit.matchReport numbered
  rw [h]
  dsimp only
  rw [if_pos hn]

section
variable {l : Lift} {m : Move} {pl : List Byte} {e : Ev} (fly : (e.g.lift l).inFlight = some m)
  (number : m.number = u8 pl 0)
include fly number

theorem moveFault_inFlight {pos : CarPosition} (code : carPositionOf (u8 pl 1) = some pos) :
    moveFault l pl e = moveFaulted l m pos e := by
  unfold moveFault
  dsimp only
  rw [LiftUnit.matchReport_inFlight fly number, code]
  rfl

theorem moveRefused_inFlight : moveRefused l pl e = moveWasRefused l m (u8 pl 1 == 1) e := by
  unfold moveRefused
  rw [LiftUnit.matchReport_inFlight fly number]

end

/-! ### MOVE_DONE (R137) -/

theorem Garage.takeOutcome_countMove (g : Garage) (l : Lift) : (g.takeOutcome l).countMove l =
    g.modLift l fun u => { u with
      inFlight := none, moveTimer := none
      movesDone := if g.measuring then (u.movesDone + 1) % 4294967296 else u.movesDone } := by
  unfold Garage.takeOutcome Garage.countMove
  rw [Garage.modLift_measuring, modLift_modLift]
  cases g.measuring <;> rfl

/-- Settles O32: the completion by its kind under one account of MOVE_DONE, and the mark and the end of a plan. The name
`moveDone` is the report's own. -/
theorem moveDone_holds : Obligations.MoveDone := by
  refine ⟨fun s st l flags pl m ask hl => ?_, fun g l n => ⟨rfl, Garage.endIfCancelled_noPlan, fun p hp => ?_⟩⟩
  · intro g fly number landed leave notes
    have done : ∀ k out, complete l m ⟨landed, []⟩ = ⟨k, out⟩ → notes k := fun k out h => by
      refine NotesG.of_lift (f := moveDone) ask (by cases l <;> decide)
        (.of_both hl (by decide) rfl rfl (by decide) (by decide)) ?_ fun _ ha => nomatch ha
      rw [moveDone_inFlight (e := ⟨g, []⟩) fly number]
      show ((complete l m ⟨(g.takeOutcome l).countMove l, []⟩).g).leaveMoving l = leave k
      rw [Garage.takeOutcome_countMove, h]
      rfl
    refine ⟨fun b hk hb => ?_, fun a b hk ha hb => done _ _ (complete_relocation hk ha hb),
      fun a hk ha => done _ _ (complete_final hk ha)⟩
    have completed := complete_park (l := l) (e := ⟨landed, []⟩) hk hb
    rw [show landed.seconds = g.seconds from g.modLift_seconds l _] at completed
    exact done _ _ completed
  · refine ⟨Garage.endIfCancelled_unmarked hp, fun t ht mark => ?_⟩
    intro released freed ended
    have standing := Garage.endPlan_standing hp
    unfold Garage.planGivenUp at standing
    rw [g.releaseRelocs_eq] at standing
    rw [Garage.endIfCancelled_marked hp ht mark, standing]
    rfl

/-! ### MOVE_FAULT and MOVE_REFUSED (R138, R139) -/

theorem Garage.faultLift_eq (g : Garage) (l : Lift) : g.faultLift l = (g.modLift l fun u => { u with
    inFlight := none, moveTimer := none
    faults := if g.measuring then tallyUp u.faults else u.faults }).stopLift l .faulted := by
  unfold Garage.faultLift Garage.takeOutcome Garage.countFault
  rw [Garage.modLift_measuring, modLift_modLift]
  cases g.measuring <;> rfl

/-- R139 ❶: what a move undone at its source leaves. -/
def Garage.undone (g : Garage) (l : Lift) (m : Move) : Garage :=
  if m.kind = .park then g.modTicket m.ticket fun t => { t with state := .allocated } else g.abandonPlan l

theorem undo_eq (l : Lift) (m : Move) (e : Ev) : undo l m e = e.modG fun g => g.undone l m := by
  unfold undo Garage.undone
  cases m.kind <;> rfl

/-- The alert of a fault, with the code of the car's position or of a location refused (R139, R203). -/
def faultArgs (l : Lift) (m : Move) (code : Nat) : List Byte := w8 (liftCode l) ++ w8 m.number ++ w16 m.ticket ++ w8 code

section
variable {l : Lift} {m : Move} {e : Ev}

theorem liftFaultAlert_mem (code : Nat) :
    alertOut e.g.seconds 13 (faultArgs l m code) ∈ (liftFaultAlert l m code (e.modG fun g => g.faultLift l)).out := by
  have seconds : (e.g.faultLift l).seconds = e.g.seconds := congrArg Fixed.seconds (e.g.faultLift_fixed l)
  unfold liftFaultAlert
  rw [Ev.alert_out, Ev.modG_g, seconds]
  exact List.mem_append_right _ (List.mem_singleton_self _)

theorem moveFaulted_alerts (pos : CarPosition) :
    alertOut e.g.seconds 13 (faultArgs l m (carPositionCode pos)) ∈ (moveFaulted l m pos e).out := by
  have later : Works (liftFaultAlert l m (carPositionCode pos) (e.modG fun g => g.faultLift l)) (moveFaulted l m pos e) := by
    unfold moveFaulted
    refine .trans ?_ (Ev.modG_works _ _ fun g => g.takeOff_fixed l)
    cases pos with
    | atSource => exact undo_works _ _ _
    | atDestination =>
      exact (Ev.after_modG (complete_works _ _ _) fun g => g.countMove_fixed l).trans
        (Ev.modG_works _ _ fun g => g.abandonPlan_fixed l)
    | unknown => exact Ev.modG_works _ _ fun g => g.leaveUnresolved_fixed l m
  exact later.out.subset (liftFaultAlert_mem _)

theorem refusedLocation_alerts : alertOut e.g.seconds 13 (faultArgs l m 3) ∈ (refusedLocation l m e).out :=
  ((undo_works _ _ _).trans (Ev.modG_works _ _ fun g => g.takeOff_fixed l)).out.subset (liftFaultAlert_mem _)

theorem moveFaulted_atSource : (moveFaulted l m .atSource e).g = ((e.g.faultLift l).undone l m).takeOff l := by
  unfold moveFaulted
  dsimp only
  rw [undo_eq]
  rfl

theorem moveFaulted_atDestination : (moveFaulted l m .atDestination e).g =
    ((complete l m ⟨(e.g.faultLift l).countMove l, []⟩).g.abandonPlan l).takeOff l :=
  congrArg (fun g => (Garage.abandonPlan g l).takeOff l) (complete_blind rfl)

theorem moveFaulted_unknown : (moveFaulted l m .unknown e).g = ((e.g.faultLift l).leaveUnresolved l m).takeOff l := rfl

theorem refusedLocation_g : (refusedLocation l m e).g = ((e.g.faultLift l).undone l m).takeOff l := by
  unfold refusedLocation
  rw [undo_eq]
  rfl

end

/-! ### MOVE_REFUSED for want of readiness (R126, R138) -/

/-- R138 ❶: the lift whose move was refused for want of readiness, no move in flight, the ticket of a PARK move waiting
again. -/
def Garage.refusedBack (g : Garage) (l : Lift) (m : Move) : Garage :=
  let waiting := g.modLift l fun u => { u with inFlight := none, moveTimer := none, readiness := .notReady }
  if m.kind = .park then waiting.modTicket m.ticket fun t => { t with state := .allocated } else waiting

section
variable {g : Garage} {l : Lift} {m : Move}

theorem Garage.refusedBack_offPending : ((g.refusedBack l m).lift l).offPending = (g.lift l).offPending := by
  unfold Garage.refusedBack
  dsimp only
  split
  · rw [Garage.modTicket_lift, Garage.modLift_lift]
  · rw [Garage.modLift_lift]

theorem Garage.refusedNotReady_eq : g.refusedNotReady l m =
    if (g.lift l).offPending then
      ((g.refusedBack l m).stopIdleLift l .out).modLift l fun u => { u with offPending := false }
    else if m.kind = .park then
      (g.refusedBack l m).modLift l fun u => { u with state := .notReady, tenure := some .park, reorder := some m }
    else if g.cancelMarked (m.target.getD 0) then
      ((g.refusedBack l m).modLift l fun u => { u with state := .notReady }).endIfCancelled l
    else (g.refusedBack l m).modLift l fun u => { u with
      state := .notReady, tenure := some (u.tenure.getD .plan), reorder := some m } := by
  have back : (if m.kind = .park then
        ((g.takeOutcome l).modLift l fun u => { u with readiness := .notReady }).modTicket m.ticket fun t =>
          { t with state := .allocated }
      else (g.takeOutcome l).modLift l fun u => { u with readiness := .notReady }) = g.refusedBack l m := by
    unfold Garage.takeOutcome Garage.refusedBack
    rw [modLift_modLift]
    rfl
  unfold Garage.refusedNotReady
  dsimp only
  rw [back, Garage.refusedBack_offPending]
  congr 1
  cases hk : m.kind with
  | park => rw [modLift_modLift]; rfl
  | relocation | final =>
    have marked : ((g.refusedBack l m).modLift l fun u => { u with state := .notReady }).cancelMarked (m.target.getD 0) =
        g.cancelMarked (m.target.getD 0) := by
      unfold Garage.refusedBack Garage.cancelMarked
      rw [hk]
      cases l <;> rfl
    rw [marked]
    dsimp only
    rw [modLift_modLift]
    rfl

end

/-- Settles O33: the fault by the position of the car, the refusal by its reason, and the completion by its kind. -/
theorem movesNotCompleted : Obligations.MovesNotCompleted := by
  refine ⟨fun s st l flags pl m ask hl => ?_, fun l m e => ⟨fun b => complete_park, fun a b => complete_relocation,
    fun a => complete_final⟩⟩
  intro g fly number faulted off planEnds undone alert fault refused
  have seconds : g.seconds = s.garage.seconds := by cases l <;> rfl
  have lifted : g.faultLift l = faulted := g.faultLift_eq l
  have faults : ∀ {pos : CarPosition} {k : Garage}, u8 pl 1 = carPositionCode pos →
      (moveFaulted l m pos ⟨g, []⟩).g = k → fault k (alert (carPositionCode pos)) := fun {pos k} code h => by
    have event := moveFault_inFlight (e := ⟨g, []⟩) (pos := pos) fly number (by rw [code]; cases pos <;> rfl)
    refine NotesG.of_lift (f := moveFault) ask (by cases l <;> decide)
      (.of_report hl (.inl ⟨rfl, rfl⟩) (by rw [code]; cases pos <;> decide)) ((congrArg Ev.g event).trans h) fun a ha => ?_
    rw [event, List.mem_singleton.mp ha, ← seconds]
    exact moveFaulted_alerts (e := ⟨g, []⟩) pos
  have refuses : ∀ {k : Garage} {alerts : List (Nat × List Byte)}, u8 pl 1 ≤ 1 →
      (moveWasRefused l m (u8 pl 1 == 1) ⟨g, []⟩).g = k →
      (∀ a ∈ alerts, alertOut s.garage.seconds a.1 a.2 ∈ (moveWasRefused l m (u8 pl 1 == 1) ⟨g, []⟩).out) →
      refused k alerts := fun code h ha => by
    have event := moveRefused_inFlight (e := ⟨g, []⟩) fly number
    exact NotesG.of_lift (f := moveRefused) ask (by cases l <;> decide) (.of_report hl (.inr ⟨rfl, rfl⟩) code)
      ((congrArg Ev.g event).trans h) fun a hm => by rw [event]; exact ha a hm
  refine ⟨fun code => ?_, fun code => ?_, fun code => ?_, fun code => ?_, fun code => ?_⟩
  · exact faults (pos := .atSource) code (moveFaulted_atSource.trans (by rw [lifted]; rfl))
  · exact faults (pos := .atDestination) code (moveFaulted_atDestination.trans (by rw [lifted]; rfl))
  · exact faults (pos := .unknown) code (moveFaulted_unknown.trans (by rw [lifted]; rfl))
  · have located : moveWasRefused l m (u8 pl 1 == 1) ⟨g, []⟩ = refusedLocation l m ⟨g, []⟩ := by rw [code]; rfl
    refine refuses (by omega) (k := off (undone faulted)) ?_ fun a ha => ?_
    · rw [located, refusedLocation_g, lifted]
      rfl
    · rw [located, List.mem_singleton.mp ha, ← seconds]
      exact refusedLocation_alerts (e := ⟨g, []⟩)
  · intro waiting back
    have unready : (moveWasRefused l m (u8 pl 1 == 1) ⟨g, []⟩).g = g.refusedNotReady l m := by rw [code]; rfl
    have refusal : ∀ {k : Garage}, g.refusedNotReady l m = k → refused k [] :=
      fun h => refuses (by omega) (unready.trans h) fun _ ha => nomatch ha
    have leaves := g.refusedNotReady_eq (l := l) (m := m)
    refine ⟨fun going => refusal (leaves.trans (if_pos going)), fun stays hk => ?_, fun stays hk live => ?_,
      fun stays hk mark => ?_⟩
    · simp only [stays, hk, Bool.false_eq_true, if_false, if_true] at leaves
      exact refusal leaves
    · simp only [stays, hk, live, Bool.false_eq_true, if_false] at leaves
      exact refusal leaves
    · simp only [stays, hk, mark, Bool.false_eq_true, if_false, if_true] at leaves
      exact refusal leaves

end Sys2Proof.Machine

namespace Sys2Proof.Machine

/-! ### CONVOY_LOAD (R146, R147) -/

section
variable {c : Chan} {n : Nat} {g : Garage} {r : LoadResult}

theorem loadMember_absent (h : n = 0 ∨ g.ticket n = none) : loadMember c n (g, r) = (g, r.skip n 0) := by
  have none : (if n = 0 then none else g.ticket n) = none := by
    split
    · rfl
    · next hn => exact h.resolve_left hn
  unfold loadMember
  dsimp only
  rw [none]

variable {t : Ticket} (hn : n ≠ 0) (ht : g.ticket n = some t)
include hn ht

theorem loadMember_ticket : loadMember c n (g, r) =
    if t.state ≠ .parked then (g, r.skip n 1)
    else if 48 ≤ g.members c then (g, r.skip n 2)
    else (g.acceptMember c n, { r with accepted := r.accepted + 1 }) := by
  unfold loadMember
  dsimp only
  rw [if_neg hn, ht]

end

/-- What a CONVOY_LOAD has come to, as the blocks, how many were accepted, and the first skip. -/
def loadTriple (x : Garage × LoadResult) : Garage × Nat × Option (Nat × Nat) := (x.1, x.2.accepted, x.2.skipped)

/-- The examination of the ticket numbers of a CONVOY_LOAD for a channel. -/
def loadExamined (c : Chan) (pl : List Byte) (g : Garage) : Garage × LoadResult :=
  (loadNumbers pl).foldl (fun gr n => loadMember c n gr) (g, ⟨0, none⟩)

theorem convoyLoadFor_eq (st : Station) (c : Chan) (pl : List Byte) (g : Garage) :
    convoyLoadFor ⟨.s, st.number, st.role⟩ c pl ⟨g, []⟩ =
      let x := loadTriple (loadExamined c pl g)
      let k := if 0 < x.2.1 ∧ (x.1.chan c).state = .idle then
          x.1.modChan c fun ch => { ch with state := .loaded, delivered := 0 } else x.1
      ⟨k, [replyOut st Kind.convoyLoad .taken (w8 x.2.1 ++ w8 (k.members c)
        ++ w16 ((x.2.2.map Prod.fst).getD 0) ++ w8 ((x.2.2.map Prod.snd).getD 0xFF))]⟩ := rfl

section
variable {c : Caller} {pl : List Byte} {e : Ev}

theorem convoyLoad_channel (h : 1 < u8 pl 0) : convoyLoad c pl e = e.badRequest c Kind.convoyLoad 0 := by
  unfold convoyLoad
  rw [chanOf_none h]

theorem convoyLoad_count (hc : u8 pl 0 ≤ 1) (h : u8 pl 1 < 1 ∨ 12 < u8 pl 1) :
    convoyLoad c pl e = e.badRequest c Kind.convoyLoad 1 := by
  obtain ⟨ch, hch⟩ : ∃ ch, u8 pl 0 = chanCode ch := by
    rcases Nat.le_one_iff_eq_zero_or_eq_one.mp hc with h | h
    · exact ⟨.c0, h⟩
    · exact ⟨.c1, h⟩
  unfold convoyLoad
  rw [chanOf_code hch]
  exact if_pos h

variable {ch : Chan} (hc : u8 pl 0 = chanCode ch)
include hc

section
variable (least : 1 ≤ u8 pl 1) (most : u8 pl 1 ≤ 12)
include least most

theorem convoyLoad_started (h : (e.g.chan ch).state = .running ∨ (e.g.chan ch).state = .heldBack) :
    convoyLoad c pl e = e.reply c Kind.convoyLoad .notApplicable [] := by
  unfold convoyLoad
  rw [chanOf_code hc]
  exact (if_neg (by omega)).trans (if_pos h)

theorem convoyLoad_open (h : (e.g.chan ch).state = .idle ∨ (e.g.chan ch).state = .loaded) :
    convoyLoad c pl e = convoyLoadFor c ch pl e := by
  unfold convoyLoad
  rw [chanOf_code hc]
  refine (if_neg (by omega)).trans (if_neg ?_)
  rcases h with h | h <;> rw [h] <;> decide

end

/-! ### CONVOY_START (R148, R149) -/

theorem convoyStart_notLoaded (h : (e.g.chan ch).state ≠ .loaded) :
    convoyStart c pl e = e.reply c Kind.convoyStart .notApplicable [] := by
  unfold convoyStart
  rw [chanOf_code hc]
  exact if_pos h

theorem convoyStart_loaded (h : (e.g.chan ch).state = .loaded) :
    let mix := decide (u8 pl 3 ≠ 0)
    let now := startState mix (e.g.chan (otherChan ch))
    convoyStart c pl e = (e.modG fun g => g.modChan ch fun k => { k with
      state := now, blockLength := u8 pl 1 % 8 + 1, level := min (u8 pl 2) 7, mix := mix }).reply c Kind.convoyStart .taken
        (w8 (chanStateCode now) ++ w8 (u8 pl 1 % 8) ++ w8 (min (u8 pl 2) 7) ++ wFlag mix) := by
  have flag : flag8 pl 3 = decide (u8 pl 3 ≠ 0) := (Bool.eq_iff_iff).mpr ((flag8_iff pl 3).trans decide_eq_true_iff.symm)
  unfold convoyStart
  rw [chanOf_code hc, flag]
  exact if_neg (not_not.mpr h)

/-! ### CONVOY_STOP (R115, R116, R156) -/

theorem convoyStop_idle (h : (e.g.chan ch).state = .idle) :
    convoyStop c pl e = e.reply c Kind.convoyStop .notApplicable [] := by
  unfold convoyStop
  rw [chanOf_code hc]
  exact if_pos h

theorem convoyStop_stops (h : (e.g.chan ch).state ≠ .idle) :
    convoyStop c pl e = (e.modG fun g => g.stopConvoy ch).reply c Kind.convoyStop .taken
      (w8 (e.g.chan ch).list.length ++ w8 (e.g.retrievingMembers ch).length) := by
  unfold convoyStop
  rw [chanOf_code hc]
  exact if_neg h

end

theorem convoyStart_channel {c : Caller} {pl : List Byte} {e : Ev} (h : 1 < u8 pl 0) :
    convoyStart c pl e = e.badRequest c Kind.convoyStart 0 := by
  unfold convoyStart
  rw [chanOf_none h]

theorem convoyStop_channel {c : Caller} {pl : List Byte} {e : Ev} (h : 1 < u8 pl 0) :
    convoyStop c pl e = e.badRequest c Kind.convoyStop 0 := by
  unfold convoyStop
  rw [chanOf_none h]

theorem Garage.retrievingMembers_eq (g : Garage) (c : Chan) : g.retrievingMembers c = g.seqOrder.filter fun n =>
    ((g.ticket n).map fun t => decide (t.state = .retrieving ∧ t.convoy = some c)).getD false := by
  refine List.filter_congr fun n _ => ?_
  cases g.ticket n with
  | none => rfl
  | some t => simp only [Option.map_some, Option.getD_some, Bool.decide_and, beq_eq_decide]

theorem Garage.giveUp_eq (g : Garage) (n : Nat) : g.giveUp n =
    if g.liftA.inFlight.bind Move.target = some n ∨ g.liftB.inFlight.bind Move.target = some n then
      g.modTicket n fun t => { t with cancelMark := true }
    else (g.endPlanOf n).becomeParked n := by
  unfold Garage.giveUp
  by_cases rests : g.flightOf n = none
  · rw [rests, if_neg (Garage.flightOf_none.mp rests)]
  · obtain ⟨l, hl⟩ := Option.ne_none_iff_exists'.mp rests
    rw [hl, if_pos (not_not.mp fun no => rests (Garage.flightOf_none.mpr no))]

theorem passTenure_eq (c : Chan) (u : LiftUnit) : passTenure c u =
    if u.tenure = some (.channel c) then
      { u with tenure := if u.plan ≠ none ∧ u.inFlight.map Move.kind ≠ some .final then some .plan else none }
    else u := by
  unfold passTenure
  simp only [Option.isSome_iff_ne_none]

/-- The three steps that stop a channel, and the state in which it enters IDLE. -/
theorem Garage.stopConvoy_eq (g : Garage) (c : Chan) : g.stopConvoy c =
    let listed := (g.chan c).list.foldl Garage.becomeParked g
    let freed := (listed.retrievingMembers c).foldl Garage.convert listed
    let passed : Garage := { freed with liftA := passTenure c freed.liftA, liftB := passTenure c freed.liftB }
    (passed.modChan c fun k => { k with
      state := .idle, blockLength := 1, level := 0, mix := false, blockCount := 0, blockLevel := none
      request := none }).letRun (otherChan c) := by
  unfold Garage.stopConvoy Garage.clearBlock
  dsimp only
  rw [modChan_modChan]
  rfl

/-- Settles O45: each command by its own lemmas, the numbers of a CONVOY_LOAD by a step of its fold. -/
theorem convoyCommands : Obligations.ConvoyCommands := by
  intro s st flags pl ask g
  refine ⟨fun hl fits => ?_, fun hl => ?_, fun hl => ?_⟩
  · intro answers
    have pass : Passes s Kind.convoyLoad pl := .of_count hl fits (by decide) rfl (by decide)
    have reply : ∀ {k : Garage} {r detail}, convoyLoad ⟨.s, st.number, st.role⟩ pl ⟨g, []⟩ =
        ⟨k, [replyOut st Kind.convoyLoad r detail]⟩ → answers k r detail :=
      Replies.of_work (f := convoyLoad) ask rfl (by decide) pass
    refine ⟨fun h => reply (convoyLoad_channel h), fun hc h => reply (convoyLoad_count hc h), fun c hc least most =>
      ⟨fun h => reply (convoyLoad_started hc least most h), fun h => ?_⟩⟩
    intro one x k
    have step : ∀ y n, one (loadTriple y) n = loadTriple (loadMember c n y) := fun ⟨h, r⟩ n => by
      dsimp only [one, loadTriple]
      by_cases hn : n = 0
      · rw [loadMember_absent (.inl hn)]
        cases h.ticket n with
        | none => rfl
        | some t => exact if_pos hn
      · cases ht : h.ticket n with
        | none =>
          rw [loadMember_absent (.inr ht)]
          rfl
        | some t =>
          rw [loadMember_ticket hn ht]
          dsimp only
          rw [if_neg hn]
          split
          · rfl
          · split <;> rfl
    have loaded : x = loadTriple (loadExamined c pl g) :=
      List.foldl_hom loadTriple (init := (g, ⟨0, none⟩)) step
    refine reply ((convoyLoad_open hc least most h).trans ((convoyLoadFor_eq st c pl g).trans ?_))
    rw [← loaded]
  · intro answers
    have pass : Passes s Kind.convoyStart pl := .of_both hl (by decide) rfl rfl (by decide) (by decide)
    have reply : ∀ {k : Garage} {r detail}, convoyStart ⟨.s, st.number, st.role⟩ pl ⟨g, []⟩ =
        ⟨k, [replyOut st Kind.convoyStart r detail]⟩ → answers k r detail :=
      Replies.of_work (f := convoyStart) ask rfl (by decide) pass
    exact ⟨fun h => reply (convoyStart_channel h), fun c hc =>
      ⟨fun h => reply (convoyStart_notLoaded hc h), fun h => reply (convoyStart_loaded hc h)⟩⟩
  · intro answers
    have pass : Passes s Kind.convoyStop pl := .of_both hl (by decide) rfl rfl (by decide) (by decide)
    have reply : ∀ {k : Garage} {r detail}, convoyStop ⟨.s, st.number, st.role⟩ pl ⟨g, []⟩ =
        ⟨k, [replyOut st Kind.convoyStop r detail]⟩ → answers k r detail :=
      Replies.of_work (f := convoyStop) ask rfl (by decide) pass
    refine ⟨fun h => reply (convoyStop_channel h), fun c hc => ⟨fun h => reply (convoyStop_idle hc h), fun h => ?_⟩⟩
    intro parked runs single passes listed freed passed stopped
    have members : ∀ k : Garage, k.retrievingMembers c = runs k := fun k => k.retrievingMembers_eq c
    have converted : Garage.convert = single := funext₂ fun k n => by
      unfold Garage.convert
      dsimp only
      rw [Garage.giveUp_eq]
      rfl
    have handed : passTenure c = passes := funext (passTenure_eq c)
    refine reply ((convoyStop_stops hc h).trans ?_)
    show (⟨g.stopConvoy c, [replyOut st _ _ (_ ++ w8 (g.retrievingMembers c).length)]⟩ : Ev) = _
    rw [Garage.stopConvoy_eq]
    dsimp only
    rw [members, members, converted, handed]
    rfl

end Sys2Proof.Machine

namespace Sys2Proof.Machine

/-! ### The winner of the arbiter (R124) -/

/-- R124: a bid that none beats: a higher level, then an earlier stamp, then a lower rank, then no higher number. -/
def Bid.Leads (b x : Bid) : Prop :=
  x.level < b.level ∨ (x.level = b.level ∧ (b.stamp < x.stamp ∨ (b.stamp = x.stamp ∧
    (b.rank < x.rank ∨ (b.rank = x.rank ∧ b.seq ≤ x.seq)))))

theorem Bid.Leads.refl (b : Bid) : b.Leads b := by
  unfold Bid.Leads
  omega

theorem Bid.Leads.trans {x y z : Bid} (h : x.Leads y) (k : y.Leads z) : x.Leads z := by
  unfold Bid.Leads at *
  omega

theorem Bid.beats_iff (x y : Bid) : x.beats y = true ↔ ¬ y.Leads x := by
  unfold Bid.beats Bid.Leads
  simp only [Bool.or_eq_true, Bool.and_eq_true, decide_eq_true_eq, beq_iff_eq]
  omega

/-- The better of two bids, the first of two that compare the same. -/
def betterBid (x y : Bid) : Bid := if y.beats x then y else x

theorem betterBid_cases (x y : Bid) : (betterBid x y = x ∧ x.Leads y) ∨ (betterBid x y = y ∧ y.Leads x) := by
  unfold betterBid
  by_cases h : y.beats x = true
  · refine .inr ⟨if_pos h, ?_⟩
    have behind := (Bid.beats_iff y x).mp h
    unfold Bid.Leads at *
    omega
  · exact .inl ⟨if_neg h, not_not.mp fun no => h ((Bid.beats_iff y x).mpr no)⟩

/-- Folding with the better of two gives one of the bids, and it leads them all. -/
theorem foldl_betterBid (rest : List Bid) (b : Bid) :
    rest.foldl betterBid b ∈ b :: rest ∧ ∀ x ∈ b :: rest, (rest.foldl betterBid b).Leads x := by
  induction rest generalizing b with
  | nil => exact ⟨List.mem_singleton.mpr rfl, fun x hx => List.mem_singleton.mp hx ▸ Bid.Leads.refl _⟩
  | cons y rest ih =>
    obtain ⟨mem, leads⟩ := ih (betterBid b y)
    have first := leads _ List.mem_cons_self
    have others : ∀ x ∈ rest, (rest.foldl betterBid (betterBid b y)).Leads x :=
      fun x hx => leads x (List.mem_cons_of_mem _ hx)
    rw [List.foldl_cons]
    rcases betterBid_cases b y with ⟨e, hb⟩ | ⟨e, hb⟩
    all_goals
      rw [e] at mem first others ⊢
      simp only [List.mem_cons, forall_eq_or_imp] at mem ⊢
    · exact ⟨by tauto, first, first.trans hb, others⟩
    · exact ⟨by tauto, first.trans hb, first, others⟩

theorem bestBid_exists {bids : List Bid} (h : bids ≠ []) : ∃ b, bestBid bids = some b := by
  cases bids with
  | nil => exact absurd rfl h
  | cons b rest => exact ⟨_, rfl⟩

theorem bestBid_leads {bids : List Bid} {b : Bid} (h : bestBid bids = some b) : b ∈ bids ∧ ∀ x ∈ bids, b.Leads x := by
  cases bids with
  | nil => cases h
  | cons c rest => exact Option.some.inj h ▸ foldl_betterBid rest c

/-! ### The bids (R107, R123) -/

section
variable (g : Garage) (l : Lift) (x : Bid)

theorem Garage.mem_parkBid : x ∈ g.parkBid l ↔
    ∃ n stamp, (g.lift l).parkRequest = some (n, stamp) ∧ x = ⟨.park n, g.parkLevel, stamp, 0, 0⟩ := by
  unfold Garage.parkBid
  cases (g.lift l).parkRequest with
  | none => simp
  | some r => simp [Prod.ext_iff]

theorem Garage.mem_chanBid (c : Chan) (rank : Nat) : x ∈ g.chanBid l c rank ↔
    ∃ stamp, (g.chan c).request = some (l, stamp) ∧ x = ⟨.channel c, (g.chan c).level, stamp, rank, 0⟩ := by
  unfold Garage.chanBid
  cases (g.chan c).request with
  | none => simp
  | some r =>
    by_cases h : r.1 = l <;> simp [h, Prod.ext_iff]

theorem Garage.mem_laneBids : x ∈ g.laneBids l ↔
    (g.lift l).lane.length + (g.lift l).reserved < (g.lift l).laneCapacity ∧ ∃ p ∈ (g.lift l).waiting,
      x = ⟨.continuation p, p.level, p.stamp.getD g.seconds, 3, g.seqOf p.target⟩ := by
  unfold Garage.laneBids LiftUnit.slotFree
  by_cases h : (g.lift l).lane.length + (g.lift l).reserved < (g.lift l).laneCapacity
  · simp [h, eq_comm]
  · simp [h]

theorem Garage.mem_entryBids : x ∈ g.entryBids l ↔ ∃ e ∈ g.queue, ∃ stamp t, e.stamp = some stamp ∧
    g.ticket e.ticket = some t ∧ g.liftOfTicket e.ticket = some l ∧
      x = ⟨.entry e.ticket, t.priority.getD 0, stamp, 4, g.seqOf e.ticket⟩ := by
  unfold Garage.entryBids
  rw [List.mem_filterMap]
  refine exists_congr fun e => and_congr_right fun _ => ?_
  cases e.stamp with
  | none => simp
  | some stamp =>
    cases g.ticket e.ticket with
    | none => simp
    | some t =>
      by_cases h : g.liftOfTicket e.ticket = some l
      · simp [h, eq_comm]
      · simp [h]

theorem Garage.mem_bids : x ∈ g.bids l ↔ x ∈ g.parkBid l ∨ x ∈ g.chanBid l .c0 1 ∨ x ∈ g.chanBid l .c1 2 ∨
    x ∈ g.laneBids l ∨ x ∈ g.entryBids l := by
  unfold Garage.bids
  simp only [List.mem_append, or_assoc]

end

/-! ### What a grant brings (R124, R127 to R129, R132, R134) -/

section
variable {l : Lift} {b : Bid} {g : Garage} {out : List Out}

theorem arbitrate_grants (ready : (g.lift l).state = .ready) (free : (g.lift l).tenure = none)
    (h : bestBid (g.bids l) = some b) : arbitrate l ⟨g, out⟩ = some (grant l b ⟨g, out⟩) := by
  unfold arbitrate
  dsimp only
  rw [if_pos ⟨ready, free⟩, h]
  rfl

theorem arbitrate_none (h : (g.lift l).state ≠ .ready ∨ (g.lift l).tenure ≠ none) : arbitrate l ⟨g, out⟩ = none :=
  if_neg fun ⟨ready, free⟩ => h.elim (· ready) (· free)

theorem grant_park {n k : Nat} {t : Ticket} (hb : b.who = .park n) (ht : g.ticket n = some t) (hk : t.bay = some k) :
    grant l b ⟨g, out⟩ = order l ⟨0, .park, n, t.tag, .hall l, .bay k, none⟩
      ⟨g.modTicket n fun t => { t with state := .parking }, out⟩ := by
  unfold grant grantPark
  rw [hb]
  dsimp only
  rw [Garage.tagOf_ticket ht, ht, Option.bind_some, hk]
  rfl

theorem grant_park_noBay {n : Nat} (hb : b.who = .park n) (h : (g.ticket n).bind Ticket.bay = none) :
    grant l b ⟨g, out⟩ = ⟨g.modLift l fun u => { u with parkRequest := none }, out⟩ := by
  unfold grant grantPark
  rw [hb]
  dsimp only
  rw [h]
  rfl

theorem grant_continuation {p : Plan} {t : Ticket} {k : Nat} (hb : b.who = .continuation p)
    (ht : g.ticket p.target = some t) (hk : t.bay = some k) :
    grant l b ⟨g, out⟩ = order l ⟨0, .final, p.target, t.tag, .bay k, .lane l, some p.target⟩
      ⟨(g.modTicket p.target fun t => { t with phase := some .final }).modLift l fun u => { u with
        waiting := u.waiting.filter fun w => w.target != p.target
        reserved := u.reserved + 1, plan := some { p with slot := true, stamp := none }
        tenure := if u.tenure = some .plan then none else u.tenure }, out⟩ := by
  have taken : ((g.modLift l fun u => { u with waiting := u.waiting.filter fun w => w.target != p.target }).modTicket
        p.target fun t => { t with phase := some .final }).modLift l (fun u => { u with
        reserved := u.reserved + 1, plan := some { p with slot := true, stamp := none }
        tenure := if u.tenure = some .plan then none else u.tenure }) =
      (g.modTicket p.target fun t => { t with phase := some .final }).modLift l fun u => { u with
        waiting := u.waiting.filter fun w => w.target != p.target
        reserved := u.reserved + 1, plan := some { p with slot := true, stamp := none }
        tenure := if u.tenure = some .plan then none else u.tenure } := by cases l <;> rfl
  unfold grant grantContinuation goToLane
  rw [hb]
  dsimp only [Ev.modG]
  rw [taken]
  have target : ∀ f, ((g.modTicket p.target fun t => { t with phase := some .final }).modLift l f).ticket p.target =
      some { t with phase := some .final } := fun f => by
    rw [Garage.modLift_ticket, ticket_modTicket, ht]
    rfl
  unfold Garage.finalMove
  rw [Garage.tagOf_ticket (target _), target, Option.bind_some, hk]
  rfl

section
variable {n : Nat} {e' : Ev} (hb : b.who = .entry n)
include hb

theorem grant_entry_built (h : buildPlan l n b.level ⟨g, out⟩ = (e', true)) :
    grant l b ⟨g, out⟩ = ⟨e'.g.modLift l fun u => { u with tenure := some .plan }, e'.out⟩ := by
  unfold grant grantEntry
  rw [hb]
  dsimp only
  rw [h]
  rfl

theorem grant_entry_failed (h : buildPlan l n b.level ⟨g, out⟩ = (e', false)) : grant l b ⟨g, out⟩ = e' := by
  unfold grant grantEntry
  rw [hb]
  dsimp only
  rw [h]
  rfl

end

end

/-- Settles O51: the winner by the fold over the bids, the bids requester by requester, and each grant. -/
theorem arbiterChoice : Obligations.ArbiterChoice := by
  intro g l
  refine ⟨fun h => by rw [h]; rfl, bestBid_exists, fun b => bestBid_leads, fun x hx => ?_, fun n stamp h => ?_,
    fun stamp h => ?_, fun stamp h => ?_, fun p hp slot => ?_, fun e he stamp t hs ht hl => ?_,
    fun out b => arbitrate_grants, fun out => arbitrate_none,
    fun out b n hb => ⟨fun t k => grant_park hb, grant_park_noBay hb⟩, fun out b p t k => grant_continuation,
    fun out b n e' hb => ⟨grant_entry_built hb, grant_entry_failed hb⟩⟩
  · rcases (g.mem_bids l x).mp hx with h | h | h | h | h
    · obtain ⟨n, stamp, request, rfl⟩ := (g.mem_parkBid l x).mp h
      exact ⟨rfl, rfl, request⟩
    · obtain ⟨stamp, request, rfl⟩ := (g.mem_chanBid l x .c0 1).mp h
      exact ⟨rfl, rfl, request⟩
    · obtain ⟨stamp, request, rfl⟩ := (g.mem_chanBid l x .c1 2).mp h
      exact ⟨rfl, rfl, request⟩
    · obtain ⟨slot, p, hp, rfl⟩ := (g.mem_laneBids l x).mp h
      exact ⟨rfl, rfl, hp, rfl, rfl, slot⟩
    · obtain ⟨⟨n, _⟩, he, stamp, t, rfl, ht, hl, rfl⟩ := (g.mem_entryBids l x).mp h
      exact ⟨rfl, he, hl, rfl, t, ht, rfl⟩
  all_goals rw [Garage.mem_bids]
  · exact .inl ((g.mem_parkBid l _).mpr ⟨n, stamp, h, rfl⟩)
  · exact .inr (.inl ((g.mem_chanBid l _ .c0 1).mpr ⟨stamp, h, rfl⟩))
  · exact .inr (.inr (.inl ((g.mem_chanBid l _ .c1 2).mpr ⟨stamp, h, rfl⟩)))
  · exact .inr (.inr (.inr (.inl ((g.mem_laneBids l _).mpr ⟨slot, p, hp, rfl⟩))))
  · exact .inr (.inr (.inr (.inr ((g.mem_entryBids l _).mpr ⟨e, he, stamp, t, hs, ht, hl, rfl⟩))))

end Sys2Proof.Machine

namespace Sys2Proof.Machine

/-! ### The loss of a lift (R105, R119, R120, R126, R154) -/

theorem Garage.loseLift_stays {g : Garage} {l : Lift} (ready : (g.lift l).state ≠ .ready)
    (unready : (g.lift l).state ≠ .notReady) : g.loseLift l = g := by
  unfold Garage.loseLift
  cases hs : (g.lift l).state with
  | ready => exact absurd hs ready
  | notReady => exact absurd hs unready
  | _ => rfl

theorem Garage.loseLift_idle {g : Garage} {l : Lift} (h : (g.lift l).state = .ready ∨ (g.lift l).state = .notReady) :
    g.loseLift l = (g.stopLift l .offline).dropPlan l := by
  unfold Garage.loseLift
  rcases h with h | h <;> rw [h] <;> rfl

/-! ### A lift stopped (R119, R126) -/

section
variable {g : Garage} {l : Lift} {now : LiftState}

theorem Garage.stopLift_lift : (g.stopLift l now).lift l = { g.lift l with state := now, tenure := none } := by
  unfold Garage.stopLift
  rw [Garage.modLift_lift]
  split
  · unfold Garage.clearBlock
    rw [Garage.modChan_lift]
  · rfl

theorem Garage.stopLift_ticket (n : Nat) : (g.stopLift l now).ticket n = g.ticket n := by
  unfold Garage.stopLift Garage.clearBlock Garage.ticket
  rw [Garage.modLift_tickets]
  split
  · rw [Garage.modChan_tickets]
  · rfl

end

/-- A change that a lift unit shows already changes nothing. -/
theorem Garage.modLift_same {g : Garage} {l : Lift} {f : LiftUnit → LiftUnit} (h : f (g.lift l) = g.lift l) :
    g.modLift l f = g :=
  (modLift_congr g l (h := id) h).trans (by cases l <;> rfl)

/-! ### A plan dropped by a lift without tenure (R126) -/

theorem Garage.dropPlan_noPlan {g : Garage} {l : Lift} (h : (g.lift l).plan = none) :
    g.dropPlan l = g.modLift l fun u => { u with reorder := none } := by
  unfold Garage.dropPlan
  rw [h]

/-- R126 ❶: the blocks once a lift without tenure has given up the plan on it. -/
def Garage.planDropped (g : Garage) (l : Lift) (p : Plan) : Garage :=
  (g.planGivenUp l p).modLift l fun u => { u with plan := none, reorder := none }

theorem Garage.planGivenUp_tenure (g : Garage) (l : Lift) (p : Plan) :
    ((g.planGivenUp l p).lift l).tenure = (g.lift l).tenure := by
  obtain ⟨bays, tickets, e⟩ := (releaseRelocs_releases p.relocs g).rest
  unfold Garage.planGivenUp
  rw [e]
  cases p.slot <;> cases l <;> rfl

section
variable {g : Garage} {l : Lift} {p : Plan} (free : (g.lift l).tenure = none) (hp : (g.lift l).plan = some p)
include free hp

theorem Garage.endPlan_dropped : g.endPlan l p = g.planDropped l p := by
  rw [Garage.endPlan_standing hp]
  refine modLift_congr _ _ ?_
  rw [g.planGivenUp_tenure, free]
  rfl

theorem Garage.dropPlan_planned : g.dropPlan l = (g.planDropped l p).returnTarget p.target := by
  have settled : (((g.planDropped l p).returnTarget p.target).lift l).reorder = none := by
    rw [returnTarget_lift]
    unfold Garage.planDropped
    rw [Garage.modLift_lift]
  unfold Garage.dropPlan
  rw [hp]
  dsimp only
  rw [Garage.endPlan_dropped free hp]
  exact Garage.modLift_same (by rw [← settled])

end

/-! ### The return of a target (R105) -/

section
variable {g : Garage} {n : Nat} {t : Ticket} (ht : g.ticket n = some t)
include ht

theorem Garage.returnTarget_marked (mark : t.cancelMark = true) : g.returnTarget n = g.becomeParked n := by
  unfold Garage.returnTarget
  rw [ht]
  exact if_pos mark

variable (live : t.cancelMark = false)
include live

theorem Garage.returnTarget_single (single : t.convoy = none) : g.returnTarget n =
    let back := g.modTicket n fun t => { t with
      state := .queued, phase := none, blocked := false, hold := t.hold && !t.resumePending, resumePending := false }
    { back with queue := insertBy (fun e => back.seqOf e.ticket) ⟨n, none⟩ back.queue } := by
  unfold Garage.returnTarget
  rw [ht]
  dsimp only
  rw [live, single]
  rfl

theorem Garage.returnTarget_member {c : Chan} (member : t.convoy = some c) : g.returnTarget n =
    let back := g.modTicket n fun t => { t with state := .queued, phase := none, blocked := false }
    back.modChan c fun ch => { ch with list := insertBy back.seqOf n ch.list } := by
  unfold Garage.returnTarget
  rw [ht]
  dsimp only
  rw [live, member]
  rfl

end

/-- Settles O55: a lift at work stays; one at rest is stopped, its plan dropped, and the target returned. -/
theorem liftLost : Obligations.LiftLost := by
  intro g l u told stopped
  refine ⟨Garage.loseLift_stays, fun idle => ?_⟩
  have lost : g.loseLift l = stopped.dropPlan l := Garage.loseLift_idle idle
  have unit : stopped.lift l = { u with state := .offline, tenure := none } := Garage.stopLift_lift
  refine ⟨fun noPlan => lost.trans (Garage.dropPlan_noPlan (by rw [unit]; exact noPlan)), fun p t hp ht => ?_⟩
  intro released freed ended
  have free : (stopped.lift l).tenure = none := by rw [unit]
  have plan : (stopped.lift l).plan = some p := by rw [unit]; exact hp
  have seconds : stopped.seconds = g.seconds := congrArg Fixed.seconds (g.stopLift_fixed l .offline)
  have dropped : stopped.planDropped l p = ended := by
    unfold Garage.planDropped Garage.planGivenUp
    rw [Garage.releaseRelocs_eq, seconds]
  have target : ∃ mark, ended.ticket p.target = some { t with blocked := mark } := by
    obtain ⟨mark, e, -⟩ := endPlan_ticket stopped l p p.target
    rw [Garage.endPlan_dropped free plan, dropped,
      show stopped.ticket p.target = some t from (Garage.stopLift_ticket _).trans ht] at e
    exact ⟨mark t, e⟩
  obtain ⟨mark, target⟩ := target
  have returned : g.loseLift l = ended.returnTarget p.target :=
    lost.trans (dropped ▸ Garage.dropPlan_planned free plan)
  exact ⟨fun cancelled => returned.trans (Garage.returnTarget_marked target cancelled),
    fun live single => returned.trans (Garage.returnTarget_single target live single),
    fun c live member => returned.trans (Garage.returnTarget_member target live member)⟩

end Sys2Proof.Machine

namespace Sys2Proof.Machine

/-! ### The conditions of eligibility (R106, R150) -/

/-- R106 ❷ ❸ ❹ of a ticket: not BLOCKED, no bay in front of its bay RESERVED, and no car in front in CHECK. -/
def Garage.Free (g : Garage) (n : Nat) (t : Ticket) : Prop :=
  g.ticket n = some t ∧ t.blocked = false ∧ ∃ k b, t.bay = some k ∧
    g.bay k = some b ∧ ∀ x ∈ g.bayRecs, x.2.stack = b.stack → 1 ≤ x.2.position → x.2.position < b.position →
      (∀ m, x.2.occ ≠ .reserved m) ∧
      ∀ m car, x.2.occ = .occupied m → g.ticket m = some car → car.state ≠ .check

theorem Garage.bayOfTicket_iff {g : Garage} {n : Nat} {t : Ticket} (ht : g.ticket n = some t) (k : Nat) (b : Bay) :
    g.bayOfTicket n = some (k, b) ↔ t.bay = some k ∧ g.bay k = some b := by
  unfold Garage.bayOfTicket
  rw [ht, Option.bind_some]
  cases t.bay with
  | none => simp
  | some i =>
    simp only [Option.map_eq_some_iff, Prod.mk.injEq, Option.some.injEq]
    constructor
    · rintro ⟨x, hx, rfl, rfl⟩
      exact ⟨rfl, hx⟩
    · rintro ⟨rfl, hb⟩
      exact ⟨b, hb, rfl, rfl⟩

/-- R106 ❷ ❸: a bay in front does not bar the way: it is not RESERVED and holds no car in CHECK. -/
def Garage.passable (g : Garage) (o : Occupancy) : Bool :=
  !o.isReserved &&
    match o.occupant.bind g.ticket with
    | some t => t.state != .check
    | none => true

theorem Garage.wayClear_eq (g : Garage) (n : Nat) : g.wayClear n =
    ((g.bayOfTicket n).map fun y => (g.front y.2).all fun x => g.passable x.2.occ).getD false := by
  unfold Garage.wayClear
  cases g.bayOfTicket n <;> rfl

theorem Garage.passable_iff (g : Garage) (o : Occupancy) : g.passable o = true ↔
    (∀ m, o ≠ .reserved m) ∧ ∀ m car, o = .occupied m → g.ticket m = some car → car.state ≠ .check := by
  unfold Garage.passable
  cases o with
  | free => simp [Occupancy.isReserved, Occupancy.occupant]
  | reserved m => simp [Occupancy.isReserved]
  | occupied m =>
    have theirs : (∀ k car, Occupancy.occupied m = .occupied k → g.ticket k = some car → car.state ≠ .check) ↔
        ∀ car, g.ticket m = some car → car.state ≠ .check :=
      ⟨fun h car => h m car rfl, fun h k car e => Occupancy.occupied.inj e ▸ h car⟩
    rw [theirs]
    cases hm : g.ticket m <;> simp [Occupancy.isReserved, Occupancy.occupant, hm]

theorem Garage.wayClear_iff {g : Garage} {n : Nat} {t : Ticket} (ht : g.ticket n = some t) :
    g.wayClear n = true ↔ ∃ k b, t.bay = some k ∧ g.bay k = some b ∧ ∀ x ∈ g.bayRecs, x.2.stack = b.stack →
      1 ≤ x.2.position → x.2.position < b.position → (∀ m, x.2.occ ≠ .reserved m) ∧
        ∀ m car, x.2.occ = .occupied m → g.ticket m = some car → car.state ≠ .check := by
  rw [Garage.wayClear_eq]
  constructor
  · intro h
    cases hb : g.bayOfTicket n with
    | none =>
      rw [hb] at h
      cases h
    | some y =>
      rw [hb] at h
      obtain ⟨hk, hbay⟩ := (Garage.bayOfTicket_iff ht y.1 y.2).mp hb
      exact ⟨y.1, y.2, hk, hbay, fun x hx same least below =>
        (g.passable_iff x.2.occ).mp (List.all_eq_true.mp h x ((mem_front g y.2 x).mpr ⟨hx, same, least, below⟩))⟩
  · rintro ⟨k, b, hk, hb, clear⟩
    rw [(Garage.bayOfTicket_iff ht k b).mpr ⟨hk, hb⟩]
    refine List.all_eq_true.mpr fun x hx => (g.passable_iff x.2.occ).mpr ?_
    obtain ⟨mem, same, least, below⟩ := (mem_front g b x).mp hx
    exact clear x mem same least below

theorem Garage.floorTest_iff (g : Garage) (level : Nat) :
    g.floorTest level = true ↔ g.readyCount < g.podiumLimit ∨ g.floor ≤ level := by
  unfold Garage.floorTest
  rw [Bool.or_eq_true, decide_eq_true_iff, decide_eq_true_iff]

theorem Garage.waitsClear_iff (g : Garage) (n : Nat) : g.waitsClear n = true ↔
    ∃ t, g.Free n t ∧ (g.readyCount < g.podiumLimit ∨ g.floor ≤ t.priority.getD 0) := by
  unfold Garage.waitsClear Garage.Free
  cases ht : g.ticket n with
  | none => simp
  | some t =>
    simp only [Bool.and_eq_true, Bool.not_eq_true', Garage.wayClear_iff ht, Garage.floorTest_iff, Option.some.injEq]
    constructor
    · rintro ⟨⟨way, unmarked⟩, passes⟩
      exact ⟨t, ⟨rfl, unmarked, way⟩, passes⟩
    · rintro ⟨_, ⟨rfl, unmarked, way⟩, passes⟩
      exact ⟨⟨way, unmarked⟩, passes⟩

/-! ### The lead of a channel and its request (R150) -/

/-- R106 ❷ ❸ ❹ as the search of a RUNNING channel's list tests them. -/
def Garage.leads (g : Garage) (n : Nat) : Bool :=
  match g.ticket n with
  | some t => !t.blocked && g.wayClear n
  | none => false

theorem Garage.leads_iff (g : Garage) (n : Nat) : g.leads n = true ↔ ∃ t, g.Free n t := by
  unfold Garage.leads Garage.Free
  cases ht : g.ticket n with
  | none => simp
  | some t =>
    simp only [Bool.and_eq_true, Bool.not_eq_true', Garage.wayClear_iff ht, Option.some.injEq, ↓existsAndEq, true_and]

section
variable {g : Garage} {c : Chan}

theorem Garage.lead_stopped (h : (g.chan c).state ≠ .running) : g.lead c = none := if_neg h

theorem Garage.lead_running (h : (g.chan c).state = .running) : g.lead c = (g.chan c).list.find? g.leads := if_pos h

theorem Garage.lead_some (h : (g.chan c).state = .running) (n : Nat) : g.lead c = some n ↔
    ∃ a b, (g.chan c).list = a ++ n :: b ∧ (∃ t, g.Free n t) ∧ ∀ m ∈ a, ¬ ∃ t, g.Free m t := by
  rw [Garage.lead_running h, List.find?_eq_some_iff_append]
  simp only [← Garage.leads_iff, Bool.not_eq_true, Bool.not_eq_true']
  constructor
  · rintro ⟨leads, a, b, e, before⟩
    exact ⟨a, b, e, leads, before⟩
  · rintro ⟨a, b, e, leads, before⟩
    exact ⟨leads, a, b, e, before⟩

theorem Garage.lead_none (h : (g.chan c).state = .running) :
    g.lead c = none ↔ ∀ n ∈ (g.chan c).list, ¬ ∃ t, g.Free n t := by
  rw [Garage.lead_running h, List.find?_eq_none]
  simp only [← Garage.leads_iff]

theorem Garage.lead_isRunning {n : Nat} (h : g.lead c = some n) : (g.chan c).state = .running := by
  by_contra stopped
  rw [Garage.lead_stopped stopped] at h
  cases h

theorem Garage.requestLift_some {n : Nat} {l : Lift} (lead : g.lead c = some n) (lift : g.liftOfTicket n = some l)
    (free : g.tenureOf c = none) (floor : g.floorTest (g.chan c).level = true) : g.requestLift c = some l := by
  unfold Garage.requestLift
  rw [if_pos ⟨Garage.lead_isRunning lead, free, floor⟩, lead]
  exact lift

theorem Garage.requestLift_none (h : g.lead c = none ∨ g.tenureOf c ≠ none ∨ ¬ g.floorTest (g.chan c).level = true) :
    g.requestLift c = none := by
  unfold Garage.requestLift
  split
  · next stands =>
    rw [h.resolve_right (not_or.mpr ⟨not_not.mpr stands.2.1, not_not.mpr stands.2.2⟩)]
    rfl
  · rfl

theorem Garage.rerequest_some {l : Lift} (h : g.requestLift c = some l) : g.rerequest c = g.modChan c fun ch => { ch with
    request := some (l, match ch.request with
      | some (k, stamp) => if k = l then stamp else g.seconds
      | none => g.seconds) } := by
  unfold Garage.rerequest
  rw [h]
  refine modChan_congr g c ?_
  cases (g.chan c).request with
  | none => rfl
  | some r =>
    dsimp only
    split <;> rfl

theorem Garage.rerequest_none (h : g.requestLift c = none) :
    g.rerequest c = g.modChan c fun ch => { ch with request := none } := by
  unfold Garage.rerequest
  rw [h]

end

/-- Settles O57: the conditions by what each test says, the stamps entry by entry, the lead by the search of the list. -/
theorem eligibility : Obligations.Eligibility := by
  intro g ready floor free waits
  have tested : ∀ level, g.floorTest level = true ↔ floor level := g.floorTest_iff
  refine ⟨⟨rfl, List.length_map .., fun i e he => ?_⟩, fun c => ?_, fun out fuel => rfl⟩
  · have clear : g.waitsClear e.ticket = true ↔ waits e.ticket := g.waitsClear_iff e.ticket
    refine ⟨_, (List.getElem?_map ..).trans (congrArg _ he), rfl, fun h => ?_, fun h => ?_⟩
    · exact if_pos (clear.mpr h)
    · exact if_neg (h ∘ clear.mp)
  · intro ch
    refine ⟨Garage.lead_stopped, fun running => ⟨Garage.lead_some running, Garage.lead_none running⟩,
      fun n l lead lift tenure passes => ?_, fun h => ?_⟩
    · exact Garage.rerequest_some (Garage.requestLift_some lead lift tenure ((tested _).mpr passes))
    · exact Garage.rerequest_none (Garage.requestLift_none (h.imp_right (.imp_right fun no => no ∘ (tested _).mp)))

end Sys2Proof.Machine

namespace Sys2Proof.Machine

/-! ### The cars in front and the promotion (R127) -/

/-- The cars in front of a bay, position by position from the front: bay and ticket. -/
def Garage.carsBefore (g : Garage) (b : Bay) : List (Nat × Nat) := (List.range (b.position - 1)).flatMap fun i =>
  g.bayRecs.filterMap fun x => if x.2.stack = b.stack ∧ x.2.position = i + 1 then
    (match x.2.occ with | .occupied t => some (x.1, t) | _ => none) else none

theorem Garage.blockers_eq (g : Garage) (b : Bay) : g.blockers b = g.carsBefore b := by
  unfold Garage.blockers Garage.front Garage.baysAt Garage.carsBefore
  rw [List.filterMap_flatMap]
  refine congrArg (fun f => (List.range (b.position - 1)).flatMap f) (funext fun i => ?_)
  rw [List.filterMap_filter]
  refine congrArg (fun f => g.bayRecs.filterMap f) (funext fun x => ?_)
  by_cases h : x.2.stack = b.stack ∧ x.2.position = i + 1
  · rw [if_pos h, if_pos (by simpa using h)]
    cases x.2.occ <;> rfl
  · rw [if_neg h, if_neg (by simpa using h)]

theorem Garage.promotable_iff (g : Garage) (n : Nat) : g.promotable n = true ↔
    ∃ t, g.ticket n = some t ∧ t.state = .queued ∧ t.blocked = false := by
  unfold Garage.promotable
  cases g.ticket n <;> simp

section
variable {g : Garage} {n k : Nat} {t : Ticket} {b : Bay} (ht : g.ticket n = some t) (hk : t.bay = some k)
  (hb : g.bay k = some b)
include ht hk hb

theorem Garage.promoted_eq :
    g.promoted n = (((g.carsBefore b).map Prod.snd).find? g.promotable).getD n := by
  unfold Garage.promoted
  rw [(Garage.bayOfTicket_iff ht k b).mpr ⟨hk, hb⟩]
  dsimp only
  rw [g.blockers_eq]

theorem Garage.promoted_winner (none : ∀ x ∈ g.carsBefore b, ¬ g.promotable x.2 = true) : g.promoted n = n := by
  have unfound : ((g.carsBefore b).map Prod.snd).find? g.promotable = .none :=
    List.find?_eq_none.mpr (List.forall_mem_map.mpr none)
  rw [Garage.promoted_eq ht hk hb, unfound]
  rfl

theorem Garage.promoted_first {a rest : List (Nat × Nat)} {x : Nat × Nat} (e : g.carsBefore b = a ++ x :: rest)
    (first : g.promotable x.2 = true) (before : ∀ y ∈ a, ¬ g.promotable y.2 = true) : g.promoted n = x.2 := by
  rw [Garage.promoted_eq ht hk hb, e, List.map_append, List.map_cons,
    find_first first (List.forall_mem_map.mpr before)]
  rfl

end

/-! ### The relocation bays (R128) -/

/-- R128: one blocker given its relocation bay, after those before it. -/
def placeBlocker (zone ex : Nat) (acc : Except Nat (Garage × List Reloc)) (x : Nat × Nat) :
    Except Nat (Garage × List Reloc) :=
  match acc with
  | .error m => .error m
  | .ok (h, rs) =>
    match h.ticket x.2 with
    | none => .error x.2
    | some car =>
      if car.state = .retrieving then .error x.2
      else match h.choose (.relocation zone ex) car.cls car.estimate with
        | none => .error x.2
        | some (d, _) => .ok (h.reserve d x.2, rs ++ [⟨x.2, x.1, d, false⟩])

/-- Once a blocker cannot be placed, the rest are not tried. -/
theorem placeBlocker_failed (zone ex m : Nat) (cars : List (Nat × Nat)) :
    cars.foldl (placeBlocker zone ex) (.error m) = .error m := by
  induction cars with
  | nil => rfl
  | cons x rest ih => exact ih

/-- The blockers placed one after the other, behind the relocations that there are already. -/
theorem placeBlockers_eq (zone ex : Nat) (cars : List (Nat × Nat)) : ∀ (g : Garage) (rs : List Reloc),
    cars.foldl (placeBlocker zone ex) (.ok (g, rs)) =
      (g.placeBlockers zone ex cars).map fun x => (x.1, rs ++ x.2) := by
  induction cars with
  | nil => intro g rs; simp [Garage.placeBlockers, Except.map]
  | cons x rest ih =>
    intro g rs
    rw [List.foldl_cons]
    unfold placeBlocker Garage.placeBlockers
    dsimp only
    cases g.ticket x.2 with
    | none => exact placeBlocker_failed zone ex x.2 rest
    | some car =>
      dsimp only
      split
      · exact placeBlocker_failed zone ex x.2 rest
      · cases g.choose (.relocation zone ex) car.cls car.estimate with
        | none => exact placeBlocker_failed zone ex x.2 rest
        | some d =>
          refine (ih _ _).trans ?_
          dsimp only
          cases (g.reserve d.1 x.2).placeBlockers zone ex rest with
          | error m => rfl
          | ok y => simp [Except.map]

/-! ### The plan built, or its target BLOCKED (R109, R128, R129, R153) -/

section
variable {l : Lift} {winner level n k : Nat} {e : Ev} {t : Ticket} {b : Bay} (hn : e.g.promoted winner = n)
  (ht : e.g.ticket n = some t) (hk : t.bay = some k) (hb : e.g.bay k = some b)
include hn ht hk hb

theorem buildPlan_placed {h : Garage} {rs : List Reloc}
    (placed : e.g.placeBlockers ((e.g.zoneNoOf b).getD 0) b.stack (e.g.blockers b) = .ok (h, rs)) :
    buildPlan l winner level e = (⟨h.startPlan l n level rs, e.out⟩, true) := by
  unfold buildPlan
  rw [hn]
  dsimp only
  rw [(Garage.bayOfTicket_iff ht k b).mpr ⟨hk, hb⟩]
  dsimp only
  rw [placed]
  rfl

theorem buildPlan_failed {m : Nat}
    (failed : e.g.placeBlockers ((e.g.zoneNoOf b).getD 0) b.stack (e.g.blockers b) = .error m) :
    buildPlan l winner level e = (markBlocked n m ((e.g.zoneNoOf b).getD 0) e, false) := by
  unfold buildPlan
  rw [hn]
  dsimp only
  rw [(Garage.bayOfTicket_iff ht k b).mpr ⟨hk, hb⟩]
  dsimp only
  rw [failed]

end

theorem Garage.startPlan_eq (h : Garage) (l : Lift) (n level : Nat) (rs : List Reloc) : h.startPlan l n level rs =
    ((h.dequeue n).modTicket n fun t => { t with
      state := .retrieving, phase := if rs = [] then none else some .relocating, blocked := false }).modLift l
        fun u => { u with plan := some ⟨n, level, rs, false, none⟩, reorder := none } := by
  unfold Garage.startPlan
  cases rs <;> rfl

section
variable {n m zone : Nat} {e : Ev} {t : Ticket} (ht : e.g.ticket n = some t)
include ht

theorem markBlocked_again (marked : t.blocked = true) : markBlocked n m zone e = e := by
  unfold markBlocked
  rw [ht]
  exact if_pos marked

theorem markBlocked_alerts (fresh : t.blocked = false) : markBlocked n m zone e =
    ⟨e.g.modTicket n fun t => { t with blocked := true },
      e.out ++ [alertOut e.g.seconds 6 (w16 n ++ w16 m ++ w8 zone)] ++ (t.convoy.map fun c =>
        alertOut e.g.seconds 14 (w8 (chanCode c) ++ w16 n ++ w8 zone)).toList⟩ := by
  unfold markBlocked
  rw [ht]
  dsimp only
  rw [fresh]
  cases t.convoy with
  | none => exact congrArg (Ev.mk _) (List.append_nil _).symm
  | some c => rfl

end

/-- Settles O58: the promotion by the search of the cars in front, the build by the fold over them. -/
theorem planBuilt : Obligations.PlanBuilt := by
  intro l winner level e w wk wb g hw hwk hwb cars promotable
  have blockers : ∀ b, g.blockers b = cars b := g.blockers_eq
  have promotes : ∀ n, g.promotable n = true ↔ promotable n := g.promotable_iff
  refine ⟨fun no => Garage.promoted_winner hw hwk hwb fun x hx => no x hx ∘ (promotes _).mp,
    fun a x rest split first before => Garage.promoted_first hw hwk hwb split ((promotes _).mpr first)
      fun y hy => before y hy ∘ (promotes _).mp, fun n t k b hn ht hk hb => ?_⟩
  intro zone place
  have same : place = placeBlocker zone b.stack := rfl
  have folded := placeBlockers_eq zone b.stack (cars b) g []
  rw [← same, ← blockers] at folded
  refine ⟨fun h rs built => ?_, fun m failed => ?_⟩
  · intro left
    rw [← blockers, folded] at built
    cases placed : g.placeBlockers zone b.stack (g.blockers b) with
    | error m =>
      rw [placed] at built
      cases built
    | ok y =>
      rw [placed] at built
      cases built
      rw [buildPlan_placed hn ht hk hb placed, Garage.startPlan_eq]
      rfl
  · rw [← blockers, folded] at failed
    have unplaced : g.placeBlockers zone b.stack (g.blockers b) = .error m := by
      cases placed : g.placeBlockers zone b.stack (g.blockers b) with
      | ok y =>
        rw [placed] at failed
        cases failed
      | error i =>
        rw [placed] at failed
        exact failed
    have left := buildPlan_failed (l := l) (level := level) hn ht hk hb unplaced
    refine ⟨fun marked => left.trans (by rw [markBlocked_again ht marked]), fun fresh => ?_⟩
    intro alert
    rw [left, markBlocked_alerts ht fresh]
    cases t.convoy <;> rfl

end Sys2Proof.Machine

namespace Sys2Proof.Machine

/-! ### Lift units whose soundness is not at stake (R118, R119, R122) -/

/-- The second lift unit differs from the first in nothing its soundness turns on, but that its move timer may have stopped
and that a tenure may have ended or changed hands. -/
structure LiftUnit.Eases (u v : LiftUnit) : Prop where
  state : v.state = u.state
  serviceOn : v.serviceOn = u.serviceOn
  offPending : v.offPending = u.offPending
  inFlight : v.inFlight = u.inFlight
  unresolved : v.unresolved = u.unresolved
  number : v.nextNumber = u.nextNumber
  timer : v.moveTimer.isSome = true → u.moveTimer.isSome = true
  tenure : u.tenure = none → v.tenure = none

theorem LiftUnit.Eases.refl (u : LiftUnit) : u.Eases u := ⟨rfl, rfl, rfl, rfl, rfl, rfl, id, id⟩

theorem LiftUnit.Eases.trans {u v w : LiftUnit} (h : u.Eases v) (k : v.Eases w) : u.Eases w where
  state := k.state.trans h.state
  serviceOn := k.serviceOn.trans h.serviceOn
  offPending := k.offPending.trans h.offPending
  inFlight := k.inFlight.trans h.inFlight
  unresolved := k.unresolved.trans h.unresolved
  number := k.number.trans h.number
  timer := h.timer ∘ k.timer
  tenure := k.tenure ∘ h.tenure

theorem LiftUnit.Sound.eased {u v : LiftUnit} (h : u.Sound) (k : u.Eases v) : v.Sound where
  moving := by rw [k.state, k.inFlight]; exact h.moving
  timer t := by rw [k.inFlight]; exact h.timer (k.timer t)
  oneMove := by rw [k.inFlight, k.unresolved]; exact h.oneMove
  doubt := by rw [k.unresolved, k.state, k.serviceOn]; exact h.doubt
  pending := by rw [k.offPending, k.state, k.serviceOn]; exact h.pending
  stopped t := k.tenure (h.stopped (by rw [k.state] at t; exact t))
  number := by rw [k.number]; exact h.number

/-- What the soundness of a lift unit turns on, its tenure apart. -/
def LiftUnit.duty (u : LiftUnit) : LiftState × Bool × Bool × Option Move × Option Move × Nat × Option Nat :=
  (u.state, u.serviceOn, u.offPending, u.inFlight, u.unresolved, u.nextNumber, u.moveTimer)

theorem LiftUnit.Eases.of_duty {u v : LiftUnit} (h : v.duty = u.duty) (tenure : u.tenure = none → v.tenure = none) :
    u.Eases v := by
  simp only [LiftUnit.duty, Prod.mk.injEq] at h
  obtain ⟨state, serviceOn, offPending, inFlight, unresolved, number, timer⟩ := h
  exact ⟨state, serviceOn, offPending, inFlight, unresolved, number, fun t => timer ▸ t, tenure⟩

/-- A change of a lift unit that touches nothing its soundness turns on. -/
theorem LiftUnit.Eases.of_same {u v : LiftUnit} (h : v.duty = u.duty) (tenure : v.tenure = u.tenure) : u.Eases v :=
  .of_duty h tenure.trans

/-- Both lift units. -/
def Garage.lifts (g : Garage) : LiftUnit × LiftUnit := (g.liftA, g.liftB)

/-- Both lift units are eased at most. -/
structure Garage.Eases (g k : Garage) : Prop where
  a : g.liftA.Eases k.liftA
  b : g.liftB.Eases k.liftB

theorem Garage.Eases.refl (g : Garage) : g.Eases g := ⟨.refl _, .refl _⟩

theorem Garage.Eases.trans {x y z : Garage} (h : x.Eases y) (k : y.Eases z) : x.Eases z := ⟨h.a.trans k.a, h.b.trans k.b⟩

theorem Garage.Eases.lift {g k : Garage} (h : g.Eases k) (l : Lift) : (g.lift l).Eases (k.lift l) := by
  cases l
  · exact h.a
  · exact h.b

/-- An operation that leaves both lift units alone eases them. -/
theorem Garage.Eases.of_lifts {g k : Garage} (h : k.lifts = g.lifts) : g.Eases k := by
  obtain ⟨a, b⟩ := Prod.mk.inj h
  exact ⟨a ▸ .refl _, b ▸ .refl _⟩

/-- A change of a lift unit after others; by default one that touches nothing its soundness turns on. -/
theorem Garage.Eases.modLift {g k : Garage} (h : g.Eases k) (l : Lift) {f : LiftUnit → LiftUnit}
    (hf : ∀ u : LiftUnit, u.Eases (f u) := by intro u; exact .of_same rfl rfl) : g.Eases (k.modLift l f) := by
  cases l
  · exact ⟨h.a.trans (hf _), h.b⟩
  · exact ⟨h.a, h.b.trans (hf _)⟩

theorem Garage.modLift_eases (g : Garage) (l : Lift) {f : LiftUnit → LiftUnit}
    (hf : ∀ u : LiftUnit, u.Eases (f u) := by intro u; exact .of_same rfl rfl) : g.Eases (g.modLift l f) :=
  (Garage.Eases.refl g).modLift l hf

theorem Garage.LiftsSound.eased {g k : Garage} (h : g.LiftsSound) (e : g.Eases k) : k.LiftsSound :=
  ⟨h.a.eased e.a, h.b.eased e.b⟩

theorem Garage.LiftsSound.lift {g : Garage} (h : g.LiftsSound) (l : Lift) : (g.lift l).Sound := by
  cases l
  · exact h.a
  · exact h.b

/-- A change of one lift unit keeps both sound when it keeps that one sound. -/
theorem Garage.LiftsSound.modLift {g : Garage} (h : g.LiftsSound) (l : Lift) {f : LiftUnit → LiftUnit}
    (hf : (f (g.lift l)).Sound) : (g.modLift l f).LiftsSound := by
  cases l
  · exact ⟨hf, h.b⟩
  · exact ⟨h.a, hf⟩

/-! ### What leaves both lift units alone -/

@[simp] theorem Garage.modTicket_lifts (g : Garage) (n : Nat) (f : Ticket → Ticket) :
    (g.modTicket n f).lifts = g.lifts := rfl
@[simp] theorem Garage.modBay_lifts (g : Garage) (n : Nat) (f : Bay → Bay) : (g.modBay n f).lifts = g.lifts := rfl
@[simp] theorem Garage.modHook_lifts (g : Garage) (n : Nat) (f : Hook → Hook) : (g.modHook n f).lifts = g.lifts := rfl
@[simp] theorem Garage.modRunner_lifts (g : Garage) (n : Nat) (f : Runner → Runner) :
    (g.modRunner n f).lifts = g.lifts := rfl
@[simp] theorem Garage.modChan_lifts (g : Garage) (c : Chan) (f : Channel → Channel) :
    (g.modChan c f).lifts = g.lifts := by cases c <;> rfl
@[simp] theorem Garage.clearBlock_lifts (g : Garage) (c : Chan) : (g.clearBlock c).lifts = g.lifts := g.modChan_lifts c _
@[simp] theorem Garage.letRun_lifts (g : Garage) (c : Chan) : (g.letRun c).lifts = g.lifts := g.modChan_lifts c _
@[simp] theorem Garage.reserve_lifts (g : Garage) (n t : Nat) : (g.reserve n t).lifts = g.lifts := rfl
@[simp] theorem Garage.fill_lifts (g : Garage) (n t : Nat) : (g.fill n t).lifts = g.lifts := rfl
@[simp] theorem Garage.dequeue_lifts (g : Garage) (n : Nat) : (g.dequeue n).lifts = g.lifts := rfl
@[simp] theorem Garage.becomeParked_lifts (g : Garage) (n : Nat) : (g.becomeParked n).lifts = g.lifts := rfl
@[simp] theorem Garage.zoneReport_lifts (g : Garage) (z : Nat) : (g.zoneReport z).lifts = g.lifts := rfl

theorem Releases.lifts {g k : Garage} (h : Releases g k) : k.lifts = g.lifts := by
  obtain ⟨_, _, rfl⟩ := h.rest
  rfl

@[simp] theorem Garage.reportBay_lifts (g : Garage) (b : Bay) : (g.reportBay b).lifts = g.lifts :=
  (reportBay_releases g b).lifts
@[simp] theorem Garage.release_lifts (g : Garage) (n t : Nat) : (g.release n t).lifts = g.lifts :=
  (release_releases g n t).lifts

@[simp] theorem Garage.vacate_lifts (g : Garage) (n t : Nat) : (g.vacate n t).lifts = g.lifts := by
  unfold Garage.vacate
  split
  · rfl
  · split
    · exact (bayFreed_releases _ n).lifts
    · rfl

@[simp] theorem Garage.returnTarget_lifts (g : Garage) (n : Nat) : (g.returnTarget n).lifts = g.lifts :=
  Prod.ext (returnTarget_lift g n .a) (returnTarget_lift g n .b)

theorem Garage.foldl_lifts {α : Type} (f : Garage → α → Garage) (h : ∀ g a, (f g a).lifts = g.lifts) (xs : List α)
    (g : Garage) : (xs.foldl f g).lifts = g.lifts := by
  induction xs generalizing g with
  | nil => rfl
  | cons a rest ih => rw [List.foldl_cons, ih, h]

theorem Garage.renumber_lifts (f : Nat → Ticket → Ticket) (ns : List Nat) (g : Garage) (k : Nat) :
    (g.renumber f k ns).lifts = g.lifts := by
  induction ns generalizing g k with
  | nil => rfl
  | cons n rest ih => exact ih (g.modTicket n (f k)) (k + 1)

@[simp] theorem Garage.takeSeq_lifts (g : Garage) : g.takeSeq.1.lifts = g.lifts := by
  unfold Garage.takeSeq
  dsimp only
  split
  · exact Garage.renumber_lifts _ _ g _
  · rfl

@[simp] theorem Garage.becomeReady_lifts (g : Garage) (n : Nat) (loc : Location) :
    (g.becomeReady n loc).lifts = g.lifts := by
  have dealt : ∀ k : Garage, k.takeReadySeq.1.lifts = k.lifts := fun k => by
    unfold Garage.takeReadySeq
    dsimp only
    split
    · exact Garage.renumber_lifts _ _ k _
    · rfl
  refine (dealt _).trans ?_
  unfold Garage.countDelivery
  split <;> simp

@[simp] theorem Garage.determine_lifts (g : Garage) : g.determine.lifts = g.lifts := by
  unfold Garage.determine Garage.rerequest
  simp only [Garage.modChan_lifts]
  rfl

/-! ### Hooks, runners and READY leave both lift units alone -/

@[simp] theorem openHook_lifts (n : Nat) (t : Ticket) (e : Ev) : (openHook n t e).g.lifts = e.g.lifts := by
  unfold openHook
  (repeat' split) <;> rfl

@[simp] theorem assign_lifts (r n : Nat) (e : Ev) : (assign r n e).g.lifts = e.g.lifts := by
  unfold assign
  dsimp only
  split <;> rfl

@[simp] theorem giveRunner_lifts (n : Nat) (e : Ev) : (giveRunner n e).g.lifts = e.g.lifts := by
  unfold giveRunner
  split
  · exact assign_lifts _ _ _
  · rfl

@[simp] theorem freeRunner_lifts (r : Nat) (e : Ev) : (freeRunner r e).g.lifts = e.g.lifts := by
  unfold freeRunner
  split
  · exact assign_lifts _ _ _
  · rfl

@[simp] theorem releaseRunner_lifts (n : Nat) (e : Ev) : (releaseRunner n e).g.lifts = e.g.lifts := by
  unfold releaseRunner
  split
  · rfl
  · dsimp only
    split
    · rfl
    · exact freeRunner_lifts _ _

@[simp] theorem enterReady_lifts (n : Nat) (loc : Location) (e : Ev) : (enterReady n loc e).g.lifts = e.g.lifts := by
  unfold enterReady
  dsimp only
  split
  · exact e.g.becomeReady_lifts n loc
  · split <;> simp

end Sys2Proof.Machine

namespace Sys2Proof.Machine

/-! ### What eases a lift unit at most -/

theorem Garage.countMove_eases (g : Garage) (l : Lift) : g.Eases (g.countMove l) := by
  unfold Garage.countMove
  split
  · exact g.modLift_eases l
  · exact .refl g

theorem Garage.countFault_eases (g : Garage) (l : Lift) : g.Eases (g.countFault l) := by
  unfold Garage.countFault
  split
  · exact g.modLift_eases l
  · exact .refl g

/-- The end of a plan ends at most a tenure that the plan holds in its own right (R126). -/
theorem Garage.endPlan_eases (g : Garage) (l : Lift) (p : Plan) : g.Eases (g.endPlan l p) := by
  have freed : g.Eases (g.releaseRelocs p.relocs) := .of_lifts (releaseRelocs_releases p.relocs g).lifts
  unfold Garage.endPlan
  refine Garage.Eases.modLift ?_ l fun u => ?_
  · split
    · exact freed.modLift l
    · exact freed
  · split
    · exact .of_duty rfl fun t => by simp [t]
    · exact .of_same rfl rfl

theorem Garage.abandonPlan_eases (g : Garage) (l : Lift) : g.Eases (g.abandonPlan l) := by
  unfold Garage.abandonPlan
  split
  · exact (g.endPlan_eases l _).trans (.of_lifts (Garage.returnTarget_lifts _ _))
  · exact .refl g

theorem Garage.dropPlan_eases (g : Garage) (l : Lift) : g.Eases (g.dropPlan l) := by
  unfold Garage.dropPlan
  exact (g.abandonPlan_eases l).modLift l

theorem Garage.endIfCancelled_eases (g : Garage) (l : Lift) : g.Eases (g.endIfCancelled l) := by
  unfold Garage.endIfCancelled
  split
  · split
    · exact (g.endPlan_eases l _).trans (.of_lifts (Garage.becomeParked_lifts _ _))
    · exact .refl g
  · exact .refl g

/-! ### The outcome of a move eases the lift units at most -/

theorem Garage.markRelocated_eases (g : Garage) (l : Lift) (n : Nat) : g.Eases (g.markRelocated l n) :=
  g.modLift_eases l

theorem Garage.joinLane_eases (g : Garage) (l : Lift) (n : Nat) : g.Eases (g.joinLane l n) :=
  g.modLift_eases l

theorem Garage.parked_eases (g : Garage) (l : Lift) (m : Move) : g.Eases (g.parked l m) := by
  unfold Garage.parked
  refine Garage.Eases.trans ?_ (.of_lifts (Garage.modTicket_lifts _ _ _))
  refine Garage.Eases.modLift ?_ l
  exact .of_lifts (g.fill_lifts _ _)

theorem complete_eases (l : Lift) (m : Move) (e : Ev) : e.g.Eases (complete l m e).g := by
  unfold complete
  split
  · refine Garage.Eases.trans (.of_lifts ?_) ((Garage.markRelocated_eases _ l m.ticket).trans
      (Garage.endIfCancelled_eases _ l))
    simp [Garage.relocated]
  · refine Garage.Eases.trans ?_ (.of_lifts (enterReady_lifts _ _ _))
    simp only [Ev.modG_g]
    refine Garage.Eases.modLift ?_ l
    exact .trans (.of_lifts (e.g.vacate_lifts m.source.bayNo m.ticket)) (Garage.joinLane_eases _ l m.ticket)
  · exact e.g.parked_eases l m

theorem undo_eases (l : Lift) (m : Move) (e : Ev) : e.g.Eases (undo l m e).g := by
  unfold undo
  split
  · exact .of_lifts rfl
  · exact e.g.abandonPlan_eases l

/-- A move left unresolved eases the lift units, and is then kept by its lift (R140). -/
theorem Garage.leaveUnresolved_eases (g : Garage) (l : Lift) (m : Move) :
    ∃ k : Garage, g.Eases k ∧ g.leaveUnresolved l m = k.modLift l fun u => { u with unresolved := some m } := by
  unfold Garage.leaveUnresolved
  refine ⟨_, ?_, rfl⟩
  have held : ∀ k : Garage, k.Eases (match m.source with | .bay b => k.holdBay b m.ticket | _ => k) := fun k => by
    split <;> exact .of_lifts rfl
  have ended : ∀ k : Garage, k.Eases (match m.kind with
      | .park => k.modLift l fun u => { u with parkRequest := none }
      | .relocation => (k.markRelocated l m.ticket).abandonPlan l
      | .final => k.modLift l fun u => { u with plan := none }) := fun k => by
    split
    · exact k.modLift_eases l
    · exact (k.markRelocated_eases l m.ticket).trans (Garage.abandonPlan_eases _ l)
    · exact k.modLift_eases l
  have checked : g.Eases ((g.dequeue m.ticket).modTicket m.ticket fun t => t.toCheck l m) := .of_lifts rfl
  exact checked.trans ((held _).trans (ended _))

/-! ### The building of plans eases the lift units at most -/

@[simp] theorem markBlocked_lifts (n b z : Nat) (e : Ev) : (markBlocked n b z e).g.lifts = e.g.lifts := by
  unfold markBlocked
  split
  · rfl
  · split
    · rfl
    · dsimp only
      split <;> rfl

theorem buildPlan_eases (l : Lift) (w level : Nat) (e : Ev) : e.g.Eases (buildPlan l w level e).1.g := by
  unfold buildPlan
  dsimp only
  split
  · exact .of_lifts rfl
  · split
    · exact .of_lifts (markBlocked_lifts _ _ _ e)
    · rename_i k rs placed
      obtain ⟨bays, rfl⟩ := placeBlockers_bays _ _ _ _ _ _ placed
      simp only [Ev.modG_g, Garage.startPlan]
      refine Garage.Eases.modLift ?_ l
      exact .of_lifts rfl

theorem waitForLane_eases (l : Lift) (p : Plan) (e : Ev) : e.g.Eases (waitForLane l p e).g := by
  unfold waitForLane
  simp only [Ev.modG_g]
  refine Garage.Eases.modLift (.of_lifts ?_) l fun _ => by exact .of_duty rfl fun _ => rfl
  simp only [Garage.modTicket_lifts]
  split
  · exact e.g.clearBlock_lifts _
  · rfl

theorem suspend_eases (l : Lift) (p : Plan) (e : Ev) : e.g.Eases (suspend l p e).g := by
  unfold suspend
  simp only [Ev.modG_g]
  refine Garage.Eases.modLift (.of_lifts (Garage.modTicket_lifts _ _ _)) l fun _ => by exact .of_duty rfl fun t => by simp [t]

theorem endBlock_eases (l : Lift) (c : Chan) (e : Ev) : e.g.Eases (endBlock l c e).g := by
  unfold endBlock
  simp only [Ev.modG_g]
  exact Garage.Eases.modLift (.of_lifts (e.g.clearBlock_lifts c)) l fun _ => by exact .of_duty rfl fun _ => rfl

theorem blockStep_eases (l : Lift) (c : Chan) (e : Ev) : e.g.Eases (blockStep l c e).g := by
  unfold blockStep
  dsimp only
  split
  · exact endBlock_eases l c e
  · split
    · exact endBlock_eases l c e
    · rename_i n _
      have built := buildPlan_eases l n (e.g.chan c).level e
      split
      · exact endBlock_eases l c e
      · split
        · exact built.trans (.of_lifts (Garage.modChan_lifts _ c _))
        · exact built

theorem channelDone_lifts {c : Chan} {e e' : Ev} (h : channelDone c e = some e') : e'.g.lifts = e.g.lifts := by
  unfold channelDone at h
  dsimp only at h
  split at h
  · cases h
    split <;> simp
  · cases h

end Sys2Proof.Machine

namespace Sys2Proof.Machine

/-! ### A lift unit with no move in flight (R118, R119, R122) -/

/-- A lift unit that is not MOVING is sound when it has no move in flight, no timer, and no service-off pending, and its
unresolved move and its tenure are as its state lets them be. -/
theorem LiftUnit.Sound.at_rest {u : LiftUnit} (still : u.state ≠ .moving) (fly : u.inFlight = none)
    (timer : u.moveTimer = none) (off : u.offPending = false)
    (doubt : u.unresolved.isSome = true → u.state = .faulted ∨ (u.state = .out ∧ u.serviceOn = false))
    (stopped : u.state = .faulted ∨ u.state = .out ∨ u.state = .offline → u.tenure = none)
    (number : 1 ≤ u.nextNumber ∧ u.nextNumber ≤ 255) : u.Sound where
  moving := by simp [still, fly]
  timer t := by simp [timer] at t
  oneMove t := by simp [fly] at t
  doubt := doubt
  pending t := by simp [off] at t
  stopped := stopped
  number := number

/-- A sound lift unit that is not MOVING has no move in flight, no timer, and no service-off pending. -/
theorem LiftUnit.Sound.still {u : LiftUnit} (h : u.Sound) (still : u.state ≠ .moving) :
    u.inFlight = none ∧ u.moveTimer = none ∧ u.offPending = false := by
  have fly : u.inFlight = none := by
    cases hf : u.inFlight with
    | none => rfl
    | some m => exact absurd (h.moving.mpr (by rw [hf]; rfl)) still
  refine ⟨fly, ?_, ?_⟩
  · cases ht : u.moveTimer with
    | none => rfl
    | some k =>
      have := h.timer (by rw [ht]; rfl)
      rw [fly] at this
      cases this
  · cases ho : u.offPending with
    | false => rfl
    | true => exact absurd (h.pending ho).1 still

/-- A sound lift unit that is neither FAULTED nor OUT has no unresolved move. -/
theorem LiftUnit.Sound.resolved {u : LiftUnit} (h : u.Sound) (hf : u.state ≠ .faulted) (ho : u.state ≠ .out) :
    u.unresolved = none := by
  cases hu : u.unresolved with
  | none => rfl
  | some m =>
    rcases h.doubt (by rw [hu]; rfl) with s | ⟨s, -⟩
    · exact absurd s hf
    · exact absurd s ho

/-! ### A lift unit whose move has ended, before its state is settled (R137 to R140) -/

/-- A lift unit whose move in flight has ended: no move, no timer, and a pending service-off has its flag off. -/
structure LiftUnit.Landed (u : LiftUnit) : Prop where
  fly : u.inFlight = none
  timer : u.moveTimer = none
  pending : u.offPending = true → u.serviceOn = false
  number : 1 ≤ u.nextNumber ∧ u.nextNumber ≤ 255

theorem LiftUnit.Landed.eased {u v : LiftUnit} (h : u.Landed) (k : u.Eases v) : v.Landed where
  fly := k.inFlight.trans h.fly
  timer := by
    cases ht : v.moveTimer with
    | none => rfl
    | some n =>
      have := k.timer (by rw [ht]; rfl)
      rw [h.timer] at this
      cases this
  pending := by rw [k.offPending, k.serviceOn]; exact h.pending
  number := by rw [k.number]; exact h.number

theorem LiftUnit.Sound.landed {u : LiftUnit} (h : u.Sound) : ({ u with inFlight := none, moveTimer := none } : LiftUnit).Landed :=
  ⟨rfl, rfl, fun t => (h.pending t).2, h.number⟩

/-- A lift unit that has become FAULTED, before a pending service-off takes it OUT. -/
structure LiftUnit.Down (u : LiftUnit) : Prop extends u.Landed where
  faulted : u.state = .faulted
  tenure : u.tenure = none

theorem LiftUnit.Down.eased {u v : LiftUnit} (h : u.Down) (k : u.Eases v) : v.Down :=
  ⟨h.toLanded.eased k, k.state.trans h.faulted, k.tenure h.tenure⟩

/-- A FAULTED lift whose pending service-off has been taken is sound, with an unresolved move or without (R122, R140). -/
theorem LiftUnit.Down.takeOff {u : LiftUnit} (h : u.Down) :
    (if u.offPending then { u with state := .out, offPending := false } else u : LiftUnit).Sound := by
  by_cases off : u.offPending = true
  · rw [if_pos off]
    exact .at_rest (by simp) h.fly h.timer rfl (fun _ => .inr ⟨rfl, h.pending off⟩) (fun _ => h.tenure) h.number
  · rw [if_neg off]
    exact .at_rest (by simp [h.faulted]) h.fly h.timer (by simpa using off) (fun _ => .inl h.faulted) (fun _ => h.tenure)
      h.number

/-! ### The other lift -/

/-- One lift unit as `P` has it, the other one sound. -/
structure Garage.Beside (g : Garage) (l : Lift) (P : LiftUnit → Prop) : Prop where
  this : P (g.lift l)
  other : (g.lift (otherLift l)).Sound

theorem Garage.lift_otherLift (g : Garage) (l : Lift) (f : LiftUnit → LiftUnit) :
    (g.modLift l f).lift (otherLift l) = g.lift (otherLift l) := by cases l <;> rfl

section
variable {g k : Garage} {l : Lift} {P Q : LiftUnit → Prop}

theorem Garage.Beside.sound (h : g.Beside l LiftUnit.Sound) : g.LiftsSound := by
  cases l
  · exact ⟨h.this, h.other⟩
  · exact ⟨h.other, h.this⟩

theorem Garage.LiftsSound.beside (h : g.LiftsSound) (l : Lift) : g.Beside l LiftUnit.Sound := ⟨h.lift l, h.lift _⟩

theorem Garage.Beside.eased (hP : ∀ {u v : LiftUnit}, P u → u.Eases v → P v) (h : g.Beside l P) (e : g.Eases k) :
    k.Beside l P :=
  ⟨hP h.this (e.lift l), h.other.eased (e.lift _)⟩

theorem Garage.Beside.modLift {f : LiftUnit → LiftUnit} (h : g.Beside l P) (hf : ∀ u, P u → Q (f u)) :
    (g.modLift l f).Beside l Q :=
  ⟨by rw [Garage.modLift_lift]; exact hf _ h.this, by rw [Garage.lift_otherLift]; exact h.other⟩

/-- A lift that enters FAULTED, OUT or OFFLINE: its state and its tenure (R119). -/
theorem Garage.stopLift_eases (g : Garage) (l : Lift) (now : LiftState) :
    (g.modLift l fun u => { u with state := now, tenure := none }).Eases (g.stopLift l now) := by
  unfold Garage.stopLift
  dsimp only
  split
  · rename_i c _
    cases l <;> cases c <;> exact .of_lifts rfl
  · exact .refl _

/-- A lift that enters FAULTED, OUT or OFFLINE with no move in flight: its state and tenure, and what eases it (R126). -/
theorem Garage.stopIdleLift_eases (g : Garage) (l : Lift) (now : LiftState) :
    (g.modLift l fun u => { u with state := now, tenure := none }).Eases (g.stopIdleLift l now) :=
  (g.stopLift_eases l now).trans (Garage.dropPlan_eases _ l)

/-! ### The ends of moves keep the lift units sound (R137 to R140) -/

theorem Garage.LiftsSound.takeOutcome (h : g.LiftsSound) (l : Lift) : (g.takeOutcome l).Beside l LiftUnit.Landed :=
  (h.beside l).modLift fun _ s => s.landed

theorem Garage.LiftsSound.faultLift (h : g.LiftsSound) (l : Lift) : (g.faultLift l).Beside l LiftUnit.Down := by
  have landed := Garage.Beside.eased LiftUnit.Landed.eased (h.takeOutcome l) (Garage.countFault_eases _ l)
  refine Garage.Beside.eased LiftUnit.Down.eased (landed.modLift fun u s => ?_) (Garage.stopLift_eases _ l .faulted)
  exact ⟨⟨s.fly, s.timer, s.pending, s.number⟩, rfl, rfl⟩

theorem Garage.Beside.takeOff (h : g.Beside l LiftUnit.Down) : (g.takeOff l).LiftsSound :=
  (h.modLift fun _ s => s.takeOff).sound

theorem Garage.Beside.leaveUnresolved (h : g.Beside l LiftUnit.Down) (m : Move) :
    (g.leaveUnresolved l m).Beside l LiftUnit.Down := by
  obtain ⟨k, eases, left⟩ := g.leaveUnresolved_eases l m
  rw [left]
  exact (Garage.Beside.eased LiftUnit.Down.eased h eases).modLift fun _ s => ⟨⟨s.fly, s.timer, s.pending, s.number⟩, s.faulted, s.tenure⟩

end
end Sys2Proof.Machine

namespace Sys2Proof.Machine

/-! ### A lift unit after its move's end (R137, R138) -/

/-- A lift unit whose move in flight has ended, and left none unresolved. -/
structure LiftUnit.Arrived (u : LiftUnit) : Prop extends u.Landed where
  resolved : u.unresolved = none

theorem LiftUnit.Arrived.eased {u v : LiftUnit} (h : u.Arrived) (k : u.Eases v) : v.Arrived :=
  ⟨h.toLanded.eased k, k.unresolved.trans h.resolved⟩

/-- A lift whose move has ended is sound once it is READY or NOT_READY with no service-off pending. -/
theorem LiftUnit.Arrived.sound {u v : LiftUnit} (h : u.Arrived) (off : u.offPending = false)
    (running : v.state = .ready ∨ v.state = .notReady)
    (same : (v.inFlight, v.moveTimer, v.offPending, v.unresolved, v.nextNumber)
      = (u.inFlight, u.moveTimer, u.offPending, u.unresolved, u.nextNumber)) : v.Sound := by
  simp only [Prod.mk.injEq] at same
  obtain ⟨fly, timer, pending, unresolved, number⟩ := same
  have resolved := unresolved.trans h.resolved
  exact .at_rest (by rcases running with s | s <;> simp [s]) (fly.trans h.fly) (timer.trans h.timer) (pending.trans off)
    (fun t => by simp [resolved] at t) (fun t => by rcases running with s | s <;> simp [s] at t) (number ▸ h.number)

section
variable {g : Garage} {l : Lift}

theorem Garage.LiftsSound.arrive (h : g.LiftsSound) {m : Move} (fly : (g.lift l).inFlight = some m) :
    (g.takeOutcome l).Beside l LiftUnit.Arrived := by
  obtain ⟨landed, other⟩ := h.takeOutcome l
  refine ⟨⟨landed, ?_⟩, other⟩
  unfold Garage.takeOutcome
  rw [Garage.modLift_lift]
  exact (h.lift l).oneMove (by rw [fly]; rfl)

/-- A lift stopped with no move in flight, and then changed by `f`: both lifts are sound when the unit is sound so stopped
and changed, and `f` touches nothing that easing leaves (R126). -/
theorem Garage.stopIdleLift_sound {now : LiftState} {f : LiftUnit → LiftUnit}
    (hf : ∀ {u v : LiftUnit}, u.Eases v → (f u).Eases (f v))
    (this : (f { g.lift l with state := now, tenure := none }).Sound) (other : (g.lift (otherLift l)).Sound) :
    ((g.stopIdleLift l now).modLift l f).LiftsSound := by
  have eases := g.stopIdleLift_eases l now
  have here := eases.lift l
  have there := eases.lift (otherLift l)
  rw [Garage.modLift_lift] at here
  rw [Garage.lift_otherLift] at there
  refine Garage.Beside.sound (l := l) ⟨?_, ?_⟩
  · rw [Garage.modLift_lift]
    exact this.eased (hf here)
  · rw [Garage.lift_otherLift]
    exact other.eased there

/-- A lift whose move has ended is taken OUT by a pending service-off (R126, R137). -/
theorem Garage.Beside.out (h : g.Beside l LiftUnit.Arrived) :
    ((g.stopIdleLift l .out).modLift l fun u => { u with offPending := false }).LiftsSound := by
  have u := h.this
  refine Garage.stopIdleLift_sound (fun k => ?_) ?_ h.other
  · exact ⟨k.state, k.serviceOn, rfl, k.inFlight, k.unresolved, k.number, k.timer, k.tenure⟩
  · exact .at_rest (by simp) u.fly u.timer rfl (fun t => by simp [u.resolved] at t) (fun _ => rfl) u.number

/-- A lift whose move has ended, with no service-off pending, is sound once it is READY or NOT_READY. -/
theorem Garage.Beside.stays (h : g.Beside l LiftUnit.Arrived) (off : (g.lift l).offPending = false)
    {f : LiftUnit → LiftUnit} (running : ∀ u, (f u).state = .ready ∨ (f u).state = .notReady)
    (same : ∀ u, ((f u).inFlight, (f u).moveTimer, (f u).offPending, (f u).unresolved, (f u).nextNumber)
      = (u.inFlight, u.moveTimer, u.offPending, u.unresolved, u.nextNumber)) : (g.modLift l f).LiftsSound := by
  refine Garage.Beside.sound ⟨?_, by rw [Garage.lift_otherLift]; exact h.other⟩
  rw [Garage.modLift_lift]
  exact h.this.sound off (running _) (same _)

theorem Garage.Beside.leaveMoving (h : g.Beside l LiftUnit.Arrived) : (g.leaveMoving l).LiftsSound := by
  unfold Garage.leaveMoving
  split
  · exact h.out
  · rename_i off
    refine h.stays (by simpa using off) (fun u => ?_) fun _ => rfl
    show u.readyState = .ready ∨ u.readyState = .notReady
    unfold LiftUnit.readyState
    split
    · exact .inl rfl
    · exact .inr rfl

/-- R138: a refusal for want of readiness leaves the lift NOT_READY or OUT, and both lifts sound. -/
theorem Garage.LiftsSound.refusedNotReady (h : g.LiftsSound) {m : Move} (fly : (g.lift l).inFlight = some m) :
    (g.refusedNotReady l m).LiftsSound := by
  have back : (g.refusedBack l m).Beside l LiftUnit.Arrived := by
    refine Garage.Beside.eased LiftUnit.Arrived.eased (h.arrive fly) ?_
    have unready := (g.takeOutcome l).modLift_eases l (f := fun u => { u with readiness := .notReady })
    unfold Garage.takeOutcome at unready ⊢
    rw [modLift_modLift] at unready
    unfold Garage.refusedBack
    dsimp only
    split
    · exact unready.trans (.of_lifts (Garage.modTicket_lifts _ _ _))
    · exact unready
  rw [Garage.refusedNotReady_eq]
  split
  · exact back.out
  · rename_i off
    have going : ((g.refusedBack l m).lift l).offPending = false := by rw [Garage.refusedBack_offPending]; simpa using off
    split
    · exact back.stays going (fun _ => .inr rfl) fun _ => rfl
    · split
      · refine Garage.LiftsSound.eased ?_ (Garage.endIfCancelled_eases _ l)
        exact back.stays going (fun _ => .inr rfl) fun _ => rfl
      · exact back.stays going (fun _ => .inr rfl) fun _ => rfl

/-! ### Reports and expiries keep both lifts sound (R137 to R141) -/

theorem moveCompleted_sound {m : Move} {e : Ev} (h : e.g.LiftsSound) (fly : (e.g.lift l).inFlight = some m) :
    (moveCompleted l m e).g.LiftsSound := by
  refine Garage.Beside.leaveMoving ?_
  exact Garage.Beside.eased LiftUnit.Arrived.eased (h.arrive fly)
    ((Garage.countMove_eases _ l).trans (complete_eases l m (e.modG fun g => (g.takeOutcome l).countMove l)))

theorem refusedLocation_sound {m : Move} {e : Ev} (h : e.g.LiftsSound) : (refusedLocation l m e).g.LiftsSound :=
  (Garage.Beside.eased LiftUnit.Down.eased (h.faultLift l)
    (undo_eases l m (liftFaultAlert l m locationFaultCode (e.modG fun g => g.faultLift l)))).takeOff

theorem moveFaulted_sound {m : Move} {e : Ev} (h : e.g.LiftsSound) (pos : CarPosition) :
    (moveFaulted l m pos e).g.LiftsSound := by
  have down := h.faultLift l
  cases pos with
  | atSource =>
    exact (Garage.Beside.eased LiftUnit.Down.eased down
      (undo_eases l m (liftFaultAlert l m _ (e.modG fun g => g.faultLift l)))).takeOff
  | atDestination =>
    refine (Garage.Beside.eased LiftUnit.Down.eased down (Garage.Eases.trans ?_ (Garage.abandonPlan_eases _ l))).takeOff
    exact (Garage.countMove_eases _ l).trans
      (complete_eases l m ((liftFaultAlert l m _ (e.modG fun g => g.faultLift l)).modG fun g => g.countMove l))
  | unknown => exact (down.leaveUnresolved m).takeOff

theorem moveTimedOut_sound {m : Move} {e : Ev} (h : e.g.LiftsSound) : (moveTimedOut l m e).g.LiftsSound :=
  ((h.faultLift l).leaveUnresolved m).takeOff

/-- An unresolved move cleared keeps both lifts sound (R141). -/
theorem Garage.LiftsSound.clearUnresolved (h : g.LiftsSound) (m : Move) : (g.clearUnresolved l m).LiftsSound := by
  have u := h.lift l
  exact h.modLift l
    { moving := u.moving, timer := u.timer, oneMove := fun _ => rfl, doubt := fun t => (nomatch t), pending := u.pending
      stopped := u.stopped, number := u.number }

theorem placeAtDestination_sound {m : Move} {e : Ev} (h : e.g.LiftsSound) : (placeAtDestination l m e).g.LiftsSound := by
  have counted := (h.clearUnresolved (l := l) m).eased (Garage.countMove_eases _ l)
  refine counted.eased ?_
  unfold placeAtDestination
  dsimp only
  split
  · exact .of_lifts (by simp)
  · exact Garage.parked_eases _ l m
  · refine Garage.Eases.trans ?_ (.of_lifts (enterReady_lifts _ _ _))
    exact .trans (.of_lifts (Garage.release_lifts _ _ _)) (Garage.joinLane_eases _ l m.ticket)

theorem placeAtSource_sound {m : Move} {e : Ev} (h : e.g.LiftsSound) : (placeAtSource l m e).g.LiftsSound := by
  refine (h.clearUnresolved (l := l) m).eased ?_
  unfold placeAtSource
  simp only [Ev.modG_g]
  split
  · exact .of_lifts (by simp)
  · refine Garage.Eases.trans ?_ (.of_lifts (Garage.modTicket_lifts _ _ _))
    unfold Garage.freeSlot
    refine Garage.Eases.modLift ?_ l
    exact .of_lifts (Garage.fill_lifts _ _ _)
  · split
    · refine Garage.Eases.trans ?_ (.of_lifts (Garage.reportBay_lifts _ _))
      refine Garage.Eases.modLift ?_ l
      exact .of_lifts (Garage.modTicket_lifts _ _ _)
    · refine Garage.Eases.modLift ?_ l
      exact .of_lifts (Garage.modTicket_lifts _ _ _)

end
end Sys2Proof.Machine

namespace Sys2Proof.Machine

/-! ### The work an event sets off keeps both lifts sound (R121, R124, R130) -/

theorem nextMoveNumber_range (n : Nat) : 1 ≤ nextMoveNumber n ∧ nextMoveNumber n ≤ 255 := by
  unfold nextMoveNumber
  split <;> omega

/-- A move ordered of a READY lift (R135). -/
theorem order_sound {l : Lift} {m : Move} {e : Ev} (h : e.g.LiftsSound) (ready : (e.g.lift l).state = .ready) :
    (order l m e).g.LiftsSound := by
  have u := h.lift l
  obtain ⟨-, timer, off⟩ := u.still (by simp [ready])
  have resolved := u.resolved (by simp [ready]) (by simp [ready])
  unfold order
  simp only [Ev.emit_g, Ev.modG_g]
  refine h.modLift l { moving := ?_, timer := ?_, oneMove := ?_, doubt := ?_, pending := ?_, stopped := ?_, number := ?_ }
  · simp
  · simp
  · exact fun _ => resolved
  · simp [resolved]
  · simp [off]
  · simp
  · exact nextMoveNumber_range _

/-- A move ordered after changes that ease a READY lift. -/
theorem order_eased {l : Lift} {m : Move} {e k : Ev} (h : e.g.LiftsSound) (ready : (e.g.lift l).state = .ready)
    (eases : e.g.Eases k.g) : (order l m k).g.LiftsSound :=
  order_sound (h.eased eases) ((eases.lift l).state.trans ready)

theorem goToLane_sound {l : Lift} {p : Plan} {e k : Ev} (h : e.g.LiftsSound) (ready : (e.g.lift l).state = .ready)
    (eases : e.g.Eases k.g) : (goToLane l p k).g.LiftsSound := by
  unfold goToLane
  refine order_eased h ready ?_
  simp only [Ev.modG_g]
  refine Garage.Eases.modLift ?_ l fun _ => by exact .of_duty rfl fun t => by simp [t]
  exact eases.trans (.of_lifts (Garage.modTicket_lifts _ _ _))

theorem passHoldPoint_sound {l : Lift} {p : Plan} {e k : Ev} (h : e.g.LiftsSound) (ready : (e.g.lift l).state = .ready)
    (eases : e.g.Eases k.g) : (passHoldPoint l p k).g.LiftsSound := by
  unfold passHoldPoint
  split
  · exact goToLane_sound h ready eases
  · exact h.eased (eases.trans (waitForLane_eases l p k))

theorem atHoldPoint_sound {l : Lift} {p : Plan} {e : Ev} (h : e.g.LiftsSound) (ready : (e.g.lift l).state = .ready) :
    (atHoldPoint l p e).g.LiftsSound := by
  unfold atHoldPoint
  split
  · exact h.eased (e.g.endPlan_eases l p)
  · split
    · split
      · exact passHoldPoint_sound h ready (.of_lifts (Garage.modTicket_lifts _ _ _))
      · exact h.eased (suspend_eases l p e)
    · exact passHoldPoint_sound h ready (.refl _)

theorem planStep_sound {l : Lift} {p : Plan} {e : Ev} (h : e.g.LiftsSound) (ready : (e.g.lift l).state = .ready) :
    (planStep l p e).g.LiftsSound := by
  unfold planStep
  split
  · exact order_sound h ready
  · exact atHoldPoint_sound h ready

theorem reorderMove_sound {l : Lift} {m : Move} {e : Ev} (h : e.g.LiftsSound) (ready : (e.g.lift l).state = .ready) :
    (reorderMove l m e).g.LiftsSound := by
  unfold reorderMove
  refine order_eased h ready ?_
  simp only [Ev.modG_g]
  split
  · refine Garage.Eases.modLift ?_ l fun _ => by exact .of_duty rfl fun _ => rfl
    exact .of_lifts (Garage.modTicket_lifts _ _ _)
  · refine Garage.Eases.modLift (.refl _) l fun _ => by exact .of_duty rfl fun t => by simp [t]
  · exact .refl _

theorem holderWork_sound {l : Lift} {e e' : Ev} (h : e.g.LiftsSound) (work : holderWork l e = some e') :
    e'.g.LiftsSound := by
  unfold holderWork at work
  dsimp only at work
  split at work
  · rename_i ready
    split at work
    · cases work
    · split at work
      · cases work
        exact reorderMove_sound h ready
      · cases work
        exact planStep_sound h ready
      · split at work
        · cases work
          exact h.eased (blockStep_eases l _ e)
        · cases work
          refine h.eased ?_
          simp only [Ev.modG_g]
          exact e.g.modLift_eases l fun _ => by exact .of_duty rfl fun _ => rfl
  · cases work

/-- A tenure given to a READY lift (R123, R124). -/
theorem Garage.LiftsSound.tenure {g : Garage} (h : g.LiftsSound) {l : Lift} (ready : (g.lift l).state = .ready)
    (holder : Holder) : (g.modLift l fun u => { u with tenure := some holder }).LiftsSound := by
  have u := h.lift l
  exact h.modLift l
    { moving := u.moving, timer := u.timer, oneMove := u.oneMove, doubt := u.doubt, pending := u.pending
      stopped := by simp [ready], number := u.number }

theorem grant_sound {l : Lift} {b : Bid} {e : Ev} (h : e.g.LiftsSound) (ready : (e.g.lift l).state = .ready) :
    (grant l b e).g.LiftsSound := by
  unfold grant
  split
  · rename_i n _
    unfold grantPark
    split
    · refine h.eased ?_
      simp only [Ev.modG_g]
      exact e.g.modLift_eases l
    · exact order_eased h ready (.of_lifts (Garage.modTicket_lifts _ _ _))
  · rename_i c _
    have eases : e.g.Eases ((e.g.clearBlock c).modChan c fun ch => { ch with request := none }) := .of_lifts (by simp)
    exact (h.eased eases).tenure ((eases.lift l).state.trans ready) _
  · rename_i p _
    refine goToLane_sound h ready ?_
    simp only [Ev.modG_g]
    exact e.g.modLift_eases l
  · rename_i n _
    have eases := buildPlan_eases l n b.level e
    unfold grantEntry
    dsimp only
    split
    · exact (h.eased eases).tenure ((eases.lift l).state.trans ready) _
    · exact h.eased eases

theorem arbitrate_sound {l : Lift} {e e' : Ev} (h : e.g.LiftsSound) (work : arbitrate l e = some e') :
    e'.g.LiftsSound := by
  unfold arbitrate at work
  dsimp only at work
  split at work
  · rename_i free
    obtain ⟨b, -, rfl⟩ := Option.map_eq_some_iff.mp work
    exact grant_sound h free.1
  · cases work

theorem nextWork_sound {fuel : Nat} {e e' : Ev} (h : e.g.LiftsSound) (work : nextWork fuel e = some e') :
    e'.g.LiftsSound := by
  unfold nextWork at work
  dsimp only at work
  split at work
  · rename_i held
    cases work
    rcases eitherFirst_cases held with w | w <;> exact holderWork_sound h w
  · split at work
    · rename_i done
      cases work
      rcases eitherFirst_cases done with w | w <;> exact h.eased (.of_lifts (channelDone_lifts w))
    · rcases eitherFirst_cases work with w | w <;> exact arbitrate_sound h w

/-- The work an event sets off keeps both lifts sound, by induction on how much of it is done. -/
theorem settleWith_sound (fuel : Nat) {e : Ev} (h : e.g.LiftsSound) : (settleWith fuel e).g.LiftsSound := by
  induction fuel generalizing e with
  | zero => exact h
  | succ fuel ih =>
    have determined : (e.modG Garage.determine).g.LiftsSound := h.eased (.of_lifts e.g.determine_lifts)
    unfold settleWith
    dsimp only
    split
    · rename_i work
      exact ih (nextWork_sound determined work)
    · exact determined

theorem settle_sound {e : Ev} (h : e.g.LiftsSound) : (settle e).g.LiftsSound := settleWith_sound _ h

end Sys2Proof.Machine

namespace Sys2Proof.Machine

/-! ### Requests that leave both lift units alone -/

@[simp] theorem closeMapping_lifts (t : Ticket) (e : Ev) : (closeMapping t e).g.lifts = e.g.lifts := by
  unfold closeMapping
  split
  · rfl
  · dsimp only
    split <;> rfl

@[simp] theorem closeTicket_lifts (n : Nat) (t : Ticket) (st : Nat) (k : CloseCause) (e : Ev) :
    (closeTicket n t st k e).g.lifts = e.g.lifts := rfl

@[simp] theorem admitCar_lifts (c : Caller) (n tag : Nat) (cls : CarClass) (prio stay est : Nat)
    (choice : Option (Nat × Nat)) (e : Ev) : (admitCar c n tag cls prio stay est choice e).g.lifts = e.g.lifts := by
  unfold admitCar
  dsimp only
  split
  · simp only [Ev.reply_g, Ev.modG_g]
    split <;> simp
  · rfl

theorem arrive_lifts (c : Caller) (pl : List Byte) (e : Ev) : (arrive c pl e).g.lifts = e.g.lifts := by
  unfold arrive arriveChecked
  dsimp only
  (repeat' split) <;> simp

theorem retrieve_lifts (c : Caller) (pl : List Byte) (e : Ev) : (retrieve c pl e).g.lifts = e.g.lifts := by
  have joined : ∀ n prio hold, (joinQueue c n prio hold e).g.lifts = e.g.lifts := fun _ _ _ => e.g.takeSeq_lifts
  have released : ∀ n prio, (releaseAtLot c n prio e).g.lifts = e.g.lifts := fun n prio => by simp [releaseAtLot]
  unfold retrieve retrieveTicket retrieveRefused
  dsimp only
  (repeat' split) <;> simp [joined, released]

theorem resume_lifts (c : Caller) (pl : List Byte) (e : Ev) : (resume c pl e).g.lifts = e.g.lifts := by
  unfold resume resumeTicket
  dsimp only
  (repeat' split) <;> rfl

theorem rePark_lifts (c : Caller) (pl : List Byte) (e : Ev) : (rePark c pl e).g.lifts = e.g.lifts := by
  have placed : ∀ n stay est choice, (rePlace c n stay est choice e).g.lifts = e.g.lifts := fun n stay est choice => by
    unfold rePlace
    dsimp only
    cases choice with
    | none =>
      split
      · rfl
      · exact releaseRunner_lifts _ _
    | some b =>
      split
      · rfl
      · exact releaseRunner_lifts _ _
  unfold rePark reParkTicket
  dsimp only
  (repeat' split) <;> simp [placed]

theorem keyIn_lifts (c : Caller) (pl : List Byte) (e : Ev) : (keyIn c pl e).g.lifts = e.g.lifts := by
  unfold keyIn keyInHook keyHungTied keyReturned keyMishung keyUnexpected
  dsimp only
  (repeat' split) <;> rfl

theorem keyOut_lifts (c : Caller) (pl : List Byte) (e : Ev) : (keyOut c pl e).g.lifts = e.g.lifts := by
  unfold keyOut keyOutHook keyUnexpected
  dsimp only
  (repeat' split) <;> rfl

theorem runnerOn_lifts (c : Caller) (pl : List Byte) (e : Ev) : (runnerOn c pl e).g.lifts = e.g.lifts := by
  unfold runnerOn runnerOnFor
  dsimp only
  (repeat' split) <;> simp

theorem runnerOff_lifts (c : Caller) (pl : List Byte) (e : Ev) : (runnerOff c pl e).g.lifts = e.g.lifts := by
  unfold runnerOff runnerOffFor secondRunnerOff
  dsimp only
  (repeat' split) <;> first | rfl | exact giveRunner_lifts _ _

theorem bayService_lifts (c : Caller) (pl : List Byte) (e : Ev) : (bayService c pl e).g.lifts = e.g.lifts := by
  unfold bayService bayIn bayServiceReply
  dsimp only
  (repeat' split) <;> first | rfl | simp

theorem hookService_lifts (c : Caller) (pl : List Byte) (e : Ev) : (hookService c pl e).g.lifts = e.g.lifts := by
  unfold hookService turnHook
  (repeat' split) <;> rfl

theorem loadMembers_lifts (c : Chan) (ns : List Nat) (gr : Garage × LoadResult) :
    (ns.foldl (fun gr n => loadMember c n gr) gr).1.lifts = gr.1.lifts := by
  induction ns generalizing gr with
  | nil => rfl
  | cons n rest ih =>
    rw [List.foldl_cons, ih]
    unfold loadMember
    dsimp only
    (repeat' split) <;> simp [Garage.acceptMember]

theorem convoyLoad_lifts (c : Caller) (pl : List Byte) (e : Ev) : (convoyLoad c pl e).g.lifts = e.g.lifts := by
  unfold convoyLoad convoyLoadFor
  dsimp only
  (repeat' split) <;> simp [loadMembers_lifts]

theorem convoyStart_lifts (c : Caller) (pl : List Byte) (e : Ev) : (convoyStart c pl e).g.lifts = e.g.lifts := by
  unfold convoyStart
  dsimp only
  (repeat' split) <;> simp

theorem setLimits_lifts (c : Caller) (pl : List Byte) (e : Ev) : (setLimits c pl e).g.lifts = e.g.lifts := by
  unfold setLimits
  split <;> rfl

theorem setClock_lifts (c : Caller) (pl : List Byte) (e : Ev) : (setClock c pl e).g.lifts = e.g.lifts := by
  show (e.g.setClock (flag8 pl 0) (u32 pl 1)).lifts = _
  unfold Garage.setClock
  split <;> rfl

theorem setMeasure_lifts (c : Caller) (pl : List Byte) (e : Ev) : (setMeasure c pl e).g.lifts = e.g.lifts := by
  unfold setMeasure
  split <;> rfl

theorem loadCabinet_lifts (c : Caller) (pl : List Byte) (e : Ev) : (loadCabinet c pl e).g.lifts = e.g.lifts := by
  unfold loadCabinet
  split <;> rfl

theorem leaveService_lifts (c : Caller) (pl : List Byte) (e : Ev) : (leaveService c pl e).g.lifts = e.g.lifts := by
  unfold leaveService
  split <;> rfl

theorem enterService_lifts (stations : List Station) (c : Caller) (e : Ev) :
    (enterService stations c e).g.lifts = e.g.lifts := by
  unfold enterService
  split <;> rfl

theorem loadReply_lifts {α : Type} (c : Caller) (kind : Byte) (pl : List Byte) (r : Except (Result × Nat) α)
    (apply : α → Garage → Garage) (e : Ev) (h : ∀ a, (apply a e.g).lifts = e.g.lifts) :
    (loadReply c kind pl r apply e).g.lifts = e.g.lifts := by
  unfold loadReply
  split
  · rfl
  · exact h _

/-! ### Requests that ease the lift units at most -/

theorem Garage.giveUp_eases (g : Garage) (n : Nat) : g.Eases (g.giveUp n) := by
  unfold Garage.giveUp Garage.endPlanOf
  split
  · exact .of_lifts rfl
  · split
    · exact (g.endPlan_eases _ _).trans (.of_lifts rfl)
    · split
      · exact (g.endPlan_eases _ _).trans (.of_lifts rfl)
      · exact .of_lifts rfl

theorem LiftUnit.withdraw_eases (u : LiftUnit) (n : Nat) : u.Eases (u.withdraw n) := by
  unfold LiftUnit.withdraw
  split
  · exact .of_duty rfl fun t => by simp [t]
  · exact .refl u

theorem cancel_eases (c : Caller) (pl : List Byte) (e : Ev) : e.g.Eases (cancel c pl e).g := by
  have closed : ∀ n t, e.g.Eases (cancelAllocated c n t e).g := fun n t => by
    unfold cancelAllocated
    refine Garage.Eases.trans ?_ (.of_lifts ((closeTicket_lifts _ _ _ _ _).trans (closeMapping_lifts _ _)))
    refine Garage.Eases.trans (y := match t.bay with | some b => e.g.release b n | none => e.g) (.of_lifts ?_)
      ⟨LiftUnit.withdraw_eases _ n, LiftUnit.withdraw_eases _ n⟩
    split <;> simp
  unfold cancel cancelTicket
  dsimp only
  split
  · exact .refl _
  · split
    · exact .refl _
    · split
      · exact closed _ _
      · exact .of_lifts rfl
      · exact .of_lifts rfl
      · exact e.g.giveUp_eases _
      · exact .refl _

theorem Garage.leaveLane_eases (g : Garage) (l : Lift) (n : Nat) : g.Eases (g.leaveLane l n) := by
  unfold Garage.leaveLane
  exact g.modLift_eases l

theorem handover_eases (c : Caller) (pl : List Byte) (e : Ev) : e.g.Eases (handover c pl e).g := by
  have left : ∀ n (t : Ticket), e.g.Eases (e.g.leaveReady n t) := fun n t => by
    unfold Garage.leaveReady
    dsimp only
    split
    · exact (e.g.leaveLane_eases _ n).trans (.of_lifts rfl)
    · exact .of_lifts rfl
  have given : ∀ n t, e.g.Eases (handOver c n t e).g := fun n t => by
    unfold handOver
    refine Garage.Eases.trans ?_ (.of_lifts
      ((closeTicket_lifts _ _ _ _ _).trans ((closeMapping_lifts _ _).trans (releaseRunner_lifts _ _))))
    simp only [Ev.modG_g]
    split
    · exact left n t
    · exact .refl _
  unfold handover handoverTicket
  (repeat' split) <;> first | exact given _ _ | exact .refl _

theorem pickup_eases (c : Caller) (pl : List Byte) (e : Ev) : e.g.Eases (pickup c pl e).g := by
  have taken : ∀ r n (t : Ticket), e.g.Eases (e.g.pickedUp r n t) := fun r n t => by
    unfold Garage.pickedUp
    refine Garage.Eases.trans ?_ (.of_lifts (Garage.modRunner_lifts _ _ _))
    split
    · refine Garage.Eases.trans ?_ (Garage.leaveLane_eases _ _ _)
      exact .of_lifts rfl
    · exact .of_lifts rfl
  unfold pickup pickupTicket pickupMismatch
  dsimp only
  (repeat' split) <;> first | exact taken _ _ _ | exact .refl _

theorem carPresent_eases (l : Lift) (pl : List Byte) (e : Ev) : e.g.Eases (carPresent l pl e).g := by
  have present : ∀ (g : Garage) tag n, g.Eases (g.present l tag n) := fun g tag n => by
    unfold Garage.present
    exact g.modLift_eases l
  have moved : ∀ n (t : Ticket) b, (e.g.reallocate l n t b).lifts = e.g.lifts := fun n t b => by
    unfold Garage.reallocate
    dsimp only
    split <;> simp
  unfold carPresent presentCar hallNotExpected
  dsimp only
  (repeat' split) <;>
    first | exact present _ _ _ | exact Garage.Eases.trans (.of_lifts (moved _ _ _)) (present _ _ _) | exact .refl _

theorem liftReport_eases (c : Caller) (pl : List Byte) (e : Ev) : e.g.Eases (liftReport c pl e).g := by
  unfold liftReport
  split
  · exact .refl _
  · simp only [Ev.modG_g, Ev.reply_g]
    split
    · exact e.g.modLift_eases _
    · exact .refl _

theorem setLanes_eases (c : Caller) (pl : List Byte) (e : Ev) : e.g.Eases (setLanes c pl e).g :=
  ⟨.of_same rfl rfl, .of_same rfl rfl⟩

theorem passTenure_eases (c : Chan) (u : LiftUnit) : u.Eases (passTenure c u) := by
  unfold passTenure
  split
  · rename_i held
    exact .of_duty rfl fun t => by simp [t] at held
  · exact .refl u

theorem Garage.stopConvoy_eases (g : Garage) (c : Chan) : g.Eases (g.stopConvoy c) := by
  have all : ∀ (ns : List Nat) (k : Garage), k.Eases (ns.foldl Garage.convert k) := fun ns => by
    induction ns with
    | nil => exact .refl
    | cons n rest ih =>
      intro k
      refine Garage.Eases.trans ?_ (ih _)
      unfold Garage.convert
      dsimp only
      split
      · exact .of_lifts rfl
      · refine Garage.Eases.trans ?_ (Garage.giveUp_eases _ n)
        exact .of_lifts rfl
  unfold Garage.stopConvoy
  refine Garage.Eases.trans ?_ (.of_lifts (((Garage.letRun_lifts _ _).trans (Garage.modChan_lifts _ c _)).trans
    (Garage.clearBlock_lifts _ c)))
  refine Garage.Eases.trans ((Garage.Eases.of_lifts (Garage.foldl_lifts _ Garage.becomeParked_lifts _ g)).trans (all _ _))
    ⟨passTenure_eases c _, passTenure_eases c _⟩

theorem convoyStop_eases (c : Caller) (pl : List Byte) (e : Ev) : e.g.Eases (convoyStop c pl e).g := by
  unfold convoyStop
  (repeat' split) <;> first | exact e.g.stopConvoy_eases _ | exact .refl _

end Sys2Proof.Machine

namespace Sys2Proof.Machine

/-! ### Reports and requests that change what a lift does (R120 to R122, R136 to R142) -/

theorem LiftUnit.inFlight_of_match {u : LiftUnit} {n : Nat} {m : Move} (h : u.matchReport n = .inFlight m) :
    u.inFlight = some m := by
  unfold LiftUnit.matchReport at h
  split at h
  · rename_i numbered
    cases h
    unfold Sys2Proof.Machine.numbered at numbered
    split at numbered
    · rename_i fly
      split at numbered
      · rw [fly]
        exact numbered
      · cases numbered
    · cases numbered
  · split at h
    · cases h
    · split at h <;> cases h

section
variable {e : Ev} (h : e.g.LiftsSound)
include h

/-- R121: a readiness report leaves a lift OFFLINE, NOT_READY or READY in one of the last two states, any other as it is. -/
theorem liftStatus_sound (l : Lift) (pl : List Byte) : (liftStatus l pl e).g.LiftsSound := by
  have u := h.lift l
  unfold liftStatus
  simp only [Ev.modG_g]
  refine h.modLift l ?_
  rw [LiftUnit.reported_eq]
  by_cases s : (e.g.lift l).state ∈ [LiftState.offline, .notReady, .ready]
  · rw [if_pos s]
    obtain ⟨still, working, inService⟩ : (e.g.lift l).state ≠ .moving ∧ (e.g.lift l).state ≠ .faulted ∧
        (e.g.lift l).state ≠ .out := by
      cases hs : (e.g.lift l).state <;> simp [hs] at s ⊢
    obtain ⟨fly, timer, off⟩ := u.still still
    have arrived : (e.g.lift l).Arrived := ⟨⟨fly, timer, fun t => by simp [off] at t, u.number⟩, u.resolved working inService⟩
    exact arrived.sound off (by cases u8 pl 0 == 1 <;> simp) rfl
  · rw [if_neg s]
    exact u.eased (.of_same rfl rfl)

theorem moveDone_sound (l : Lift) (pl : List Byte) : (moveDone l pl e).g.LiftsSound := by
  unfold moveDone discardByMatch discardReport
  split
  · rename_i m matched
    exact moveCompleted_sound h (LiftUnit.inFlight_of_match matched)
  · exact placeAtDestination_sound h
  · exact h
  · exact h

theorem moveFault_sound (l : Lift) (pl : List Byte) : (moveFault l pl e).g.LiftsSound := by
  unfold moveFault lateFault discardByMatch discardReport
  dsimp only
  split
  · exact moveFaulted_sound h _
  · split
    · exact placeAtSource_sound h
    · exact placeAtDestination_sound h
    · exact h
  · exact h
  · exact h

theorem moveRefused_sound (l : Lift) (pl : List Byte) : (moveRefused l pl e).g.LiftsSound := by
  unfold moveRefused moveWasRefused discardByMatch discardReport
  split
  · rename_i m matched
    split
    · exact refusedLocation_sound h
    · exact h.refusedNotReady (LiftUnit.inFlight_of_match matched)
  · exact placeAtSource_sound h
  · exact h
  · exact h

end

/-- R122, R126: a lift taken out of service, at the end of its move when it is MOVING. -/
theorem Garage.LiftsSound.serviceOff {g : Garage} (h : g.LiftsSound) (l : Lift) : (g.serviceOff l).LiftsSound := by
  have u := h.lift l
  unfold Garage.serviceOff
  split
  · rename_i moving
    exact h.modLift l
      { moving := u.moving, timer := u.timer, oneMove := u.oneMove, pending := fun _ => ⟨moving, rfl⟩
        doubt := fun t => (u.doubt t).imp id fun s => ⟨s.1, rfl⟩, stopped := u.stopped, number := u.number }
  · rename_i out
    obtain ⟨fly, timer, off⟩ := u.still (by simp [out])
    exact h.modLift l
      (.at_rest (by simp [out]) fly timer off (fun _ => .inr ⟨out, rfl⟩) (fun _ => u.stopped (by simp [out])) u.number)
  · rename_i still _
    obtain ⟨fly, timer, off⟩ := u.still still
    refine Garage.stopIdleLift_sound (fun k => ?_) ?_ (h.lift _)
    · exact ⟨k.state, rfl, k.offPending, k.inFlight, k.unresolved, k.number, k.timer, k.tenure⟩
    · exact .at_rest (by simp) fly timer off (fun _ => .inr ⟨rfl, rfl⟩) (fun _ => rfl) u.number

/-- R122: a lift put back into service, with no unresolved move when it is FAULTED or OUT. -/
theorem LiftUnit.Sound.serviceIn {u : LiftUnit} (h : u.Sound) (heard : Bool) (clear : u.mustResolve = false) :
    (u.serviceIn heard).Sound := by
  have back : u.state = .faulted ∨ u.state = .out →
      ({ u with serviceOn := true, state := if heard then .notReady else .offline } : LiftUnit).Sound := fun stopped => by
    obtain ⟨fly, timer, off⟩ := h.still (by rcases stopped with s | s <;> simp [s])
    have resolved : u.unresolved = none := by
      unfold LiftUnit.mustResolve at clear
      rcases stopped with s | s <;> simpa [s] using clear
    refine .at_rest ?_ fly timer off (fun t => by simp [resolved] at t)
      (fun _ => h.stopped (by rcases stopped with s | s <;> simp [s])) h.number
    cases heard <;> simp
  unfold LiftUnit.serviceIn
  split
  · rename_i s
    exact back (.inl s)
  · rename_i s
    exact back (.inr s)
  · rename_i moving
    have resolved := h.resolved (by simp [moving]) (by simp [moving])
    exact
      { moving := h.moving, timer := h.timer, oneMove := h.oneMove, pending := fun t => (nomatch t)
        doubt := fun t => by simp [resolved] at t, stopped := h.stopped, number := h.number }
  · rename_i hf ho hm
    obtain ⟨fly, timer, off⟩ := h.still hm
    have resolved := h.resolved hf ho
    exact .at_rest hm fly timer off (fun t => by simp [resolved] at t) h.stopped h.number

theorem liftService_sound (heard : Lift → Bool) (c : Caller) (pl : List Byte) {e : Ev} (h : e.g.LiftsSound) :
    (liftService heard c pl e).g.LiftsSound := by
  unfold liftService liftServiceReply
  split
  · exact h
  · exact h
  · exact h.serviceOff _
  · split
    · exact h
    · rename_i clear
      refine Garage.LiftsSound.modLift h _ (f := fun u => u.serviceIn (heard _)) ?_
      exact (h.lift _).serviceIn _ (by simpa using clear)

theorem liftResolve_sound (c : Caller) (pl : List Byte) {e : Ev} (h : e.g.LiftsSound) :
    (liftResolve c pl e).g.LiftsSound := by
  unfold liftResolve resolveAt
  split
  · exact h
  · split
    · exact h
    · split
      · exact h
      · dsimp only
        split
        · exact placeAtDestination_sound (e := e.reply _ _ _ _) h
        · exact placeAtSource_sound (e := e.reply _ _ _ _) h

/-! ### Starts, time, and the stations of the lifts (R46, R120, R144, R176, R179, R181) -/

/-- R120 ❷ to ❹, R126: a lift that is lost. -/
theorem Garage.LiftsSound.loseLift {g : Garage} (h : g.LiftsSound) (l : Lift) : (g.loseLift l).LiftsSound := by
  have u := h.lift l
  by_cases idle : (g.lift l).state = .ready ∨ (g.lift l).state = .notReady
  · rw [Garage.loseLift_idle idle]
    obtain ⟨fly, timer, off⟩ := u.still (by rcases idle with s | s <;> simp [s])
    have resolved := u.resolved (by rcases idle with s | s <;> simp [s]) (by rcases idle with s | s <;> simp [s])
    refine Garage.LiftsSound.eased (h.modLift l ?_) (g.stopIdleLift_eases l .offline)
    exact .at_rest (by simp) fly timer off (fun t => by simp [resolved] at t) (fun _ => rfl) u.number
  · rw [Garage.loseLift_stays (fun s => idle (.inl s)) fun s => idle (.inr s)]
    exact h

/-- R144: a warm start leaves a lift FAULTED with the move that was in flight or in doubt, OUT, or OFFLINE. -/
theorem LiftUnit.Sound.warm {u : LiftUnit} (h : u.Sound) (park : Option (Nat × Nat)) (slots : Nat) :
    ({ u.warm with parkRequest := park, reserved := slots } : LiftUnit).Sound := by
  refine .at_rest ?_ rfl rfl rfl ?_ (fun _ => rfl) h.number
  · show u.warmState ≠ .moving
    unfold LiftUnit.warmState
    (repeat' split) <;> simp
  · show (if u.inFlight.isSome then u.inFlight else u.unresolved).isSome = true →
      u.warmState = .faulted ∨ (u.warmState = .out ∧ u.serviceOn = false)
    intro t
    unfold LiftUnit.warmState
    by_cases fly : u.inFlight.isSome = true
    · exact .inl (if_pos fly)
    · rw [if_neg fly] at t ⊢
      rcases h.doubt t with s | ⟨s, off⟩
      · exact .inl (if_pos ⟨s, t⟩)
      · simp [s, off]

theorem Garage.LiftsSound.warm {g : Garage} (h : g.LiftsSound) : g.warm.LiftsSound := by
  rw [Garage.warm_eq]
  exact ⟨h.a.warm _ _, h.b.warm _ _⟩

theorem LiftUnit.tick_eases (u : LiftUnit) (measuring : Bool) : u.Eases (u.tick measuring) :=
  ⟨rfl, rfl, rfl, rfl, rfl, rfl, fun t => by simpa [LiftUnit.tick, tickTimer] using t, id⟩

theorem expires_sound (d : Due) {e : Ev} (h : e.g.LiftsSound) : (expires d e).g.LiftsSound := by
  cases d with
  | move l =>
    show (moveExpires l e).g.LiftsSound
    unfold moveExpires
    split
    · exact settle_sound (moveTimedOut_sound h)
    · refine h.eased ?_
      simp only [Ev.modG_g]
      exact e.g.modLift_eases l fun _ => by exact ⟨rfl, rfl, rfl, rfl, rfl, rfl, fun t => (nomatch t), id⟩
  | pickup r => exact h.eased (.of_lifts rfl)
  | hold n => exact h.eased (.of_lifts rfl)

/-- R181: the timer of the move in flight starts. -/
theorem Garage.LiftsSound.startMoveTimer {g : Garage} (h : g.LiftsSound) (l : Lift) (n : Nat) :
    (g.startMoveTimer l n).LiftsSound := by
  have u := h.lift l
  refine h.modLift l ?_
  split
  · rename_i fly
    have inFlight : (g.lift l).inFlight.isSome = true := by
      cases hf : (g.lift l).inFlight with
      | none => simp [hf] at fly
      | some m => rfl
    exact { u with timer := fun _ => inFlight }
  · exact u

/-- R120 ❶ ❸: the station of a lift has answered. -/
theorem LiftUnit.Sound.answered {u : LiftUnit} (h : u.Sound) (back accepted : Bool) : (u.answered back accepted).Sound := by
  unfold LiftUnit.answered
  split
  · rename_i offline
    split
    · obtain ⟨fly, timer, off⟩ := h.still (by simp [offline])
      have resolved := h.resolved (by simp [offline]) (by simp [offline])
      exact .at_rest (by simp) fly timer off (fun t => by simp [resolved] at t) (fun t => by simp at t) h.number
    · exact h
  · split
    · exact h.eased (.of_same rfl rfl)
    · exact h

/-! ### Every kind of frame -/

/-- A body that keeps both lifts sound. -/
def BodySound (b : Body) : Prop := ∀ c pl (s : State), s.garage.LiftsSound → (b c pl s).garage.LiftsSound

theorem evBody_sound {f : Caller → List Byte → Ev → Ev}
    (hf : ∀ c pl {e : Ev}, e.g.LiftsSound → (f c pl e).g.LiftsSound) : BodySound (evBody f) :=
  fun c pl _ h => hf c pl h

theorem workBody_sound {f : Caller → List Byte → Ev → Ev}
    (hf : ∀ c pl {e : Ev}, e.g.LiftsSound → (f c pl e).g.LiftsSound) : BodySound (workBody f) :=
  fun c pl _ h => settle_sound (hf c pl h)

theorem evBody_sound_of_lifts {f : Caller → List Byte → Ev → Ev} (hf : ∀ c pl e, (f c pl e).g.lifts = e.g.lifts) :
    BodySound (evBody f) :=
  evBody_sound fun c pl e h => h.eased (.of_lifts (hf c pl e))

theorem workBody_sound_of_lifts {f : Caller → List Byte → Ev → Ev} (hf : ∀ c pl e, (f c pl e).g.lifts = e.g.lifts) :
    BodySound (workBody f) :=
  workBody_sound fun c pl e h => h.eased (.of_lifts (hf c pl e))

theorem workBody_sound_of_eases {f : Caller → List Byte → Ev → Ev} (hf : ∀ c pl (e : Ev), e.g.Eases (f c pl e).g) :
    BodySound (workBody f) :=
  workBody_sound fun c pl e h => h.eased (hf c pl e)

theorem liftBody_sound {f : Lift → List Byte → Ev → Ev}
    (hf : ∀ {e : Ev}, e.g.LiftsSound → ∀ l pl, (f l pl e).g.LiftsSound) : BodySound (liftBody f) :=
  workBody_sound fun c pl e h => by
    split
    · exact hf h _ pl
    · exact h

/-- A request that manages no line keeps both lifts sound. -/
theorem bodyOf_sound {kind : Byte} (hk : kind ∉ lineKinds) : BodySound (bodyOf kind) := by
  have line : ∀ k ∈ lineKinds, kind.toNat = k.toNat → False := fun k hm e => hk (BitVec.eq_of_toNat_eq e ▸ hm)
  unfold bodyOf
  split
  case h_1 => exact workBody_sound_of_lifts arrive_lifts
  case h_2 => exact workBody_sound_of_lifts retrieve_lifts
  case h_3 => exact workBody_sound_of_lifts resume_lifts
  case h_4 => exact workBody_sound_of_eases cancel_eases
  case h_5 => exact workBody_sound_of_eases handover_eases
  case h_6 => exact workBody_sound_of_lifts rePark_lifts
  case h_7 => exact evBody_sound_of_lifts fun c pl e => congrArg _ (queryTicket_g c pl e)
  case h_8 => exact evBody_sound_of_lifts keyIn_lifts
  case h_9 => exact evBody_sound_of_lifts keyOut_lifts
  case h_10 => exact evBody_sound_of_lifts runnerOn_lifts
  case h_11 => exact evBody_sound_of_lifts runnerOff_lifts
  case h_12 => exact workBody_sound_of_eases pickup_eases
  case h_13 => exact liftBody_sound liftStatus_sound
  case h_14 => exact liftBody_sound fun h l pl => h.eased (carPresent_eases l pl _)
  case h_15 => exact liftBody_sound moveDone_sound
  case h_16 => exact liftBody_sound moveFault_sound
  case h_17 => exact liftBody_sound moveRefused_sound
  case h_18 e => exact (line Kind.setLine (by decide) e).elim
  case h_19 e => exact (line Kind.loadStations (by decide) e).elim
  case h_20 e => exact (line Kind.loadPass (by decide) e).elim
  case h_21 e => exact (line Kind.status (by decide) e).elim
  case h_22 e => exact (line Kind.statusClear (by decide) e).elim
  case h_23 e => exact (line Kind.restart (by decide) e).elim
  case h_24 => exact evBody_sound_of_lifts fun c pl e => loadReply_lifts c _ pl _ _ e fun _ => rfl
  case h_25 => exact evBody_sound_of_lifts fun c pl e => loadReply_lifts c _ pl _ _ e fun _ => rfl
  case h_26 => exact evBody_sound_of_lifts fun c pl e => loadReply_lifts c _ pl _ _ e fun _ => rfl
  case h_27 => exact evBody_sound fun c pl e h => h.eased (setLanes_eases c pl e)
  case h_28 => exact evBody_sound_of_lifts loadCabinet_lifts
  case h_29 => exact fun c _ s h => h.eased (.of_lifts (enterService_lifts s.line.g.stations c ⟨s.garage, []⟩))
  case h_30 => exact evBody_sound_of_lifts leaveService_lifts
  case h_31 => exact workBody_sound_of_lifts bayService_lifts
  case h_32 => exact evBody_sound_of_lifts fun c pl e => congrArg _ (queryBay_g c pl e)
  case h_33 => exact evBody_sound_of_lifts hookService_lifts
  case h_34 => exact evBody_sound_of_lifts fun _ _ _ => rfl
  case h_35 => exact evBody_sound_of_lifts setLimits_lifts
  case h_36 => exact workBody_sound_of_lifts fun _ _ _ => rfl
  case h_37 => exact evBody_sound_of_lifts fun _ _ _ => rfl
  case h_38 => exact evBody_sound_of_lifts setClock_lifts
  case h_39 => exact evBody_sound_of_lifts setMeasure_lifts
  case h_40 => exact fun c pl s h => settle_sound (liftService_sound s.line.hears c pl (e := ⟨s.garage, []⟩) h)
  case h_41 => exact workBody_sound liftResolve_sound
  case h_42 => exact evBody_sound fun c pl e h => h.eased (liftReport_eases c pl e)
  case h_43 => exact workBody_sound_of_lifts convoyLoad_lifts
  case h_44 => exact workBody_sound_of_lifts convoyStart_lifts
  case h_45 => exact workBody_sound_of_eases convoyStop_eases
  case h_46 => exact evBody_sound_of_lifts fun c pl e => congrArg _ (convoyQuery_g c pl e)
  case h_47 => exact evBody_sound fun _ _ _ sound => sound

theorem Garage.liftsSound_invariant : GarageInvariant Garage.LiftsSound where
  cold := ⟨.reset, .reset⟩
  warm _ h := h.warm
  tick g h := h.eased ⟨g.liftA.tick_eases _, g.liftB.tick_eases _⟩
  expiry d _ h := expires_sound d h
  timer _ l n h := h.startMoveTimer l n
  answered _ l back accepted h := h.modLift l ((h.lift l).answered back accepted)
  lost _ l h := h.loseLift l
  settled _ h := settle_sound h
  request _ hk := bodyOf_sound hk

/-- Settles O8: the soundness of both lift units is an invariant of the blocks behind the ports. -/
theorem liftsStaySound : Obligations.LiftsStaySound :=
  fun _ _ h ht => step_garageKeeps Garage.liftsSound_invariant h ht

end Sys2Proof.Machine

namespace Sys2Proof.Machine

/-! ### Reports that match no move in flight (R136) -/

theorem numbered_none {o : Option Move} {n : Nat} : numbered o n = none ↔ ∀ m, o = some m → m.number ≠ n := by
  unfold numbered
  cases o <;> simp

theorem LiftUnit.matchReport_unresolved {u : LiftUnit} {m : Move} {n : Nat} (clear : ∀ m, u.inFlight = some m → m.number ≠ n)
    (h : u.unresolved = some m) (hn : m.number = n) : u.matchReport n = .unresolved m := by
  unfold LiftUnit.matchReport
  rw [numbered_none.mpr clear, h]
  unfold numbered
  dsimp only
  rw [if_pos hn]

theorem LiftUnit.matchReport_none {u : LiftUnit} {n : Nat} (clear : ∀ m, u.inFlight = some m → m.number ≠ n)
    (h : ∀ m, u.unresolved = some m → m.number ≠ n) :
    u.matchReport n = if u.lastResolved = some n then .late else .mismatch := by
  unfold LiftUnit.matchReport
  rw [numbered_none.mpr clear, numbered_none.mpr h]

/-- A report whose number is that of no move in flight comes to what it does to the unresolved move, or to its alert. -/
theorem NotesG.of_late {s : State} {st : Station} {l : Lift} {kind flags : Byte} {pl : List Byte}
    {f : Lift → List Byte → Ev → Ev} (ask : ReportedBy s st l) (hp : permits (liftRole l) kind = true) (hg : Passes s kind pl)
    (clear : ∀ m, ((s.garage.heardLift l st).lift l).inFlight = some m → m.number ≠ u8 pl 0) {placed : Move → Garage}
    (resolves : ∀ m, ((s.garage.heardLift l st).lift l).matchReport (u8 pl 0) = .unresolved m →
      (f l pl ⟨s.garage.heardLift l st, []⟩).g = placed m)
    (discards : ∀ late : Bool, ((s.garage.heardLift l st).lift l).matchReport (u8 pl 0) = (if late then .late else .mismatch) →
      f l pl ⟨s.garage.heardLift l st, []⟩ = discardByMatch l kind (u8 pl 0) late ⟨s.garage.heardLift l st, []⟩) :
    let u := (s.garage.heardLift l st).lift l
    let o := s.frame .g kind flags pl (liftBody f)
    (∀ m, u.unresolved = some m → m.number = u8 pl 0 → NotesG o s st (placed m) []) ∧
      ((∀ m, u.unresolved = some m → m.number ≠ u8 pl 0) →
        NotesG o s st (s.garage.heardLift l st) [(if u.lastResolved = some (u8 pl 0) then 11 else 10,
          w8 (liftCode l) ++ w8 (u8 pl 0) ++ [kind])]) := by
  refine ⟨fun m hu hn => ?_, fun other => ?_⟩
  · exact NotesG.of_lift ask hp hg (resolves m (LiftUnit.matchReport_unresolved clear hu hn)) fun _ ha => nomatch ha
  · have seconds : (s.garage.heardLift l st).seconds = s.garage.seconds := s.garage.modLift_seconds l _
    have event : ∀ late : Bool, ((s.garage.heardLift l st).lift l).matchReport (u8 pl 0) = (if late then .late else .mismatch) →
        NotesG (s.frame .g kind flags pl (liftBody f)) s st (s.garage.heardLift l st)
          [(if late then 11 else 10, w8 (liftCode l) ++ w8 (u8 pl 0) ++ [kind])] := fun late h => by
      refine NotesG.of_lift ask hp hg (by rw [discards late h]; rfl) fun a ha => ?_
      rw [discards late h, List.mem_singleton.mp ha, ← seconds]
      cases late <;> exact List.mem_singleton.mpr rfl
    have none := LiftUnit.matchReport_none clear other
    by_cases last : ((s.garage.heardLift l st).lift l).lastResolved = some (u8 pl 0)
    · rw [if_pos last] at none ⊢
      exact event true none
    · rw [if_neg last] at none ⊢
      exact event false none

/-- Settles O34: each of the three reports by what it matches. -/
theorem lateReports : Obligations.LateReports := by
  intro s st l flags pl ask g number position clear matched
  refine ⟨fun hl => ?_, fun hl code => ?_, fun hl code => ?_⟩
  · refine NotesG.of_late (f := moveDone) ask (by cases l <;> decide)
      (.of_both hl (by decide) rfl rfl (by decide) (by decide)) clear (fun m h => ?_) fun late h => ?_
    · unfold moveDone
      rw [h]
    · unfold moveDone
      rw [h]
      cases late <;> rfl
  · refine NotesG.of_late (f := moveFault) ask (by cases l <;> decide) (.of_report hl (.inl ⟨rfl, rfl⟩) code) clear
      (fun m h => ?_) fun late h => ?_
    · unfold moveFault
      dsimp only
      rw [h]
      have coded : position = 0 ∨ position = 1 ∨ position = 2 := by omega
      rcases coded with p | p | p <;> rw [show u8 pl 1 = _ from p, p] <;> rfl
    · unfold moveFault
      dsimp only
      rw [h]
      cases late <;> rfl
  · refine NotesG.of_late (f := moveRefused) ask (by cases l <;> decide) (.of_report hl (.inr ⟨rfl, rfl⟩) code) clear
      (fun m h => ?_) fun late h => ?_
    · unfold moveRefused
      rw [h]
    · unfold moveRefused
      rw [h]
      cases late <;> rfl

end Sys2Proof.Machine

namespace Sys2Proof.Machine

/-! ### LIFT_SERVICE (R122, R126) -/

/-- R122: whether a lift's station is heard is judged as Port G stands when the request comes. -/
theorem AskedBy.liftService_hears {s : State} {st : Station} (ask : AskedBy s st .office) (flags : Byte) {pl : List Byte}
    (hg : Passes s Kind.liftService pl) :
    exec (.liftService .s flags pl) s = s.frame .s Kind.liftService flags pl (workBody (liftService s.line.hears)) := by
  have port : (s.heard .s st true).line.g = { s.line.g with ownQueue := (s.heard .s st true).line.g.ownQueue } :=
    s.heard_port st .g
  have hears : (s.heard .s st true).line.hears = s.line.hears := by
    funext l
    unfold Line.hears
    rw [port]
  refine (ask.office_body (by decide) hg).trans (Eq.trans ?_ (ask.office_body (by decide) hg).symm)
  unfold liftServiceBody workBody
  rw [hears]

theorem Line.hears_iff (ln : Line) (l : Lift) : ln.hears l = true ↔
    ln.g.mode ≠ .disabled ∧ ∃ x ∈ ln.g.stations, x.role = liftRole l ∧ x.poll = .active := by
  unfold Line.hears
  simp

theorem liftCode_of_le {n : Nat} (h : n ≤ 1) : ∃ l, n = liftCode l := by
  rcases Nat.le_one_iff_eq_zero_or_eq_one.mp h with rfl | rfl
  · exact ⟨.a, rfl⟩
  · exact ⟨.b, rfl⟩

section
variable {heard : Lift → Bool} {c : Caller} {pl : List Byte} {e : Ev} {l : Lift}

theorem liftService_noLift (h : 1 < u8 pl 0) : liftService heard c pl e = e.badRequest c Kind.liftService 0 := by
  unfold liftService
  rw [liftOf_none h]

theorem liftService_noDirection (hl : u8 pl 0 = liftCode l) (hd : 1 < u8 pl 1) :
    liftService heard c pl e = e.badRequest c Kind.liftService 1 := by
  unfold liftService
  rw [liftOf_code hl, directionOf_none hd]

theorem liftService_off (hl : u8 pl 0 = liftCode l) (hd : u8 pl 1 = 0) :
    liftService heard c pl e = liftServiceReply c l .taken (e.modG fun g => g.serviceOff l) := by
  unfold liftService
  rw [liftOf_code hl, hd]
  rfl

theorem liftService_on (hl : u8 pl 0 = liftCode l) (hd : u8 pl 1 = 1) :
    liftService heard c pl e = if (e.g.lift l).mustResolve then liftServiceReply c l .notApplicable e
      else liftServiceReply c l .taken (e.modG fun g => g.modLift l fun u => u.serviceIn (heard l)) := by
  unfold liftService
  rw [liftOf_code hl, hd]
  rfl

theorem liftResolve_noLift (h : 1 < u8 pl 0) : liftResolve c pl e = e.badRequest c Kind.liftResolve 0 := by
  unfold liftResolve
  rw [liftOf_none h]

theorem liftResolve_noPosition (hl : u8 pl 0 = liftCode l) (hd : 1 < u8 pl 1) :
    liftResolve c pl e = e.badRequest c Kind.liftResolve 1 := by
  unfold liftResolve
  rw [liftOf_code hl]
  exact if_pos hd

theorem liftResolve_lift (hl : u8 pl 0 = liftCode l) (hd : u8 pl 1 ≤ 1) : liftResolve c pl e =
    match (e.g.lift l).unresolved with
    | none => e.reply c Kind.liftResolve .notApplicable []
    | some m => resolveAt c l m (u8 pl 1 == 1) e := by
  unfold liftResolve
  rw [liftOf_code hl]
  exact if_neg (by omega)

end

section
variable {g : Garage} {l : Lift}

theorem Garage.serviceOff_moving (h : (g.lift l).state = .moving) :
    g.serviceOff l = g.modLift l fun u => { u with serviceOn := false, offPending := true } := by
  unfold Garage.serviceOff
  rw [h]

theorem Garage.serviceOff_out (h : (g.lift l).state = .out) :
    g.serviceOff l = g.modLift l fun u => { u with serviceOn := false } := by
  unfold Garage.serviceOff
  rw [h]

theorem Garage.serviceOff_idle (moving : (g.lift l).state ≠ .moving) (out : (g.lift l).state ≠ .out) :
    g.serviceOff l = (g.stopIdleLift l .out).modLift l fun u => { u with serviceOn := false } := by
  unfold Garage.serviceOff
  split
  · rename_i h
    exact absurd h moving
  · rename_i h
    exact absurd h out
  · rfl

theorem LiftUnit.mustResolve_iff (u : LiftUnit) :
    u.mustResolve = true ↔ (u.state = .faulted ∨ u.state = .out) ∧ u.unresolved ≠ none := by
  unfold LiftUnit.mustResolve
  simp [Option.isSome_iff_ne_none]

theorem LiftUnit.serviceIn_stopped {u : LiftUnit} (h : u.state = .faulted ∨ u.state = .out) (heard : Bool) :
    u.serviceIn heard = { u with serviceOn := true, state := if heard then .notReady else .offline } := by
  unfold LiftUnit.serviceIn
  rcases h with h | h <;> rw [h]

theorem LiftUnit.serviceIn_moving {u : LiftUnit} (h : u.state = .moving) (heard : Bool) :
    u.serviceIn heard = { u with serviceOn := true, offPending := false } := by
  unfold LiftUnit.serviceIn
  rw [h]

theorem LiftUnit.serviceIn_running {u : LiftUnit} (h : ¬ (u.state = .faulted ∨ u.state = .out)) (hm : u.state ≠ .moving)
    (heard : Bool) : u.serviceIn heard = { u with serviceOn := true } := by
  unfold LiftUnit.serviceIn
  split
  · rename_i s
    exact absurd (.inl s) h
  · rename_i s
    exact absurd (.inr s) h
  · rename_i s
    exact absurd s hm
  · rfl

end

/-! ### LIFT_RESOLVE (R142) -/

theorem placeAtDestination_blind (l : Lift) (m : Move) {a b : Ev} (h : a.g = b.g) :
    (placeAtDestination l m a).g = (placeAtDestination l m b).g := by
  unfold placeAtDestination
  cases m.kind with
  | final => exact enterReady_blind _ _ (by simp [h])
  | relocation | park => simp [h]

/-- R142: the reply comes first, and the place of the car does not depend on it. -/
theorem resolveAt_comes (st : Station) (l : Lift) (m : Move) (destination : Bool) (g : Garage) : ∃ more,
    resolveAt ⟨.s, st.number, st.role⟩ l m destination ⟨g, []⟩ =
      ⟨(if destination then placeAtDestination l m ⟨g, []⟩ else placeAtSource l m ⟨g, []⟩).g,
        replyOut st Kind.liftResolve .taken (w8 m.number ++ w16 m.ticket) :: more⟩ := by
  cases destination with
  | false => exact ⟨[], rfl⟩
  | true =>
    exact adds (placeAtDestination_works l m) (fun _ _ h => placeAtDestination_blind l m h) g
      [replyOut st Kind.liftResolve .taken (w8 m.number ++ w16 m.ticket)]

/-- Settles O40: both requests by lift and direction, the service by the state of the lift. -/
theorem liftServiceAndResolve : Obligations.LiftServiceAndResolve := by
  intro s st flags pl ask hl g service resolve
  have passes : ∀ kind ∈ [Kind.liftService, Kind.liftResolve], Passes s kind pl := fun kind hk => by
    rcases List.mem_pair.mp hk with rfl | rfl <;> exact .of_both hl (by decide) rfl rfl (by decide) (by decide)
  have serves : ∀ {k : Garage} {r : Result} {detail : List Byte},
      liftService s.line.hears ⟨.s, st.number, st.role⟩ pl ⟨g, []⟩ = ⟨k, [replyOut st Kind.liftService r detail]⟩ →
      service k.afterwards Kind.liftService r detail := fun h => by
    show Replies _ s st _ _ _ _
    rw [ask.liftService_hears flags (passes _ (by simp))]
    exact Replies.of_work ask rfl (by decide) (passes _ (by simp)) h
  have resolves : ∀ {k : Garage} {r : Result} {detail : List Byte} {more : List Out},
      liftResolve ⟨.s, st.number, st.role⟩ pl ⟨g, []⟩ = ⟨k, replyOut st Kind.liftResolve r detail :: more⟩ →
      resolve k.afterwards Kind.liftResolve r detail :=
    fun h => Replies.of_work ask rfl (by decide) (passes _ (by simp)) h
  refine ⟨fun h => ⟨serves (liftService_noLift h), resolves (more := []) (liftResolve_noLift h)⟩, fun h0 h1 => ?_,
    fun l code => ?_⟩
  · obtain ⟨l, code⟩ := liftCode_of_le h0
    exact ⟨serves (liftService_noDirection code h1), resolves (more := []) (liftResolve_noPosition code h1)⟩
  · intro u heard answers stops
    have off : ∀ {k : Garage}, u8 pl 1 = 0 → g.serviceOff l = k → answers k .taken := fun hd h =>
      serves (by rw [liftService_off code hd, ← h]; rfl)
    have on : ∀ {f : LiftUnit → LiftUnit}, u8 pl 1 = 1 → ¬ (stops ∧ u.unresolved ≠ none) →
        u.serviceIn (s.line.hears l) = f u → answers (g.modLift l f) .taken := fun hd clear h =>
      serves (by
        rw [liftService_on code hd, if_neg (by rw [LiftUnit.mustResolve_iff]; exact clear),
          ← modLift_congr g l (f := fun u => u.serviceIn (s.line.hears l)) h]
        rfl)
    have back : ∀ now, (if s.line.hears l then .notReady else .offline) = now → u8 pl 1 = 1 → stops → u.unresolved = none →
        answers (g.modLift l fun u => { u with serviceOn := true, state := now }) .taken := fun now hn hd stopped clear =>
      on hd (fun h => h.2 clear) (by rw [LiftUnit.serviceIn_stopped stopped, hn])
    refine ⟨fun hd h => off hd (Garage.serviceOff_moving h), fun hd h => off hd (Garage.serviceOff_out h),
      fun hd hm ho => off hd (Garage.serviceOff_idle hm ho), fun hd stopped doubt => ?_, fun hd stopped clear hears => ?_,
      fun hd stopped clear unheard => ?_, fun hd h => ?_, fun hd running h => ?_, fun hd clear => ?_, fun m doubt => ?_⟩
    · refine serves ?_
      rw [liftService_on code hd, if_pos ((LiftUnit.mustResolve_iff _).mpr ⟨stopped, doubt⟩)]
      rfl
    · exact back _ (if_pos ((s.line.hears_iff l).mpr hears)) hd stopped clear
    · exact back _ (if_neg fun h => unheard ((s.line.hears_iff l).mp h)) hd stopped clear
    · exact on hd (fun t => by rcases t.1 with s | s <;> simp [h] at s) (LiftUnit.serviceIn_moving h _)
    · exact on hd (fun t => running t.1) (LiftUnit.serviceIn_running running h _)
    · refine resolves (more := []) ?_
      rw [liftResolve_lift code hd, show ((Ev.mk g []).g.lift l).unresolved = none from clear]
      rfl
    · have resolved : u8 pl 1 ≤ 1 → resolve
          (if u8 pl 1 == 1 then placeAtDestination l m ⟨g, []⟩ else placeAtSource l m ⟨g, []⟩).g.afterwards
          Kind.liftResolve .taken (w8 m.number ++ w16 m.ticket) := fun hd => by
        obtain ⟨more, comes⟩ := resolveAt_comes st l m (u8 pl 1 == 1) g
        refine resolves (more := more) (Eq.trans ?_ comes)
        rw [liftResolve_lift code hd, show ((Ev.mk g []).g.lift l).unresolved = some m from doubt]
      refine ⟨fun hd => ?_, fun hd => ?_⟩ <;> simpa [hd] using resolved (by omega)

end Sys2Proof.Machine

namespace Sys2Proof.Machine

/-! ### PICKUP (R168, R169) -/

section
variable {st : Station} {pl : List Byte} {g : Garage}

theorem runnerInRange_iff (r : Nat) : runnerInRange r = true ↔ 1 ≤ r ∧ r ≤ 32 := by
  unfold runnerInRange
  simp

theorem pickup_noRunner {c : Caller} {e : Ev} (h : u8 pl 0 < 1 ∨ 32 < u8 pl 0) :
    pickup c pl e = e.badRequest c Kind.pickup 0 := by
  have out : runnerInRange (u8 pl 0) = false := by
    rw [Bool.eq_false_iff, ne_eq, runnerInRange_iff]
    omega
  unfold pickup
  rw [out]
  rfl

theorem pickup_noTicket {c : Caller} {e : Ev} (h1 : 1 ≤ u8 pl 0) (h2 : u8 pl 0 ≤ 32) (hn : u16 pl 1 = 0) :
    pickup c pl e = e.badRequest c Kind.pickup 1 := by
  unfold pickup
  rw [(runnerInRange_iff _).mpr ⟨h1, h2⟩]
  exact if_pos hn

theorem pickup_ticket {c : Caller} {e : Ev} (h1 : 1 ≤ u8 pl 0) (h2 : u8 pl 0 ≤ 32) (hn : u16 pl 1 ≠ 0) :
    pickup c pl e = match e.g.ticket (u16 pl 1) with
      | none => pickupMismatch (u8 pl 0) (u16 pl 1) 0
          (e.reply c Kind.pickup .unknownTicket (pickupDetail (u8 pl 0) (u16 pl 1) absentCode))
      | some t => pickupTicket c (u8 pl 0) (u16 pl 1) t e := by
  unfold pickup
  rw [(runnerInRange_iff _).mpr ⟨h1, h2⟩]
  exact if_neg hn

theorem Garage.behindInLane_iff (g : Garage) (n : Nat) (t : Ticket) :
    g.behindInLane n t = true ↔ ∃ l, t.location = .lane l ∧ (g.lift l).lane.head? ≠ some n := by
  unfold Garage.behindInLane
  cases t.location <;> simp

variable {r n : Nat} {t : Ticket} {c : Caller} {e : Ev}

theorem pickupTicket_again (h : t.state = .outbound ∧ t.runner = some r) :
    pickupTicket c r n t e = e.reply c Kind.pickup .handoverPending (pickupDetail r n 8) := by
  unfold pickupTicket
  dsimp only
  rw [if_pos h, h.1]
  rfl

theorem pickupTicket_first (h : ¬ (t.state = .outbound ∧ t.runner = some r)) : pickupTicket c r n t e =
    if ¬ (((e.g.runner r).state = .assigned ∨ (e.g.runner r).state = .offPending) ∧ (e.g.runner r).ticket = some n) then
      pickupMismatch r n 1 (e.reply c Kind.pickup .notApplicable (pickupDetail r n (ticketStateCode t.state)))
    else if e.g.behindInLane n t then
      pickupMismatch r n 2 (e.reply c Kind.pickup .notApplicable (pickupDetail r n (ticketStateCode t.state)))
    else (e.modG fun g => g.pickedUp r n t).reply c Kind.pickup .taken (pickupDetail r n 8) := by
  unfold pickupTicket
  exact if_neg h

end

/-- A request of a station that is answered first of all, then alerts, and whose effects may leave work for the lifts. -/
theorem State.work_answers {s : State} {st : Station} {r : Role} {kind flags : Byte} {pl : List Byte}
    {f : Caller → List Byte → Ev → Ev} (ask : AskedBy s st r) (hl : roleLift r = none) (hp : permits r kind = true)
    (hg : Passes s kind pl) {g : Garage} {k : Byte} {res : Result} {detail : List Byte} {alerts : List (Nat × List Byte)}
    (h : f ⟨.s, st.number, st.role⟩ pl ⟨s.garage, []⟩ =
      ⟨g, replyOut st k res detail :: alerts.map fun a => alertOut s.garage.seconds a.1 a.2⟩) :
    ∃ u, s.frame .s kind flags pl (workBody f) = .next u ∧ u.garage = g.afterwards ∧ Answered s u st k res detail ∧
      ∀ a ∈ alerts, Told s u a.1 a.2 := by
  obtain ⟨u, more, comes⟩ := s.work_comes st r kind flags pl f ask hl hp hg
  rw [h] at comes
  refine ⟨u, comes.next, comes.garage, ⟨comes.heard, fun room => comes.answers _ _ _ _ _ rfl (by decide) room⟩,
    fun a ha => ?_⟩
  exact comes.sends (alertOut s.garage.seconds a.1 a.2)
    (List.mem_append_left _ (List.mem_cons_of_mem _ (List.mem_map_of_mem ha))) .office rfl

/-- Settles O30: the checks in their order, and the pickup by where its ticket stands. -/
theorem pickupAnswered : Obligations.PickupAnswered := by
  intro s st flags pl ask hl g r n k answers shown mismatch
  have comes : ∀ {x : Garage} {res : Result} {detail : List Byte} {alerts : List (Nat × List Byte)},
      pickup ⟨.s, st.number, st.role⟩ pl ⟨g, []⟩ =
        ⟨x, replyOut st Kind.pickup res detail :: alerts.map fun a => alertOut g.seconds a.1 a.2⟩ →
      answers x res detail alerts :=
    fun h => State.work_answers ask rfl (by decide) (.of_both hl (by decide) rfl rfl (by decide) (by decide)) h
  refine ⟨fun h => comes (pickup_noRunner h), fun h1 h2 hn => comes (pickup_noTicket h1 h2 hn), fun h1 h2 hn ht => ?_,
    fun t h1 h2 hn ht => ?_⟩
  · refine comes ?_
    rw [pickup_ticket h1 h2 hn, show (Ev.mk g []).g.ticket (u16 pl 1) = none from ht]
    rfl
  · intro tied behind
    have event : ∀ {e : Ev}, pickupTicket ⟨.s, st.number, st.role⟩ r n t ⟨g, []⟩ = e →
        pickup ⟨.s, st.number, st.role⟩ pl ⟨g, []⟩ = e := fun h => by
      rw [pickup_ticket h1 h2 hn, show (Ev.mk g []).g.ticket (u16 pl 1) = some t from ht]
      exact h
    split
    · rename_i again
      exact comes (event (pickupTicket_again again))
    · rename_i first
      have checks := event (pickupTicket_first (c := ⟨.s, st.number, st.role⟩) (n := n) (e := ⟨g, []⟩) first)
      refine ⟨fun untied => comes (checks.trans (if_pos untied)), fun ht hb => ?_, fun ht hb => ?_⟩
      · refine comes (checks.trans ((if_neg (not_not.mpr ht)).trans (if_pos ?_)))
        exact (g.behindInLane_iff n t).mpr hb
      · intro moved left
        refine comes (checks.trans ((if_neg (not_not.mpr ht)).trans ((if_neg ?_).trans ?_)))
        · exact fun h => hb ((g.behindInLane_iff n t).mp h)
        · have lane : g.pickedUp r n t = { left with runners := left.runners.adjust r fun x => { x with timer := none } } := by
            unfold Garage.pickedUp
            dsimp only [left]
            cases t.location <;> rfl
          rw [← lane]
          rfl

end Sys2Proof.Machine

namespace Sys2Proof.Machine

/-! ### The order of a move (R118, R135) -/

section
variable {l : Lift} {g : Garage} {out : List Out}

theorem order_eq (m : Move) (e : Ev) : order l m e = ⟨e.g.modLift l fun u => { u with
      state := .moving, inFlight := some { m with number := (e.g.lift l).nextNumber }, reorder := none
      nextNumber := if u.nextNumber < 255 then u.nextNumber + 1 else 1 },
    e.out ++ [⟨.role (match l with | .a => .liftA | .b => .liftB), Kind.moveOrder,
      w8 (e.g.lift l).nextNumber ++ w8 (locationCode m.source) ++ w16 (locationBay m.source) ++ w8 (locationCode m.dest)
        ++ w16 (locationBay m.dest) ++ w32 m.tag, .moveOrder l (e.g.lift l).nextNumber⟩]⟩ := by
  unfold order moveOrderFrame wLocation
  simp only [Ev.emit, Ev.modG, List.append_assoc]
  cases l <;> rfl

/-! ### The work of a holder (R130, R138, R151) -/

theorem holderWork_reorder {h : Holder} {m : Move} (ready : (g.lift l).state = .ready) (held : (g.lift l).tenure = some h)
    (again : (g.lift l).reorder = some m) : holderWork l ⟨g, out⟩ = some (reorderMove l m ⟨g, out⟩) := by
  unfold holderWork
  dsimp only
  rw [if_pos ready, held, again]

theorem holderWork_plan {h : Holder} {p : Plan} (ready : (g.lift l).state = .ready) (held : (g.lift l).tenure = some h)
    (fresh : (g.lift l).reorder = none) (plan : (g.lift l).plan = some p) :
    holderWork l ⟨g, out⟩ = some (planStep l p ⟨g, out⟩) := by
  unfold holderWork
  dsimp only
  rw [if_pos ready, held, fresh, plan]

theorem holderWork_block {c : Chan} (ready : (g.lift l).state = .ready) (held : (g.lift l).tenure = some (.channel c))
    (fresh : (g.lift l).reorder = none) (plan : (g.lift l).plan = none) :
    holderWork l ⟨g, out⟩ = some (blockStep l c ⟨g, out⟩) := by
  unfold holderWork
  dsimp only
  rw [if_pos ready, held, fresh, plan]

/-! ### The steps of a plan (R130 to R132) -/

variable {p : Plan}

theorem planStep_relocation {a b : List Reloc} {r : Reloc} {car : Ticket} (relocs : p.relocs = a ++ r :: b)
    (before : ∀ x ∈ a, x.done = true) (next : r.done = false) (ht : g.ticket r.blocker = some car) :
    planStep l p ⟨g, out⟩ =
      order l ⟨0, .relocation, r.blocker, car.tag, .bay r.source, .bay r.dest, some p.target⟩ ⟨g, out⟩ := by
  have first : p.relocs.find? (fun r => !r.done) = some r := by
    rw [relocs, List.find?_append, List.find?_eq_none.mpr fun x hx => by simp [before x hx]]
    simp [next]
  unfold planStep
  rw [first]
  dsimp only
  rw [Garage.tagOf_ticket ht]

theorem planStep_relocated (done : ∀ r ∈ p.relocs, r.done = true) : planStep l p ⟨g, out⟩ = atHoldPoint l p ⟨g, out⟩ := by
  unfold planStep
  rw [List.find?_eq_none.mpr fun x hx => by simp [done x hx]]

variable {t : Ticket}

theorem atHoldPoint_held (ht : g.ticket p.target = some t) (single : t.convoy = none) (hold : t.hold = true)
    (kept : t.resumePending = false) : atHoldPoint l p ⟨g, out⟩ = suspend l p ⟨g, out⟩ := by
  unfold atHoldPoint
  dsimp only
  rw [ht]
  dsimp only
  rw [if_pos ⟨single, hold⟩, kept]
  rfl

theorem atHoldPoint_released (ht : g.ticket p.target = some t) (single : t.convoy = none) (hold : t.hold = true)
    (released : t.resumePending = true) : atHoldPoint l p ⟨g, out⟩ =
      passHoldPoint l p ⟨g.modTicket p.target fun t => { t with hold := false, resumePending := false }, out⟩ := by
  unfold atHoldPoint
  dsimp only
  rw [ht]
  dsimp only
  rw [if_pos ⟨single, hold⟩, released]
  rfl

theorem atHoldPoint_passed (ht : g.ticket p.target = some t) (free : t.convoy ≠ none ∨ t.hold = false) :
    atHoldPoint l p ⟨g, out⟩ = passHoldPoint l p ⟨g, out⟩ := by
  unfold atHoldPoint
  dsimp only
  rw [ht]
  refine if_neg fun ⟨single, hold⟩ => ?_
  rcases free with c | h
  · exact c single
  · rw [h] at hold
    cases hold

/-- R132: the final move of a plan whose target is in its bay, its slot reserved. -/
theorem goToLane_eq {bay : Nat} (ht : g.ticket p.target = some t) (hb : t.bay = some bay) : goToLane l p ⟨g, out⟩ =
    order l ⟨0, .final, p.target, t.tag, .bay bay, .lane l, some p.target⟩
      ⟨(g.modTicket p.target fun t => { t with phase := some .final }).modLift l fun u => { u with
        reserved := u.reserved + 1, plan := some { p with slot := true, stamp := none }
        tenure := if u.tenure = some .plan then none else u.tenure }, out⟩ := by
  have target : ∀ f, ((g.modTicket p.target fun t => { t with phase := some .final }).modLift l f).ticket p.target =
      some { t with phase := some .final } := fun f => by
    rw [Garage.modLift_ticket, ticket_modTicket, ht]
    rfl
  unfold goToLane
  dsimp only [Ev.modG]
  unfold Garage.finalMove
  rw [Garage.tagOf_ticket (target _), target, Option.bind_some, hb]
  rfl

theorem passHoldPoint_eq : passHoldPoint l p ⟨g, out⟩ =
    if (g.lift l).lane.length + (g.lift l).reserved < (g.lift l).laneCapacity then goToLane l p ⟨g, out⟩
    else waitForLane l p ⟨g, out⟩ := by
  unfold passHoldPoint LiftUnit.slotFree
  simp only [decide_eq_true_eq]

end

/-- Settles O59: the order of a move first, and each step of a plan as an order or a change of its lift and its target. -/
theorem planSteps : Obligations.PlanSteps := by
  rintro l ⟨g₀, out⟩
  intro g orders own
  refine ⟨fun m => order_eq m _, fun h m ready held again => ?_, fun h p ready held fresh plan => ?_,
    fun p t bay ht hb => ⟨fun a r b car relocs before next hc => ?_, fun done => ?_⟩⟩
  · rw [holderWork_reorder ready held again]
    refine congrArg some ((order_eq m _).trans ?_)
    show orders _ m = orders _ m
    cases m.kind <;> rfl
  · exact holderWork_plan ready held fresh plan
  · exact (planStep_relocation relocs before next hc).trans (order_eq _ _)
  · intro goes
    have step := planStep_relocated (l := l) (g := g) (out := out) done
    have passes : ∀ {k : Garage} {x : Ticket}, k.ticket p.target = some x → x.tag = t.tag → x.bay = some bay →
        passHoldPoint l p ⟨k, out⟩ = goes k := fun hk tag hbay => by
      rw [passHoldPoint_eq]
      dsimp only [goes]
      split
      · rw [goToLane_eq hk hbay, tag]
        exact order_eq _ _
      · rfl
    refine ⟨fun single hold kept => ?_, fun single hold released => ?_, fun free => ?_⟩
    · exact step.trans (atHoldPoint_held ht single hold kept)
    · refine step.trans ((atHoldPoint_released ht single hold released).trans (passes (x := { t with
        hold := false, resumePending := false }) ?_ rfl hb))
      rw [ticket_modTicket, show g.ticket p.target = some t from ht]
      rfl
    · exact step.trans ((atHoldPoint_passed ht free).trans (passes ht rfl hb))

end Sys2Proof.Machine

namespace Sys2Proof.Machine

/-! ### A channel granted a lift, and the end of its block (R151, R152) -/

section
variable {l : Lift} {c : Chan} {g : Garage} {out : List Out}

theorem grant_channel {b : Bid} (hb : b.who = .channel c) : grant l b ⟨g, out⟩ =
    ⟨(g.modChan c fun ch => { ch with blockCount := 0, blockLevel := none, request := none }).modLift l fun u =>
      { u with tenure := some (.channel c) }, out⟩ := by
  unfold grant grantChannel Garage.clearBlock
  rw [hb]
  simp only [Ev.modG, modChan_modChan]
  rfl

theorem blockStep_counted (full : (g.chan c).blockLength ≤ (g.chan c).blockCount) :
    blockStep l c ⟨g, out⟩ = endBlock l c ⟨g, out⟩ := if_pos full

theorem blockStep_noLead (h : g.lead c = none) : blockStep l c ⟨g, out⟩ = endBlock l c ⟨g, out⟩ := by
  unfold blockStep
  dsimp only
  rw [h]
  dsimp only
  exact ite_self _

/-- A channel that is not RUNNING has no lead. -/
theorem Garage.lead_idle (h : (g.chan c).state ≠ .running) : g.lead c = none := if_neg h

/-- The lift and the level of a ticket whose bay lies in a loaded zone. -/
theorem Garage.zone_of_ticket {n k : Nat} {t : Ticket} {b : Bay} {s : Stack} {z : Zone} (ht : g.ticket n = some t)
    (hk : t.bay = some k) (hb : g.bay k = some b) (hs : g.stackRecs.find b.stack = some s)
    (hz : g.zoneRecs.find s.zone = some z) : g.liftOfTicket n = some z.lift ∧ g.levelOfTicket n = z.level := by
  have bay : g.bayOfTicket n = some (k, b) := by
    unfold Garage.bayOfTicket
    rw [ht, Option.bind_some, hk]
    dsimp only
    rw [hb]
    rfl
  have zone : g.zoneOf b = some z := by
    unfold Garage.zoneOf Garage.zoneNoOf
    rw [hs]
    exact hz
  unfold Garage.liftOfTicket Garage.levelOfTicket
  rw [bay]
  dsimp only
  rw [zone]
  exact ⟨rfl, rfl⟩

section
variable {n level : Nat} (lead : g.lead c = some n) (hl : g.levelOfTicket n = level)
include lead hl

theorem blockStep_elsewhere (h : g.liftOfTicket n ≠ some l ∨ (g.chan c).blockLevel.getD level ≠ level) :
    blockStep l c ⟨g, out⟩ = endBlock l c ⟨g, out⟩ := by
  unfold blockStep
  dsimp only
  rw [lead]
  dsimp only
  rw [hl, if_pos h]
  exact ite_self _

variable (room : (g.chan c).blockCount < (g.chan c).blockLength) (here : g.liftOfTicket n = some l)
  (same : (g.chan c).blockLevel.getD level = level) {e' : Ev}
include room here same

theorem blockStep_built (built : buildPlan l n (g.chan c).level ⟨g, out⟩ = (e', true)) : blockStep l c ⟨g, out⟩ =
    ⟨e'.g.modChan c fun ch => { ch with blockCount := ch.blockCount + 1, blockLevel := some level }, e'.out⟩ := by
  have kept : (e'.g.chan c).blockLevel = (g.chan c).blockLevel := by
    have := buildPlan_blockLevel l n (g.chan c).level ⟨g, out⟩ c
    rw [built] at this
    exact this
  unfold blockStep
  dsimp only
  rw [if_neg (Nat.not_le.mpr room), lead]
  dsimp only
  rw [hl, if_neg (by simp [here, same]), built]
  refine congrArg (Ev.mk · e'.out) (modChan_congr e'.g c ?_)
  rw [kept, same]

theorem blockStep_failed (failed : buildPlan l n (g.chan c).level ⟨g, out⟩ = (e', false)) :
    blockStep l c ⟨g, out⟩ = e' := by
  unfold blockStep
  dsimp only
  rw [if_neg (Nat.not_le.mpr room), lead]
  dsimp only
  rw [hl, if_neg (by simp [here, same]), failed]
  rfl

end

/-! ### The end of a convoy (R149, R155) -/

theorem channelDone_none (h : (g.chan c).state = .idle ∨ 0 < g.members c) : channelDone c ⟨g, out⟩ = none := by
  refine if_neg fun ⟨working, empty⟩ => ?_
  rcases h with h | h
  · exact working h
  · exact absurd (show g.members c = 0 from empty) (by omega)

/-- R149: as a channel enters IDLE, the other one starts if it was HELD_BACK. -/
theorem Garage.letRun_eq (k : Garage) (d : Chan) : k.letRun d =
    k.modChan d fun ch => { ch with state := if ch.state = .heldBack then .running else ch.state } := by
  refine modChan_congr k d ?_
  split
  · rfl
  · rfl

theorem channelDone_some (working : (g.chan c).state ≠ .idle) (empty : g.members c = 0) :
    channelDone c ⟨g, out⟩ = some ⟨(g.modChan c Channel.toIdle).letRun (otherChan c),
      if (g.chan c).state = .loaded then out
      else out ++ [⟨.role .office, Kind.convoyDone, w8 (chanCode c) ++ w16 (g.chan c).delivered, .plain⟩]⟩ := by
  unfold channelDone
  dsimp only
  rw [if_pos ⟨working, empty⟩]
  split <;> rfl

/-! ### The next work (log 13) -/

theorem nextWork_channel {fuel : Nat} {e : Ev} (ha : holderWork .a e = none) (hb : holderWork .b e = none) {x : Ev}
    (h : eitherFirst (Config.channel0First e.g.seconds fuel) (channelDone .c0 e) (channelDone .c1 e) = some x) :
    nextWork fuel e = some x := by
  unfold nextWork
  dsimp only
  rw [ha, hb, h]
  rfl

/-- A channel's end, the only one or one of two, is the next work when no lift's holder has any. -/
theorem nextWork_done (fuel : Nat) {e : Ev} (ha : holderWork .a e = none) (hb : holderWork .b e = none) {x : Ev}
    (hx : channelDone c e = some x) :
    (channelDone (otherChan c) e = none → nextWork fuel e = some x) ∧
      ∀ y, channelDone (otherChan c) e = some y → nextWork fuel e = some x ∨ nextWork fuel e = some y := by
  refine ⟨fun hy => ?_, fun y hy => ?_⟩
  · refine nextWork_channel ha hb ?_
    cases c
    · rw [hx, show channelDone .c1 e = none from hy]
      rfl
    · rw [hx, show channelDone .c0 e = none from hy]
      rfl
  · have both : ∀ first u v, eitherFirst first (some u) (some v) = some (if first then u else v) :=
      fun first u v => by cases first <;> rfl
    cases c
    · have next := nextWork_channel (fuel := fuel) ha hb (by rw [hx, show channelDone .c1 e = some y from hy, both])
      rw [next]
      cases Config.channel0First e.g.seconds fuel
      · exact .inr rfl
      · exact .inl rfl
    · have next := nextWork_channel (fuel := fuel) ha hb (by rw [hx, show channelDone .c0 e = some y from hy, both])
      rw [next]
      cases Config.channel0First e.g.seconds fuel
      · exact .inl rfl
      · exact .inr rfl

end

/-- Settles O60: the grant, the block step by its lead, and the end of the convoy by the state of its channel. -/
theorem blockSteps : Obligations.BlockSteps := by
  rintro l c ⟨g₀, out⟩
  intro g ch ends
  refine ⟨fun b hb => grant_channel hb, holderWork_block, fun idle => blockStep_noLead (Garage.lead_idle idle),
    blockStep_counted, blockStep_noLead, fun n t k b s z lead ht hk hb hs hz => ?_, ?_⟩
  · obtain ⟨lift, level⟩ := Garage.zone_of_ticket ht hk hb hs hz
    refine ⟨fun away => blockStep_elsewhere lead level (.inl ?_), fun other held differs =>
      blockStep_elsewhere lead level (.inr ?_), fun room here same => ?_⟩
    · rw [lift]
      exact fun h => away (Option.some.inj h)
    · rw [show (g.chan c).blockLevel = some other from held]
      exact differs
    · have stays : (g.chan c).blockLevel.getD z.level = z.level := by
        rcases same with h | h <;> rw [show (g.chan c).blockLevel = _ from h] <;> rfl
      rw [here] at lift
      exact ⟨fun e' built => blockStep_built lead level room lift stays built,
        fun e' failed => blockStep_failed lead level room lift stays failed⟩
  · intro members idled
    have ended : (g.modChan c Channel.toIdle).letRun (otherChan c) = idled := Garage.letRun_eq _ _
    refine ⟨channelDone_none, fun loaded empty => ?_, fun started empty => ?_, fun fuel x ha hb hx =>
      nextWork_done fuel ha hb hx⟩
    · have is : (g.chan c).state = .loaded := loaded
      refine (channelDone_some (by rw [is]; decide) empty).trans ?_
      rw [ended, if_pos is]
    · have is : (g.chan c).state ≠ .idle ∧ (g.chan c).state ≠ .loaded := by
        rcases started with h | h <;> rw [show (g.chan c).state = _ from h] <;> decide
      refine (channelDone_some is.1 empty).trans ?_
      rw [ended, if_neg is.2]

end Sys2Proof.Machine

namespace Sys2Proof.Machine

/-! ### What stands through a run of events of the part's own

The expiries of one tick are events one after another, and poll hold takes frames between them. What each leaves alone
on the lines is said here once, so that a frame queued by one of them is followed to the end of the tick. -/

/-- `t` comes after `s` by events of the part's own: stations, settings and supply as they were, the notice drop tally
no lower, and the garage's settings and counts of time unchanged. -/
structure State.Follows (s t : State) : Prop where
  rest : Undisturbed s t
  onS : t.line.s.stations = s.line.s.stations
  onG : t.line.g.stations = s.line.g.stations
  notices : s.line.noticeDrops ≤ t.line.noticeDrops
  fixed : t.garage.fixed = s.garage.fixed

theorem Undisturbed.refl (s : State) : Undisturbed s s := ⟨rfl, rfl, rfl, .refl _⟩

theorem Undisturbed.trans {s t u : State} (h : Undisturbed s t) (k : Undisturbed t u) : Undisturbed s u :=
  ⟨k.powered.trans h.powered, k.storeHeld.trans h.storeHeld, k.pending.trans h.pending, h.lines.trans k.lines⟩

namespace State.Follows

theorem refl (s : State) : s.Follows s := ⟨.refl s, rfl, rfl, Nat.le_refl _, rfl⟩

theorem trans {s t u : State} (h : s.Follows t) (k : t.Follows u) : s.Follows u :=
  ⟨h.rest.trans k.rest, k.onS.trans h.onS, k.onG.trans h.onG, h.notices.trans k.notices, k.fixed.trans h.fixed⟩

theorem of_quiet {s t : State} (h : LineQuiet s t) : s.Follows t :=
  ⟨⟨h.powered, h.storeHeld, h.pending, h.sameLines⟩, h.onS.stations, h.onG.stations, Nat.le_of_eq h.notices.symm,
    congrArg Garage.fixed h.garage⟩

theorem underHold (s : State) : s.Follows s.underHold := of_quiet s.underHold_lineQuiet

theorem run (s : State) {f : Ev → Ev} (hf : (f ⟨s.garage, []⟩).g.fixed = s.garage.fixed) : s.Follows (s.run f) :=
  have q := s.run_queuesOnly f
  ⟨⟨rfl, rfl, rfl, q.sameLines⟩, q.stations_s, q.stations_g, s.run_notices f, hf⟩

theorem expire (s : State) (d : Due) : s.Follows (s.expire d) := by
  rcases expire_cases s d with ⟨-, h⟩ | ⟨-, h⟩ <;> rw [h]
  · exact run s (expires_fixed d _)
  · exact refl s

theorem expireAll (ds : List Due) (s : State) : s.Follows (s.expireAll ds) := by
  induction ds generalizing s with
  | nil => exact refl s
  | cons d ds ih => exact ((expire s d).trans (underHold _)).trans (ih _)

theorem seconds {s t : State} (h : s.Follows t) : t.garage.seconds = s.garage.seconds := congrArg Fixed.seconds h.fixed

/-- The station that serves a role still serves it. -/
theorem serves {s t : State} (h : s.Follows t) {r : Role} {p : Port} {n : Nat} (hn : t.line.stationOfRole r = some n)
    (hp : t.line.reaches n = some p) : s.line.Serves r p n := by
  refine Line.serves_of ?_ ?_
  · unfold Line.stationOfRole at hn ⊢
    rwa [h.onS, h.onG] at hn
  · unfold Line.reaches PortState.hasStation at hp ⊢
    rwa [h.onS, h.onG, h.rest.lines.g.mode] at hp

end State.Follows

/-! ### Frames that stay on their way -/

section
variable {s t : State} {r : Role} {kind : Byte} {payload : List Byte}

/-- What poll hold brings about takes no frame off its way. -/
theorem Sends.quiet {u : State} (h : Sends s t r kind payload) (q : LineQuiet t u) : Sends s u r kind payload := by
  rcases h with ⟨p, n, serves, carried⟩ | h | h
  · refine .inl ⟨p, n, serves, ?_⟩
    cases p
    · exact q.onS.carries _ carried
    · exact q.onG.carries _ carried
  · exact .inr (.inl (q.notices.symm ▸ h))
  · exact .inr (.inr h)

/-- An event leaves a frame that is on its way there, or counts a loss (R14, R15). -/
theorem Sends.run (h : Sends s t r kind payload) (low : s.line.noticeDrops ≤ t.line.noticeDrops) (f : Ev → Ev) :
    Sends s (t.run f) r kind payload := by
  have waits : t.line.queuedOrLost (s.line.Serves r) s.line.noticeDrops kind payload →
      Sends s (t.run f) r kind payload := fun k =>
    (LineQuiet.refl (t.run f)).sends (Line.queueAll_stays low k)
  rcases h with ⟨p, n, serves, ⟨q, sending, hq⟩ | ⟨⟨frame, mark⟩, queued, rfl⟩⟩ | h | h
  · refine .inl ⟨p, n, serves, .inl ⟨q, ?_, hq⟩⟩
    show ((t.run f).line.port p).sending = some q
    rw [(t.run_queuesOnly f).port p]
    exact sending
  · exact waits (.inl ⟨p, n, mark, serves, queued⟩)
  · exact waits (.inr (.inl h))
  · exact waits (.inr (.inr h))

/-- A frame that is on its way when the expiries begin is so when they are over. -/
theorem Sends.expireAll (ds : List Due) (h : Sends s t r kind payload) (after : s.Follows t) :
    Sends s (t.expireAll ds) r kind payload := by
  induction ds generalizing t with
  | nil => exact h
  | cons d ds ih =>
    refine ih (.quiet ?_ (t.expire d).underHold_lineQuiet) ((after.trans (.expire t d)).trans (.underHold _))
    rcases expire_cases t d with ⟨-, e⟩ | ⟨-, e⟩ <;> rw [e]
    · exact h.run after.notices _
    · exact h

/-- A frame that an event of the part's own makes for a role's station is on its way after it. -/
theorem State.Follows.sends (after : s.Follows t) {f : Ev → Ev} {o : Out} (made : o ∈ (f ⟨t.garage, []⟩).out)
    (dest : o.dest = .role r) : Sends s (t.run f) r o.kind o.payload :=
  (LineQuiet.refl (t.run f)).sends
    (Line.queueAll_queued made dest (fun _ _ hn hp => after.serves hn hp) after.notices)

end

end Sys2Proof.Machine

namespace Sys2Proof.Machine

/-! ### The alert of an expiry (R140, R167, R182) -/

/-- The alert with which a timer expires, its kind and its fields: MOVE_TIMEOUT of the move in flight, RUNNER_LATE,
HOLD_LONG. -/
def Garage.expiryAlert (g : Garage) : Due → Option (Nat × List Byte)
  | .move l => (g.lift l).inFlight.map fun m => (12, w8 (liftCode l) ++ w8 m.number ++ w16 m.ticket)
  | .pickup r => ((g.runners.find r).map Runner.ticket).map fun n => (19, w8 r ++ w16 (n.getD 0)
      ++ w8 (((n.bind fun n => (g.ticket n).map Ticket.location).map locationCode).getD 0xFF))
  | .hold n => ((g.ticket n).map Ticket.bay).map fun b => (7, w16 n ++ w16 (b.getD 0xFFFF))

/-- What the alert of an expiry is made of. -/
theorem Garage.expiryAlert_congr {g k : Garage} (lifts : ∀ l, (k.lift l).inFlight = (g.lift l).inFlight)
    (runners : ∀ r, (k.runners.find r).map Runner.ticket = (g.runners.find r).map Runner.ticket)
    (places : ∀ n, (k.ticket n).map Ticket.location = (g.ticket n).map Ticket.location)
    (bays : ∀ n, (k.ticket n).map Ticket.bay = (g.ticket n).map Ticket.bay) (d : Due) :
    k.expiryAlert d = g.expiryAlert d := by
  unfold Garage.expiryAlert
  cases d with
  | move l => simp only [lifts]
  | pickup r => simp only [runners, places]
  | hold n => simp only [bays]

theorem Garage.expiryAlert_move {g : Garage} {l : Lift} {m : Move} (h : (g.lift l).inFlight = some m) :
    g.expiryAlert (.move l) = some (12, w8 (liftCode l) ++ w8 m.number ++ w16 m.ticket) :=
  congrArg (Option.map _) h

theorem Garage.expiryAlert_pickup {g : Garage} {r : Nat} {k : Runner} (h : g.runners.find r = some k) :
    g.expiryAlert (.pickup r) = some (19, w8 r ++ w16 (k.ticket.getD 0)
      ++ w8 (((k.ticket.bind g.ticket).map fun x => locationCode x.location).getD 0xFF)) := by
  unfold Garage.expiryAlert
  dsimp only
  rw [h, Option.map_some, Option.map_some]
  cases hk : k.ticket with
  | none => rfl
  | some n => rw [Option.bind_some, Option.bind_some, Option.map_map]; rfl

theorem Garage.expiryAlert_hold {g : Garage} {n : Nat} {x : Ticket} (h : g.ticket n = some x) :
    g.expiryAlert (.hold n) = some (7, w16 n ++ w16 (x.bay.getD 0xFFFF)) := by
  unfold Garage.expiryAlert
  dsimp only
  rw [h]
  rfl

theorem pickupExpires_out {g : Garage} {r : Nat} {k : Runner} (h : g.runners.find r = some k) :
    (pickupExpires r ⟨g, []⟩).out = [alertOut g.seconds 19 (w8 r ++ w16 (k.ticket.getD 0)
      ++ w8 (((k.ticket.bind g.ticket).map fun x => locationCode x.location).getD 0xFF))] := by
  have record : g.runner r = k := by unfold Garage.runner; rw [h]; rfl
  unfold pickupExpires
  dsimp only
  rw [record]
  cases k.ticket.bind g.ticket <;> rfl

theorem holdExpires_out {g : Garage} {n : Nat} {x : Ticket} (h : g.ticket n = some x) :
    (holdExpires n ⟨g, []⟩).out = [alertOut g.seconds 7 (w16 n ++ w16 (x.bay.getD 0xFFFF))] := by
  unfold holdExpires
  dsimp only
  rw [h]
  rfl

theorem moveExpires_inFlight {l : Lift} {m : Move} {e : Ev} (h : (e.g.lift l).inFlight = some m) :
    moveExpires l e = settle (moveTimedOut l m e) := by unfold moveExpires; rw [h]

theorem moveTimedOut_alerts (l : Lift) (m : Move) (g : Garage) :
    alertOut g.seconds 12 (w8 (liftCode l) ++ w8 m.number ++ w16 m.ticket) ∈ (moveTimedOut l m ⟨g, []⟩).out := by
  have seconds : ((g.faultLift l).leaveUnresolved l m).seconds = g.seconds :=
    congrArg Fixed.seconds (((g.faultLift l).leaveUnresolved_fixed l m).trans (g.faultLift_fixed l))
  unfold moveTimedOut
  rw [Ev.modG_out, Ev.alert_out, Ev.modG_g, seconds]
  exact List.mem_singleton_self _

/-- A timer expires with its alert. -/
theorem expires_alerts {g : Garage} {d : Due} {a : Nat × List Byte} (h : g.expiryAlert d = some a) :
    alertOut g.seconds a.1 a.2 ∈ (expires d ⟨g, []⟩).out := by
  cases d with
  | move l =>
    obtain ⟨m, flies, rfl⟩ := Option.map_eq_some_iff.mp h
    show _ ∈ (moveExpires l _).out
    obtain ⟨more, out⟩ := settle_out (moveTimedOut l m ⟨g, []⟩)
    rw [moveExpires_inFlight (e := ⟨g, []⟩) flies, out]
    exact List.mem_append_left _ (moveTimedOut_alerts l m g)
  | pickup r =>
    obtain ⟨n, hn, -⟩ := Option.map_eq_some_iff.mp h
    obtain ⟨k, found, -⟩ := Option.map_eq_some_iff.mp hn
    rw [Garage.expiryAlert_pickup found] at h
    rw [← Option.some.inj h]
    show _ ∈ (pickupExpires r _).out
    rw [pickupExpires_out found]
    exact List.mem_singleton_self _
  | hold n =>
    obtain ⟨b, hb, -⟩ := Option.map_eq_some_iff.mp h
    obtain ⟨x, found, -⟩ := Option.map_eq_some_iff.mp hb
    rw [Garage.expiryAlert_hold found] at h
    rw [← Option.some.inj h]
    show _ ∈ (holdExpires n _).out
    rw [holdExpires_out found]
    exact List.mem_singleton_self _

/-- A timer that expires in the course of a tick does so with its alert. -/
theorem State.Follows.told {s t : State} (after : s.Follows t) {d : Due} {a : Nat × List Byte}
    (due : t.garage.remaining d = some 0) (h : t.garage.expiryAlert d = some a) :
    Told s (t.expire d).underHold a.1 a.2 := by
  have made := after.sends (f := expires d) (expires_alerts h) rfl
  unfold Told
  rw [← after.seconds]
  refine .quiet ?_ (t.expire d).underHold_lineQuiet
  unfold State.expire
  rw [if_pos due]
  exact made

/-- The first of a tick's expiries is told of when the tick is over. -/
theorem State.expireAll_told {s : State} {d : Due} {a : Nat × List Byte} (due : s.garage.remaining d = some 0)
    (h : s.garage.expiryAlert d = some a) (ds : List Due) : Told s (s.expireAll (d :: ds)) a.1 a.2 :=
  Sends.expireAll ds ((State.Follows.refl s).told due h) ((State.Follows.expire s d).trans (.underHold _))

/-! ### The tick's own effects (R176, R179, R189) -/

section
variable (g : Garage)

theorem Garage.tick_inFlight (l : Lift) : (g.tick.lift l).inFlight = (g.lift l).inFlight := by cases l <;> rfl

theorem Garage.tick_moveTimer (l : Lift) : (g.tick.lift l).moveTimer = tickTimer (g.lift l).moveTimer := by
  cases l <;> rfl

theorem Garage.tick_ticket (n : Nat) :
    g.tick.ticket n = (g.ticket n).map fun t => { t with holdTimer := tickTimer t.holdTimer } :=
  find_mapAll g.tickets n fun t => { t with holdTimer := tickTimer t.holdTimer }

theorem Garage.tick_runner (r : Nat) :
    g.tick.runners.find r = (g.runners.find r).map fun k => { k with timer := tickTimer k.timer } :=
  find_mapAll g.runners r fun k => { k with timer := tickTimer k.timer }

theorem Garage.tick_remaining (d : Due) : g.tick.remaining d = tickTimer (g.remaining d) := by
  unfold Garage.remaining
  cases d with
  | move l => exact g.tick_moveTimer l
  | pickup r =>
    dsimp only
    rw [g.tick_runner]
    cases g.runners.find r <;> rfl
  | hold n =>
    dsimp only
    rw [g.tick_ticket]
    cases g.ticket n <;> rfl

/-- The tick's own effects leave what the alerts say as it was. -/
theorem Garage.tick_expiryAlert (d : Due) : g.tick.expiryAlert d = g.expiryAlert d :=
  Garage.expiryAlert_congr g.tick_inFlight (fun r => by rw [g.tick_runner, Option.map_map]; rfl)
    (fun n => by rw [g.tick_ticket, Option.map_map]; rfl) (fun n => by rw [g.tick_ticket, Option.map_map]; rfl) d

/-- The tick brings a timer to 0 when its count is 1, or stands at 0 already. -/
theorem tickTimer_expires (t : Option Nat) : tickTimer t = some 0 ↔ ∃ k, t = some k ∧ k ≤ 1 := by
  unfold tickTimer
  rw [Option.map_eq_some_iff]
  simp only [Nat.sub_eq_zero_iff_le]

theorem Garage.remaining_pickup {g : Garage} (r : Nat) :
    g.remaining (.pickup r) = some 0 ↔ ∃ k, g.runners.find r = some k ∧ k.timer = some 0 :=
  Option.bind_eq_some_iff

theorem Garage.remaining_hold {g : Garage} (n : Nat) :
    g.remaining (.hold n) = some 0 ↔ ∃ x, g.ticket n = some x ∧ x.holdTimer = some 0 :=
  Option.bind_eq_some_iff

end

/-! ### The commands that are a tick -/

theorem State.tickExpiring_due {s : State} {d : Due} (h : s.ticked.garage.remaining d = some 0) :
    s.tickExpiring d = s.ticked.expireAll (d :: s.ticked.garage.dueOrder.filter (· ≠ d)) := if_pos h

theorem State.tickExpiring_idle {s : State} {d : Due} (h : s.ticked.garage.remaining d ≠ some 0) :
    s.tickExpiring d = s := if_neg h

/-- The expiry command of a timer. -/
def Due.command : Due → Instr
  | .move l => .moveTimerExpiry l
  | .pickup r => .pickupTimerExpiry r
  | .hold n => .holdTimerExpiry n

theorem exec_dueCommand (d : Due) (s : State) : exec d.command s = s.react (State.tickExpiring d) := by cases d <;> rfl

/-- The expiry command of a timer that the tick brings to 0 tells of that expiry. -/
theorem Due.command_tells {s : State} (hp : s.powered = true) {d : Due} {a : Nat × List Byte}
    (due : tickTimer (s.garage.remaining d) = some 0) (h : s.garage.expiryAlert d = some a) :
    ∃ t, exec d.command s = .next t ∧ t.garage.seconds = s.ticked.garage.seconds ∧ Told s.ticked t a.1 a.2 := by
  have due' : s.ticked.garage.remaining d = some 0 := (s.garage.tick_remaining d).trans due
  have told := State.expireAll_told due' ((s.garage.tick_expiryAlert d).trans h) (s.ticked.garage.dueOrder.filter (· ≠ d))
  refine ⟨_, (exec_dueCommand d s).trans (s.react_next _ hp), ?_, ?_⟩ <;> rw [State.tickExpiring_due due']
  · exact ((State.Follows.expireAll _ s.ticked).trans (.underHold _)).seconds
  · exact told.quiet (State.underHold_lineQuiet _)

/-- The expiry command of a timer that the tick does not bring to 0 changes nothing. -/
theorem Due.command_idle {s : State} (hp : s.powered = true) (hold : s.line.pollHold = false) {d : Due}
    (h : ¬ tickTimer (s.garage.remaining d) = some 0) : exec d.command s = .next s := by
  have idle : s.ticked.garage.remaining d ≠ some 0 := by
    show s.garage.tick.remaining d ≠ some 0
    rwa [s.garage.tick_remaining]
  rw [exec_dueCommand, s.react_next _ hp, State.tickExpiring_idle idle, State.underHold_quiet hold]

/-- Settles O47: the named expiry is the first event of its tick, and what it tells stays told to the end of the tick. -/
theorem expiriesTaken : Obligations.ExpiriesTaken := by
  intro s hp g last comes
  have told (d : Due) {alert : Nat} {args : List Byte} (due : tickTimer (g.remaining d) = some 0)
      (h : g.expiryAlert d = some (alert, args)) : comes (exec d.command s) alert args :=
    Due.command_tells hp due h
  have timer (t : Option Nat) : tickTimer t = some 0 ↔ last t := tickTimer_expires t
  have runner {r : Nat} {k : Runner} (h : g.runners.find r = some k) : g.remaining (.pickup r) = k.timer := by
    unfold Garage.remaining; dsimp only; rw [h]; rfl
  have ticket {n : Nat} {x : Ticket} (h : g.ticket n = some x) : g.remaining (.hold n) = x.holdTimer := by
    unfold Garage.remaining; dsimp only; rw [h]; rfl
  refine ⟨fun l m due flies => ?_, fun r k found due => ?_, fun n x found due => ?_, fun hold => ⟨fun l idle => ?_,
    fun r idle => ?_, fun n idle => ?_⟩⟩
  · exact told (.move l) ((timer _).mpr due) (Garage.expiryAlert_move flies)
  · exact told (.pickup r) (by rw [runner found]; exact (timer _).mpr due) (Garage.expiryAlert_pickup found)
  · exact told (.hold n) (by rw [ticket found]; exact (timer _).mpr due) (Garage.expiryAlert_hold found)
  · exact Due.command_idle (d := .move l) hp hold (mt (timer _).mp idle)
  · refine Due.command_idle (d := .pickup r) hp hold fun due => ?_
    obtain ⟨c, counts, hc⟩ := (timer _).mp due
    obtain ⟨k, found, hk⟩ := Option.bind_eq_some_iff.mp counts
    exact idle k found ⟨c, hk, hc⟩
  · refine Due.command_idle (d := .hold n) hp hold fun due => ?_
    obtain ⟨c, counts, hc⟩ := (timer _).mp due
    obtain ⟨x, found, hx⟩ := Option.bind_eq_some_iff.mp counts
    exact idle x found ⟨c, hx, hc⟩

end Sys2Proof.Machine

namespace Sys2Proof.Machine

/-! ### Records whose timer has been reloaded

The expiries of a tick are taken in an order that is a free value (log 24), so what holds in their course is said of the
list of those already taken. -/

/-- A record whose timer stood at 0, changed by `f` once its expiry has been taken. -/
def reloadIf {α : Type} (timer : α → Option Nat) (f : α → α) (taken : Prop) [Decidable taken] (a : α) : α :=
  if timer a = some 0 ∧ taken then f a else a

section
variable {α β : Type} {timer : α → Option Nat} {f : α → α}

theorem reloadIf_not {taken : Prop} [Decidable taken] (h : ¬ taken) (a : α) : reloadIf timer f taken a = a :=
  if_neg fun k => h k.2

theorem reloadIf_congr {p q : Prop} [Decidable p] [Decidable q] {a : α} (h : timer a = some 0 → (p ↔ q)) :
    reloadIf timer f p a = reloadIf timer f q a := if_congr (and_congr_right h) rfl rfl

/-- What the reload leaves alone. -/
theorem map_reloadIf {field : α → β} (keeps : ∀ a, field (f a) = field a) (taken : Prop) [Decidable taken] (o : Option α) :
    (o.map (reloadIf timer f taken)).map field = o.map field := by
  rw [Option.map_map]
  refine congrArg (Option.map · o) (funext fun a => ?_)
  show field (reloadIf timer f taken a) = field a
  unfold reloadIf
  split
  · exact keeps a
  · rfl

/-- Reloading a timer once more changes nothing. -/
theorem reloadIf_again (once : ∀ a, f (f a) = f a) {p q : Prop} [Decidable p] [Decidable q] (hq : q) {a : α}
    (h : timer a = some 0) : f (reloadIf timer f p a) = reloadIf timer f q a := by
  have reloaded : reloadIf timer f q a = f a := if_pos ⟨h, hq⟩
  rw [reloaded]
  unfold reloadIf
  split
  · exact once a
  · rfl

/-- A table in which the timers of `done` have been reloaded, when one more is. -/
theorem find_adjust_reloadIf {due : Nat → Due} (distinct : ∀ {a b}, due a = due b → a = b) (once : ∀ a, f (f a) = f a)
    {low now : Table α} {done : List Due} (h : ∀ m, now.find m = (low.find m).map (reloadIf timer f (due m ∈ done)))
    {n : Nat} (zero : ∀ a, low.find n = some a → timer a = some 0) (m : Nat) :
    (now.adjust n f).find m = (low.find m).map (reloadIf timer f (due m ∈ due n :: done)) := by
  by_cases e : m = n
  · subst e
    rw [find_adjust_self, h, Option.map_map]
    exact Option.map_congr fun a ha => reloadIf_again once List.mem_cons_self (zero a ha)
  · rw [find_adjust_ne now f e, h]
    exact Option.map_congr fun a _ => reloadIf_congr fun _ =>
      ⟨List.mem_cons_of_mem _, fun k => (List.mem_cons.mp k).resolve_left fun k => e (distinct k)⟩

/-- The list of the expiries taken may be any with the same members. -/
theorem find_reloadIf_congr {due : Nat → Due} {low now : Table α} {done done' : List Due}
    (h : ∀ m, now.find m = (low.find m).map (reloadIf timer f (due m ∈ done))) (same : ∀ m, due m ∈ done ↔ due m ∈ done')
    (m : Nat) : now.find m = (low.find m).map (reloadIf timer f (due m ∈ done')) :=
  (h m).trans (Option.map_congr fun _ _ => reloadIf_congr fun _ => same m)

end

/-! ### A tick that brings no move timer to 0 (R167, R182) -/

/-- R167: the pickup timer reloads. -/
def Runner.reload (period : Nat) (k : Runner) : Runner := { k with timer := some period }

/-- R182: the hold timer reloads. -/
def Ticket.reload (period : Nat) (x : Ticket) : Ticket := { x with holdTimer := some period }

/-- The garage `low` when the expiries of `done` have been taken in it. -/
structure Reloaded (low : Garage) (done : List Due) (g : Garage) : Prop where
  others : g = { low with runners := g.runners, tickets := g.tickets }
  runner : ∀ r, g.runners.find r = (low.runners.find r).map
    (reloadIf Runner.timer (Runner.reload low.pickupPeriod) (.pickup r ∈ done))
  ticket : ∀ n, g.tickets.find n = (low.tickets.find n).map
    (reloadIf Ticket.holdTimer (Ticket.reload low.holdPeriod) (.hold n ∈ done))

namespace Reloaded

variable {low g : Garage} {done : List Due}

theorem start (low : Garage) : Reloaded low [] low :=
  ⟨rfl, fun r => by rw [funext (reloadIf_not List.not_mem_nil), Option.map_id'],
    fun n => by rw [funext (reloadIf_not List.not_mem_nil), Option.map_id']⟩

theorem lift (h : Reloaded low done g) (l : Lift) : g.lift l = low.lift l := by
  rw [h.others]
  rfl

theorem congr {done' : List Due} (h : Reloaded low done g) (same : ∀ d, d ∈ done ↔ d ∈ done') : Reloaded low done' g :=
  ⟨h.others, find_reloadIf_congr h.runner fun _ => same _, find_reloadIf_congr h.ticket fun _ => same _⟩

/-- Reloads leave what the alerts say as it was. -/
theorem expiryAlert (h : Reloaded low done g) (d : Due) : g.expiryAlert d = low.expiryAlert d := by
  have runner (r : Nat) := map_reloadIf (f := Runner.reload low.pickupPeriod) (timer := Runner.timer)
    (field := Runner.ticket) (fun _ => rfl) (Due.pickup r ∈ done) (low.runners.find r)
  have ticket {β : Type} (field : Ticket → β) (keeps : ∀ x, field (Ticket.reload low.holdPeriod x) = field x) (n : Nat) :
      (g.ticket n).map field = (low.ticket n).map field := by
    unfold Garage.ticket
    rw [h.ticket]
    exact map_reloadIf keeps _ _
  exact Garage.expiryAlert_congr (fun l => by rw [h.lift]) (fun r => by rw [h.runner, runner])
    (ticket Ticket.location fun _ => rfl) (ticket Ticket.bay fun _ => rfl) d

/-- A timer whose expiry has not been taken stands where the tick has brought it. -/
theorem remaining (h : Reloaded low done g) {d : Due} (hd : d ∉ done) : g.remaining d = low.remaining d := by
  unfold Garage.remaining
  cases d with
  | move l => dsimp only; rw [h.lift]
  | pickup r => dsimp only; rw [h.runner, funext (reloadIf_not hd), Option.map_id']
  | hold n =>
    dsimp only
    unfold Garage.ticket
    rw [h.ticket, funext (reloadIf_not hd), Option.map_id']

/-- One more expiry is taken. -/
theorem expires (h : Reloaded low done g) {d : Due} (due : low.remaining d = some 0) (still : ∀ l, d ≠ .move l) :
    Reloaded low (d :: done) (Machine.expires d ⟨g, []⟩).g := by
  obtain ⟨others, runner, ticket⟩ := h
  generalize g.runners = runners at others runner
  generalize g.tickets = tickets at others ticket
  subst others
  cases d with
  | move l => exact absurd rfl (still l)
  | pickup r =>
    obtain ⟨k', found', zero⟩ := (Garage.remaining_pickup r).mp due
    have timer (k : Runner) (found : low.runners.find r = some k) : k.timer = some 0 := by
      rw [found] at found'
      rwa [Option.some.inj found']
    exact ⟨rfl, find_adjust_reloadIf (f := Runner.reload _) (due := .pickup) Due.pickup.inj (fun _ => rfl) runner timer,
      find_reloadIf_congr ticket fun n => by simp⟩
  | hold n =>
    obtain ⟨x', found', zero⟩ := (Garage.remaining_hold n).mp due
    have timer (x : Ticket) (found : low.tickets.find n = some x) : x.holdTimer = some 0 := by
      rw [Garage.ticket, found] at found'
      rwa [Option.some.inj found']
    exact ⟨rfl, find_reloadIf_congr runner fun r => by simp,
      find_adjust_reloadIf (f := Ticket.reload _) (due := .hold) Due.hold.inj (fun _ => rfl) ticket timer⟩

end Reloaded

/-- The state `s` when the expiries of `done` have been taken in it, each with its alert. -/
structure State.Expired (s : State) (done : List Due) (t : State) : Prop where
  follows : s.Follows t
  garage : Reloaded s.garage done t.garage
  told : ∀ d ∈ done, ∀ a, s.garage.expiryAlert d = some a → Told s t a.1 a.2

namespace State.Expired

variable {s t : State} {done : List Due}

theorem underHold (h : s.Expired done t) : s.Expired done t.underHold :=
  have q := t.underHold_lineQuiet
  ⟨h.follows.trans (.underHold t), q.garage.symm ▸ h.garage, fun d hd a ha => (h.told d hd a ha).quiet q⟩

/-- One more expiry is taken: of a timer that another expiry has reloaded, or of one at 0. -/
theorem expire (h : s.Expired done t) {d : Due} (due : s.garage.remaining d = some 0) (still : ∀ l, d ≠ .move l) :
    s.Expired (d :: done) (t.expire d).underHold := by
  have follows := (h.follows.trans (.expire t d)).trans (.underHold _)
  have q := (t.expire d).underHold_lineQuiet
  rcases expire_cases t d with ⟨zero, e⟩ | ⟨nonzero, e⟩
  · refine ⟨follows, ?_, fun d' hd a ha => ?_⟩
    · rw [q.garage, e]
      exact h.garage.expires due still
    · rcases List.mem_cons.mp hd with rfl | hd
      · exact h.follows.told zero ((h.garage.expiryAlert _).trans ha)
      · rw [e]
        exact .quiet ((h.told d' hd a ha).run h.follows.notices _) (State.underHold_lineQuiet _)
  · have taken : d ∈ done := by
      by_contra hd
      exact nonzero ((h.garage.remaining hd).trans due)
    have same (d' : Due) : d' ∈ done ↔ d' ∈ d :: done :=
      ⟨List.mem_cons_of_mem _, fun k => (List.mem_cons.mp k).elim (fun e => e ▸ taken) id⟩
    rw [e]
    have kept := h.underHold
    exact ⟨kept.follows, kept.garage.congr same, fun d' hd => kept.told d' ((same d').mpr hd)⟩

theorem expireAll (ds : List Due) (h : s.Expired done t) (due : ∀ d ∈ ds, s.garage.remaining d = some 0)
    (still : ∀ d ∈ ds, ∀ l, d ≠ .move l) : ∃ taken, (∀ d, d ∈ taken ↔ d ∈ ds ∨ d ∈ done) ∧ s.Expired taken (t.expireAll ds) := by
  induction ds generalizing t done with
  | nil => exact ⟨done, by simp, h⟩
  | cons d ds ih =>
    obtain ⟨taken, mem, k⟩ := ih (h.expire (due d List.mem_cons_self) (still d List.mem_cons_self))
      (fun d hd => due d (List.mem_cons_of_mem _ hd)) fun d hd => still d (List.mem_cons_of_mem _ hd)
    refine ⟨taken, fun x => ?_, k⟩
    rw [mem, List.mem_cons, List.mem_cons]
    tauto

end State.Expired

end Sys2Proof.Machine

namespace Sys2Proof.Machine

/-! ### A tick, and the expiry command that is one (log 24) -/

/-- A command that brings about a tick in which the expiries `ds` are taken, in that order: those of the timers that the
tick brings to 0. -/
structure State.Ticks (s : State) (ds : List Due) (t : State) : Prop where
  eq : t = (s.ticked.expireAll ds).underHold
  mem : ∀ d, d ∈ ds ↔ s.ticked.garage.remaining d = some 0
  only : ∀ d, s.ticked.garage.dueOrder = [d] → ds = [d]

theorem execTick_ticks {s : State} (hp : s.powered = true) : ∃ ds t, exec .tick s = .next t ∧ s.Ticks ds t :=
  ⟨s.ticked.garage.dueOrder, _, s.react_next (fun s => s.ticked.expireAll s.ticked.garage.dueOrder) hp, rfl,
    mem_dueOrder _, fun _ h => h⟩

theorem Due.command_ticks {s : State} (hp : s.powered = true) {d : Due} (due : s.ticked.garage.remaining d = some 0) :
    ∃ ds t, exec d.command s = .next t ∧ s.Ticks ds t := by
  refine ⟨_, _, (exec_dueCommand d s).trans (s.react_next _ hp), by rw [State.tickExpiring_due due], mem_dueFirst due,
    fun d' h => ?_⟩
  have same : d = d' := by
    have := (mem_dueOrder s.ticked.garage d).mpr due
    rw [h] at this
    exact List.mem_singleton.mp this
  rw [h, same]
  simp

/-- The only timer at 0 is a lift's move timer: its expiry is the only one due. -/
theorem Garage.dueOrder_move {g : Garage} {l : Lift} (due : (g.lift l).moveTimer = some 0)
    (other : (g.lift (otherLift l)).moveTimer ≠ some 0) (pickups : ∀ r, g.remaining (.pickup r) ≠ some 0)
    (holds : ∀ n, g.remaining (.hold n) ≠ some 0) : g.dueOrder = [.move l] := by
  have runners : ((g.runners.map fun kv => Due.pickup kv.1).filter fun d => g.remaining d == some 0) = [] :=
    List.filter_eq_nil_iff.mpr fun d hd => by
      obtain ⟨kv, -, rfl⟩ := List.mem_map.mp hd
      simpa using pickups kv.1
  have tickets : ((g.tickets.map fun kv => Due.hold kv.1).filter fun d => g.remaining d == some 0) = [] :=
    List.filter_eq_nil_iff.mpr fun d hd => by
      obtain ⟨kv, -, rfl⟩ := List.mem_map.mp hd
      simpa using holds kv.1
  have move (x : Lift) : g.remaining (.move x) = (g.lift x).moveTimer := rfl
  have moves : ([.move .a, .move .b].filter fun d => g.remaining d == some 0) = [.move l] := by
    cases l <;> simp_all [otherLift]
  have all : g.due = [.move l] := by
    unfold Garage.due Garage.timers
    rw [List.filter_append, List.filter_append, moves, runners, tickets]
    rfl
  unfold Garage.dueOrder
  rw [all]
  rfl

namespace State.Ticks

variable {s t : State} {ds : List Due}

theorem follows (h : s.Ticks ds t) : s.ticked.Follows t :=
  h.eq ▸ (State.Follows.expireAll ds s.ticked).trans (.underHold _)

/-- A tick that brings no timer to 0 does what it does of its own, and no more. -/
theorem idle (h : s.Ticks ds t) (hold : s.line.pollHold = false)
    (none_due : ∀ d, s.ticked.garage.remaining d ≠ some 0) : t = s.ticked := by
  have empty : ds = [] := List.eq_nil_iff_forall_not_mem.mpr fun d hd => none_due d ((h.mem d).mp hd)
  rw [h.eq, empty]
  exact State.underHold_quiet hold

/-- A tick that brings no move timer to 0 reloads the timers that it brings to 0, each with its alert. -/
theorem expired (h : s.Ticks ds t) (still : ∀ l, s.ticked.garage.remaining (.move l) ≠ some 0) :
    ∃ taken, (∀ d, d ∈ taken ↔ s.ticked.garage.remaining d = some 0) ∧ s.ticked.Expired taken t := by
  have start : s.ticked.Expired [] s.ticked := ⟨.refl _, .start _, fun _ hd => absurd hd List.not_mem_nil⟩
  obtain ⟨taken, mem, done⟩ := start.expireAll ds (fun d hd => (h.mem d).mp hd) fun d hd l e =>
    still l (e ▸ (h.mem d).mp hd)
  refine ⟨taken, fun d => ?_, h.eq ▸ done.underHold⟩
  rw [mem, h.mem]
  simp

/-- A tick that brings one timer to 0, a lift's move timer with a move in flight, leaves that move unresolved. -/
theorem timedOut (h : s.Ticks ds t) {l : Lift} {m : Move} (only : s.ticked.garage.dueOrder = [.move l])
    (flies : (s.ticked.garage.lift l).inFlight = some m) :
    t.garage = (((s.ticked.garage.faultLift l).leaveUnresolved l m).takeOff l).afterwards ∧
      Told s.ticked t 12 (w8 (liftCode l) ++ w8 m.number ++ w16 m.ticket) := by
  have due : s.ticked.garage.remaining (.move l) = some 0 := (mem_dueOrder _ _).mp (only ▸ List.mem_singleton_self _)
  rw [h.eq, h.only _ only]
  refine ⟨?_, (State.expireAll_told due (Garage.expiryAlert_move flies) []).quiet (State.underHold_lineQuiet _)⟩
  calc (s.ticked.expireAll [.move l]).underHold.garage
      = (s.ticked.expire (.move l)).underHold.garage := (State.underHold_lineQuiet _).garage
    _ = (s.ticked.expire (.move l)).garage := (State.underHold_lineQuiet _).garage
    _ = (moveExpires l ⟨s.ticked.garage, []⟩).g := by unfold State.expire; rw [if_pos due]; rfl
    _ = _ := by rw [moveExpires_inFlight (e := ⟨s.ticked.garage, []⟩) flies, settle_g]; rfl

end State.Ticks

/-- Busy seconds and the move timer of a lift unit under a tick, as R176 and R189 put them. -/
theorem LiftUnit.tick_eq (u : LiftUnit) (measuring : Bool) : u.tick measuring = { u with
    moveTimer := u.moveTimer.map fun n => n - 1
    busySeconds :=
      if measuring = true ∧ u.state = .moving then (u.busySeconds + 1) % 4294967296 else u.busySeconds } := by
  unfold LiftUnit.tick tickTimer Config.max32
  simp only [Bool.and_eq_true, beq_iff_eq]

/-- Settles O46: the tick, or the expiry command that is that tick, lowers the counts and then takes the expiries due;
each leaves the alerts of those before it on their way. -/
theorem tickAdvances : Obligations.TickAdvances := by
  intro s hp g down lift low ticked pickup hold c hc
  have lowered : low = g.tick := by
    have minute : g.secsIntoMinute + 1 = 60 ↔ g.secsIntoMinute = 59 := by omega
    unfold Garage.tick
    simp only [LiftUnit.tick_eq, minute]
    rfl
  clear_value low
  subst lowered
  have moveDue (l : Lift) : ticked.garage.remaining (.move l) = (g.tick.lift l).moveTimer := rfl
  have pickupDue (r : Nat) : ticked.garage.remaining (.pickup r) = some 0 ↔ ∃ k, pickup r k := Garage.remaining_pickup r
  have holdDue (n : Nat) : ticked.garage.remaining (.hold n) = some 0 ↔ ∃ x, hold n x := Garage.remaining_hold n
  obtain ⟨ds, t, next, ticks⟩ : ∃ ds t, exec c s = .next t ∧ s.Ticks ds t := by
    rcases hc with rfl | ⟨l, rfl, due⟩ | ⟨r, k, rfl, due⟩ | ⟨n, x, rfl, due⟩
    · exact execTick_ticks hp
    · exact Due.command_ticks (d := .move l) hp due
    · exact Due.command_ticks (d := .pickup r) hp ((pickupDue r).mpr ⟨k, due⟩)
    · exact Due.command_ticks (d := .hold n) hp ((holdDue n).mpr ⟨x, due⟩)
  have f := ticks.follows
  refine ⟨t, next, ⟨f.rest.powered, f.rest.storeHeld, f.rest.pending, f.rest.lines⟩, f.onS, f.onG,
    fun quiet moves pickups holds => ticks.idle quiet fun d => ?_, fun moves => ?_, fun l m due flies other pickups holds => ?_⟩
  · cases d with
    | move l => exact moves l
    | pickup r => exact fun due => (pickupDue r).mp due |>.elim (pickups r)
    | hold n => exact fun due => (holdDue n).mp due |>.elim (holds n)
  · obtain ⟨taken, mem, done⟩ := ticks.expired moves
    refine ⟨done.garage.others, fun r => (done.garage.runner r).trans (Option.map_congr fun k found => ?_),
      fun n => (done.garage.ticket n).trans (Option.map_congr fun x found => ?_),
      fun r k due => done.told (.pickup r) ((mem _).mpr ((pickupDue r).mpr ⟨k, due⟩)) _ (Garage.expiryAlert_pickup due.1),
      fun n x due => done.told (.hold n) ((mem _).mpr ((holdDue n).mpr ⟨x, due⟩)) _ (Garage.expiryAlert_hold due.1)⟩
    · exact if_congr ⟨And.left, fun zero => ⟨zero, (mem _).mpr ((pickupDue r).mpr ⟨k, found, zero⟩)⟩⟩ rfl rfl
    · exact if_congr ⟨And.left, fun zero => ⟨zero, (mem _).mpr ((holdDue n).mpr ⟨x, found, zero⟩)⟩⟩ rfl rfl
  · have only : ticked.garage.dueOrder = [.move l] := Garage.dueOrder_move due other
      (fun r due => (pickupDue r).mp due |>.elim (pickups r)) fun n due => (holdDue n).mp due |>.elim (holds n)
    obtain ⟨garage, told⟩ := ticks.timedOut only flies
    refine ⟨?_, told⟩
    rw [garage, Garage.faultLift_eq]
    rfl

end Sys2Proof.Machine

namespace Sys2Proof.Machine

/-! ### A runner assigned, freed and released (R164, R165) -/

section
variable {r n : Nat} {t : Ticket} {e : Ev}

theorem assign_ticket (ht : e.g.ticket n = some t) : assign r n e =
    ⟨(e.g.modRunner r fun _ => ⟨.assigned, some n, some e.g.pickupPeriod⟩).modTicket n fun t => { t with runner := some r },
      e.out ++ [runnerTaskFrame r n t]⟩ := by
  have named := ticket_modTicket (e.g.modRunner r fun _ => ⟨.assigned, some n, some e.g.pickupPeriod⟩) n
    fun t => { t with runner := some r }
  rw [show (e.g.modRunner r _).ticket n = some t from ht] at named
  unfold assign
  dsimp only [Ev.modG]
  rw [named]
  rfl

theorem freeRunner_joins (hw : e.g.waitList = []) : freeRunner r e =
    ⟨{ e.g.modRunner r (fun _ => ⟨.free, none, none⟩) with freeList := e.g.freeList ++ [r] }, e.out⟩ := by
  unfold freeRunner
  rw [hw]
  rfl

theorem freeRunner_takes {rest : List Nat} (hw : e.g.waitList = n :: rest) (ht : e.g.ticket n = some t) : freeRunner r e =
    ⟨(Garage.modRunner { e.g with waitList := rest } r fun _ => ⟨.assigned, some n, some e.g.pickupPeriod⟩).modTicket n
        fun t => { t with runner := some r },
      e.out ++ [runnerTaskFrame r n t]⟩ := by
  unfold freeRunner
  rw [hw]
  exact assign_ticket (e := e.modG fun g => { g with waitList := rest }) ht

/-- The blocks once a ticket names no runner. -/
def Garage.untied (g : Garage) (n : Nat) : Garage := g.modTicket n fun t => { t with runner := none }

/-- RUNNER_TASK does not show the runner of its ticket's record. -/
theorem Garage.untied_task {g : Garage} (ht : g.ticket n = some t) (m r : Nat) :
    ∃ x, (g.untied m).ticket n = some x ∧ runnerTaskFrame r n x = runnerTaskFrame r n t := by
  by_cases same : n = m
  · subst same
    exact ⟨{ t with runner := none }, (ticket_modTicket g n _).trans (congrArg _ ht), rfl⟩
  · exact ⟨t, (ticket_modTicket_ne g _ same).trans ht, rfl⟩

section
variable (ht : e.g.ticket n = some t)
include ht

theorem releaseRunner_none (hr : t.runner = none) : releaseRunner n e = e := by
  unfold releaseRunner
  rw [ht, Option.bind_some, hr]

theorem releaseRunner_some (hr : t.runner = some r) : releaseRunner n e =
    if (e.g.runner r).state = .offPending then ⟨(e.g.untied n).modRunner r fun _ => Runner.reset, e.out⟩
    else freeRunner r ⟨e.g.untied n, e.out⟩ := by
  unfold releaseRunner
  rw [ht, Option.bind_some, hr]
  rfl

end

/-- A reply queued first leaves the giving of a runner as it is. -/
theorem giveRunner_adds (n : Nat) (g : Garage) (out : List Out) :
    ∃ more, giveRunner n ⟨g, out⟩ = ⟨(giveRunner n ⟨g, []⟩).g, out ++ more⟩ :=
  adds (giveRunner_works n) (fun _ _ h => giveRunner_blind n h) g out

end

/-! ### RUNNER_ON and RUNNER_OFF by the runner (R162, R163) -/

section
variable {c : Caller} {pl : List Byte} {e : Ev}

theorem runnerInRange_false {r : Nat} (h : r < 1 ∨ 32 < r) : runnerInRange r = false := by
  rw [Bool.eq_false_iff, ne_eq, runnerInRange_iff]
  omega

theorem runnerOn_noRunner (h : u8 pl 0 < 1 ∨ 32 < u8 pl 0) : runnerOn c pl e = e.badRequest c Kind.runnerOn 0 := by
  unfold runnerOn
  rw [runnerInRange_false h]
  rfl

theorem runnerOff_noRunner (h : u8 pl 0 < 1 ∨ 32 < u8 pl 0) : runnerOff c pl e = e.badRequest c Kind.runnerOff 0 := by
  unfold runnerOff
  rw [runnerInRange_false h]
  rfl

theorem runnerOn_inRange (h1 : 1 ≤ u8 pl 0) (h2 : u8 pl 0 ≤ 32) : runnerOn c pl e = runnerOnFor c (u8 pl 0) e :=
  if_pos ((runnerInRange_iff _).mpr ⟨h1, h2⟩)

theorem runnerOff_inRange (h1 : 1 ≤ u8 pl 0) (h2 : u8 pl 0 ≤ 32) : runnerOff c pl e = runnerOffFor c (u8 pl 0) e :=
  if_pos ((runnerInRange_iff _).mpr ⟨h1, h2⟩)

theorem Garage.signedOn_free {g : Garage} (hw : g.waitList = []) : g.signedOn = ⟨.free, none, none⟩ := by
  unfold Garage.signedOn
  rw [hw]

theorem Garage.signedOn_assigned {g : Garage} {n : Nat} {rest : List Nat} (hw : g.waitList = n :: rest) :
    g.signedOn = ⟨.assigned, some n, some g.pickupPeriod⟩ := by
  unfold Garage.signedOn
  rw [hw]

variable {r : Nat}

/-- The reply about a runner whose state is known (R194, R198). -/
theorem Ev.runnerReply_state {kind : Byte} {res : Result} {k : Runner} {state : RunnerState} (h : k.state = state) :
    e.runnerReply c kind res r k = e.reply c kind res (w8 r ++ w8 (runnerStateCode state) ++ w16 (orZero k.ticket)) := by
  rw [← h]
  rfl

theorem runnerOnFor_off (h : (e.g.runner r).state = .off) :
    runnerOnFor c r e = freeRunner r (e.runnerReply c Kind.runnerOn .taken r e.g.signedOn) := by
  unfold runnerOnFor
  dsimp only
  rw [h]

theorem runnerOnFor_offPending (h : (e.g.runner r).state = .offPending) : runnerOnFor c r e =
    (e.modG fun g => g.modRunner r fun k => { k with state := .assigned }).runnerReply c Kind.runnerOn .taken r
      { e.g.runner r with state := .assigned } := by
  unfold runnerOnFor
  dsimp only
  rw [h]

theorem runnerOnFor_signedOn (h : (e.g.runner r).state = .free ∨ (e.g.runner r).state = .assigned) :
    runnerOnFor c r e = e.runnerReply c Kind.runnerOn .inProgress r (e.g.runner r) := by
  unfold runnerOnFor
  dsimp only
  rcases h with h | h <;> rw [h]

theorem runnerOffFor_free (h : (e.g.runner r).state = .free) : runnerOffFor c r e =
    (e.modG fun g => { g.modRunner r (fun _ => Runner.reset) with freeList := g.freeList.filter (· != r) }).runnerReply c
      Kind.runnerOff .taken r Runner.reset := by
  unfold runnerOffFor
  dsimp only
  rw [h]

theorem runnerOffFor_assigned (h : (e.g.runner r).state = .assigned) : runnerOffFor c r e =
    (e.modG fun g => g.modRunner r fun k => { k with state := .offPending }).runnerReply c Kind.runnerOff .taken r
      { e.g.runner r with state := .offPending } := by
  unfold runnerOffFor
  dsimp only
  rw [h]

theorem runnerOffFor_off (h : (e.g.runner r).state = .off) :
    runnerOffFor c r e = e.runnerReply c Kind.runnerOff .notApplicable r (e.g.runner r) := by
  unfold runnerOffFor
  dsimp only
  rw [h]

theorem runnerOffFor_offPending {n : Nat} {t : Ticket} (h : (e.g.runner r).state = .offPending)
    (hn : (e.g.runner r).ticket = some n) (ht : e.g.ticket n = some t) : runnerOffFor c r e =
      if t.state = .ready then secondRunnerOff c r n e
      else e.runnerReply c Kind.runnerOff .inProgress r (e.g.runner r) := by
  unfold runnerOffFor
  dsimp only
  rw [h, hn]
  dsimp only
  rw [ht, Option.map_some]
  simp only [Option.some.injEq]

end

/-! ### RUNNER_ON and RUNNER_OFF as a whole -/

section
variable {s : State} {st : Station} {pl : List Byte} (flags : Byte) (ask : AskedBy s st .runnerBase) (hl : pl.length = 1)
include ask hl

theorem runnerOn_replies {g : Garage} {res : Result} {detail : List Byte}
    (h : runnerOn ⟨.s, st.number, st.role⟩ pl ⟨s.garage, []⟩ = ⟨g, [replyOut st Kind.runnerOn res detail]⟩) :
    Replies (exec (.runnerOn .s flags pl) s) s st g Kind.runnerOn res detail :=
  Replies.of_event ask rfl (by decide) (.of_both hl (by decide) rfl rfl (by decide) (by decide)) h

/-- A sign-on whose runner has a ticket waiting for it: the reply, and then RUNNER_TASK. -/
theorem runnerOn_tasks {g : Garage} {res : Result} {detail : List Byte} {o : Out} (ho : o.dest = .role .runnerBase)
    (h : runnerOn ⟨.s, st.number, st.role⟩ pl ⟨s.garage, []⟩ = ⟨g, [replyOut st Kind.runnerOn res detail, o]⟩) :
    ∃ u, exec (.runnerOn .s flags pl) s = .next u ∧ u.garage = g ∧ Answered s u st Kind.runnerOn res detail ∧
      Sends s u .runnerBase o.kind o.payload := by
  obtain ⟨u, comes⟩ := s.frame_comes st .runnerBase Kind.runnerOn flags pl runnerOn ask rfl (by decide)
    (.of_both hl (by decide) rfl rfl (by decide) (by decide))
  rw [h] at comes
  exact ⟨u, comes.next, comes.garage, ⟨comes.heard, comes.answers _ _ _ _ _ rfl (by decide)⟩,
    comes.sends o (by simp) .runnerBase ho⟩

theorem runnerOff_replies {g : Garage} {res : Result} {detail : List Byte} {more : List Out}
    (h : runnerOff ⟨.s, st.number, st.role⟩ pl ⟨s.garage, []⟩ = ⟨g, replyOut st Kind.runnerOff res detail :: more⟩) :
    Replies (exec (.runnerOff .s flags pl) s) s st g Kind.runnerOff res detail :=
  Replies.of_event ask rfl (by decide) (.of_both hl (by decide) rfl rfl (by decide) (by decide)) h

end

/-- Settles O29: RUNNER_ON and RUNNER_OFF by the state of the runner, a lemma for each, and the giving and the release
of a runner by whether a list has a head. -/
theorem runnersSignOnAndOff : Obligations.RunnersSignOnAndOff := by
  refine ⟨fun s st flags pl ask hl => ?_, fun n t e ht => ?_⟩
  · intro g r k set on off shown
    refine ⟨fun h => ⟨runnerOn_replies flags ask hl (runnerOn_noRunner h),
      runnerOff_replies flags ask hl (runnerOff_noRunner h)⟩, fun h1 h2 => ?_⟩
    have signOn := runnerOn_inRange (c := ⟨.s, st.number, st.role⟩) (e := ⟨g, []⟩) h1 h2
    have signOff := runnerOff_inRange (c := ⟨.s, st.number, st.role⟩) (e := ⟨g, []⟩) h1 h2
    refine ⟨fun hk hw => ?_, fun n rest t hk hw ht => ?_,
      fun hk => runnerOn_replies flags ask hl (signOn.trans (runnerOnFor_offPending hk)),
      fun hk => runnerOn_replies flags ask hl (signOn.trans (runnerOnFor_signedOn hk)),
      fun hk => runnerOff_replies flags ask hl (signOff.trans (runnerOffFor_free hk)),
      fun hk => runnerOff_replies flags ask hl (signOff.trans (runnerOffFor_assigned hk)), fun n t hk hn ht => ?_,
      fun hk => runnerOff_replies flags ask hl ((signOff.trans (runnerOffFor_off hk)).trans (Ev.runnerReply_state hk))⟩
    · refine runnerOn_replies flags ask hl ((signOn.trans (runnerOnFor_off hk)).trans ((freeRunner_joins hw).trans ?_))
      rw [Garage.signedOn_free hw]
      rfl
    · refine runnerOn_tasks flags ask hl (o := runnerTaskFrame r n t) rfl
        ((signOn.trans (runnerOnFor_off hk)).trans ((freeRunner_takes hw ht).trans ?_))
      rw [Garage.signedOn_assigned hw]
      rfl
    · have second := signOff.trans (runnerOffFor_offPending hk hn ht)
      refine ⟨fun ready => ?_, fun notReady => ?_⟩
      · obtain ⟨more, given⟩ := giveRunner_adds n ((g.modRunner r fun _ => Runner.reset).untied n)
          [replyOut st Kind.runnerOff .taken (shown 0 none)]
        exact runnerOff_replies flags ask hl ((second.trans (if_pos ready)).trans given)
      · exact runnerOff_replies flags ask hl ((second.trans (if_neg notReady)).trans (Ev.runnerReply_state hk))
  · refine ⟨fun r rest hf => giveRunner_assigns hf ht, fun hf => giveRunner_waits hf, releaseRunner_none ht, ?_⟩
    intro r hr freed set
    have released := releaseRunner_some ht hr
    refine ⟨fun pending => released.trans (if_pos pending), fun signed hw => ?_, fun m rest x signed hw hm => ?_⟩
    · exact (released.trans (if_neg signed)).trans (freeRunner_joins (e := ⟨e.g.untied n, e.out⟩) hw)
    · obtain ⟨y, hy, task⟩ := Garage.untied_task hm n r
      refine (released.trans (if_neg signed)).trans ((freeRunner_takes (e := ⟨e.g.untied n, e.out⟩) hw hy).trans ?_)
      rw [task]
      rfl

end Sys2Proof.Machine

namespace Sys2Proof.Machine

/-! ### SET_CLOCK (R178) -/

theorem Garage.setClock_set (g : Garage) {pl : List Byte} (h : u8 pl 0 ≠ 0) (minute : Nat) :
    g.setClock (flag8 pl 0) minute = { g with minute := minute, secsIntoMinute := 0 } := if_pos ((flag8_iff pl 0).mpr h)

theorem Garage.setClock_clear (g : Garage) {pl : List Byte} (h : ¬ u8 pl 0 ≠ 0) (minute : Nat) :
    g.setClock (flag8 pl 0) minute = g := if_neg (mt (flag8_iff pl 0).mp h)

/-- With either value of the flag, the reply shows the clock of the blocks that the request leaves. -/
theorem setClock_replies {s : State} {st : Station} (flags : Byte) {pl : List Byte} (ask : AskedBy s st .office)
    (hl : pl.length = 5) {after : Garage} (h : s.garage.setClock (flag8 pl 0) (u32 pl 1) = after) :
    Replies (exec (.setClock .s flags pl) s) s st after Kind.setClock .taken
      (w32 after.minute ++ w8 after.secsIntoMinute ++ w32 after.seconds) := by
  subst h
  exact Replies.of_event ask rfl (by decide) (.of_both hl (by decide) rfl rfl (by decide) (by decide)) (more := []) rfl

/-- Settles O36: the clock by the set flag, and one lemma for the reply of both cases. -/
theorem clockSet : Obligations.ClockSet := by
  intro s st flags pl ask hl
  dsimp only
  by_cases h : u8 pl 0 ≠ 0
  · rw [if_pos h]
    exact setClock_replies flags ask hl (s.garage.setClock_set h (u32 pl 1))
  · rw [if_neg h]
    exact setClock_replies flags ask hl (s.garage.setClock_clear h (u32 pl 1))

end Sys2Proof.Machine

namespace Sys2Proof.Machine

/-! ### The queue of commands

The commands that wait are the sender's (log 1): the operations of the block change the lines, the blocks behind the
ports and the supply, and none of them the queue. -/

/-- An operation of the block that leaves the queue of commands alone. -/
def KeepsQueue (f : State → State) : Prop := ∀ s, (f s).pending = s.pending

theorem KeepsQueue.comp {f g : State → State} (hg : KeepsQueue g) (hf : KeepsQueue f) : KeepsQueue fun s => g (f s) :=
  fun s => (hg (f s)).trans (hf s)

/-- An operation done in some states only. -/
theorem KeepsQueue.guard {f : State → State} (hf : KeepsQueue f) (b : State → Prop) [DecidablePred b] :
    KeepsQueue fun s => if b s then f s else s := fun s => by
  dsimp only
  split
  · exact hf s
  · rfl

/-! ### The lines -/

theorem sendNext_keepsQueue (p : Port) : KeepsQueue fun s => s.sendNext p := fun s => (s.sendNext_lineQuiet p).pending

theorem beginTurn_keepsQueue (p : Port) : KeepsQueue fun s => s.beginTurn p := fun s => (s.beginTurn_lineQuiet p).pending

theorem underHold_keepsQueue : KeepsQueue State.underHold := fun s => s.underHold_lineQuiet.pending

theorem heard_keepsQueue (p : Port) (st : Station) (a : Bool) : KeepsQueue fun s => s.heard p st a :=
  fun s => s.heard_pending p st a

theorem pollNext_keepsQueue (p : Port) : KeepsQueue fun s => s.pollNext p := by
  intro s
  unfold State.pollNext
  dsimp only
  split
  · split
    · rfl
    · split
      · rfl
      · exact beginTurn_keepsQueue p _
  · rfl

theorem chargeMiss_keepsQueue (p : Port) (st : Station) : KeepsQueue fun s => s.chargeMiss p st := by
  intro s
  unfold State.chargeMiss
  dsimp only
  (repeat' split) <;> rfl

theorem discardAnswer_keepsQueue (p : Port) (st : Station) : KeepsQueue fun s => s.discardAnswer p st :=
  fun s => heard_keepsQueue p st false (s.tallyFault p)

theorem route_keepsQueue (p : Port) (source : Nat) (f : Frame) : KeepsQueue fun s => s.route p source f := by
  intro s
  unfold State.route
  dsimp only
  (repeat' split) <;> rfl

theorem loseSending_keepsQueue (p : Port) : KeepsQueue fun s => s.loseSending p := by
  intro s
  unfold State.loseSending
  dsimp only
  split <;> rfl

/-! ### Line settings -/

theorem applyLine_keepsQueue (r : LineRequest) : KeepsQueue fun s => s.applyLine r := by
  intro s
  dsimp only
  cases h : r.port with
  | s => rw [s.applyLine_s h]; rfl
  | g => exact (s.applyLine_rest h).1

theorem applyAll_keepsQueue (due : List LineRequest) : KeepsQueue fun s => due.foldl State.applyLine s := by
  induction due with
  | nil => exact fun _ => rfl
  | cons r rest ih => exact ih.comp (applyLine_keepsQueue r)

theorem applyDue_keepsQueue (p : Port) : KeepsQueue fun s => s.applyDue p := by
  intro s
  cases p with
  | s => rfl
  | g => exact applyAll_keepsQueue s.line.lineDueG { s with line := { s.line with lineDueG := [] } }

theorem lineRequestDue_keepsQueue (r : LineRequest) : KeepsQueue fun s => s.lineRequestDue r :=
  fun s => (s.lineRequestDue_keeps r).1

/-! ### The ends of exchanges and of frames -/

theorem finishExchange_keepsQueue (p : Port) (more : Bool) : KeepsQueue fun s => s.finishExchange p more := by
  intro s
  unfold State.finishExchange
  dsimp only
  split
  · exact (beginTurn_keepsQueue p).comp (applyDue_keepsQueue p) (s.modPort p _)
  · rfl

theorem endExchange_keepsQueue (p : Port) {f : Station → State → State} (hf : ∀ st, KeepsQueue (f st)) :
    KeepsQueue fun s => s.endExchange p f := by
  intro s
  unfold State.endExchange
  dsimp only
  split
  · refine (finishExchange_keepsQueue p false _).trans ?_
    split
    · exact hf _ s
    · rfl
  · rfl

theorem dataFrame_keepsQueue (p : Port) (flags : Byte) (pl : List Byte) {f : Station → State → State}
    (hf : ∀ st, KeepsQueue (f st)) : KeepsQueue fun s => s.dataFrame p flags pl f := by
  intro s
  unfold State.dataFrame
  dsimp only
  split
  · split
    · exact finishExchange_keepsQueue p false s
    · rename_i st _
      split
      · exact (finishExchange_keepsQueue p false).comp (discardAnswer_keepsQueue p st) s
      · exact ((finishExchange_keepsQueue p _).comp (hf st)).comp (heard_keepsQueue p st true) s
  · rfl

theorem applyMark_keepsQueue (m : Mark) : KeepsQueue fun s => s.applyMark m := by
  cases m with
  | plain => exact fun _ => rfl
  | restartReply => exact fun _ => rfl
  | lineReply r => exact lineRequestDue_keepsQueue r
  | moveOrder l n => exact fun _ => rfl

theorem endTransmission_keepsQueue (p : Port) : KeepsQueue fun s => s.endTransmission p := by
  intro s
  unfold State.endTransmission
  dsimp only
  split
  · rfl
  · exact ((sendNext_keepsQueue p).comp (applyDue_keepsQueue p)).comp (applyMark_keepsQueue _) (s.modPort p _)

theorem breakLine_keepsQueue (p : Port) : KeepsQueue fun s => s.breakLine p :=
  fun s => (applyDue_keepsQueue p (s.lineBroken p)).trans (loseSending_keepsQueue p s)

/-! ### Time -/

theorem expireAll_keepsQueue (ds : List Due) : KeepsQueue fun s => s.expireAll ds :=
  fun s => (State.Follows.expireAll ds s).rest.pending

theorem tickExpiring_keepsQueue (d : Due) : KeepsQueue (State.tickExpiring d) :=
  KeepsQueue.guard (fun s => expireAll_keepsQueue _ s.ticked) fun s => s.ticked.garage.remaining d = some 0

/-! ### Frames to the part -/

theorem setLineTaken_keepsQueue (c : Caller) (r : LineRequest) : KeepsQueue fun s => s.setLineTaken c r := by
  intro s
  unfold State.setLineTaken
  dsimp only
  split
  · rfl
  · exact lineRequestDue_keepsQueue r (s.run _)

theorem setLineBody_keepsQueue (c : Caller) (pl : List Byte) : KeepsQueue (setLineBody c pl) := by
  intro s
  unfold setLineBody
  split
  · rfl
  · rfl
  · split
    · exact setLineTaken_keepsQueue c _ s
    · split
      · rfl
      · split
        · rfl
        · exact setLineTaken_keepsQueue c _ s

theorem loadStationsBody_keepsQueue (c : Caller) (pl : List Byte) : KeepsQueue (loadStationsBody c pl) := by
  intro s
  unfold loadStationsBody
  dsimp only
  (repeat' split) <;> rfl

theorem loadPassBody_keepsQueue (c : Caller) (pl : List Byte) : KeepsQueue (loadPassBody c pl) := by
  intro s
  unfold loadPassBody
  split <;> rfl

theorem restartBody_keepsQueue (c : Caller) (pl : List Byte) : KeepsQueue (restartBody c pl) := by
  intro s
  unfold restartBody
  split <;> rfl

/-- A body that is one event keeps the queue; those that manage the lines, or look at them, are taken one by one. -/
theorem bodyOf_keepsQueue (kind : Byte) (c : Caller) (pl : List Byte) : KeepsQueue (bodyOf kind c pl) := by
  intro s
  by_cases hk : kind ∈ [Kind.setLine, Kind.loadStations, Kind.loadPass, Kind.status, Kind.statusClear, Kind.restart,
    Kind.enterService, Kind.liftService]
  · simp only [List.mem_cons, List.not_mem_nil, or_false] at hk
    rcases hk with rfl | rfl | rfl | rfl | rfl | rfl | rfl | rfl
    · exact setLineBody_keepsQueue c pl s
    · exact loadStationsBody_keepsQueue c pl s
    · exact loadPassBody_keepsQueue c pl s
    · rfl
    · rfl
    · exact restartBody_keepsQueue c pl s
    · rfl
    · rfl
  · obtain ⟨f, e⟩ := bodyOf_event hk
    rw [e]
    rfl

theorem judge_keepsQueue (c : Caller) (kind : Byte) (pl : List Byte) :
    KeepsQueue fun s => s.judge c kind pl (bodyOf kind) := by
  intro s
  unfold State.judge
  dsimp only
  split
  · rfl
  · split
    · rfl
    · split
      · rfl
      · exact bodyOf_keepsQueue kind c pl s

theorem receive_keepsQueue (p : Port) (kind flags : Byte) (pl : List Byte) :
    KeepsQueue fun s => s.receive p kind flags pl (bodyOf kind) :=
  dataFrame_keepsQueue p flags pl fun st => judge_keepsQueue ⟨p, st.number, st.role⟩ kind pl

/-! ### Commands -/

/-- A command that has a next state from every state, with the queue of commands as it was. -/
def Completes (c : Instr) : Prop := ∀ s, ∃ t, exec c s = .next t ∧ t.pending = s.pending

/-- A command that is a reaction completes when its own effect keeps the queue: what poll hold brings about keeps it too. -/
theorem completes_of_react {c : Instr} {f : State → State} (hf : KeepsQueue f) (h : ∀ s, exec c s = s.react f) :
    Completes c := by
  intro s
  refine ⟨_, h s, ?_⟩
  split
  · exact underHold_keepsQueue.comp hf s
  · rfl

/-- A frame to the part completes behind the gates of its kind. -/
theorem completes_of_answerFrame {c : Instr} {f : Frame} (hf : answerFrame 0 c = some f) (he : ∀ p, c ≠ .empty p)
    (ht : ∀ p f, c ≠ .transit p f) : Completes c := by
  obtain ⟨p, h⟩ := exec_answerFrame hf he ht
  exact completes_of_react (receive_keepsQueue p f.kind f.flags f.payload) h

/-- POWER_UP: nothing on a powered part, else a warm start or a cold start, and both keep the queue (R45). -/
theorem powerUp_completes (agrees : Bool) : Completes (.powerUp agrees) := by
  intro s
  show ∃ t, execPowerUp agrees s = .next t ∧ t.pending = s.pending
  unfold execPowerUp
  split
  · exact ⟨s, rfl, rfl⟩
  · split
    · exact ⟨_, rfl, underHold_keepsQueue (State.warmStart { s with powered := true, storeHeld := true })⟩
    · exact ⟨s.coldStart, rfl, rfl⟩

theorem moveOrderSent_completes (l : Lift) : Completes (.moveOrderSent l) := by
  refine completes_of_react (fun s => ?_) fun _ => rfl
  split
  · split
    · exact endTransmission_keepsQueue .g s
    · rfl
  · rfl

theorem lineSettingsTakeEffect_completes (p : Port) : Completes (.lineSettingsTakeEffect p) := by
  have due := (applyDue_keepsQueue .g).guard fun s => (decide (p = .g) && !s.line.g.busy) = true
  refine completes_of_react (fun s => ?_) fun _ => rfl
  split
  · split
    · exact endTransmission_keepsQueue .s s
    · exact due s
  · exact due s

/-- The commands of the supply end in a state at once; every other command is a reaction. -/
theorem exec_completes (c : Instr) : Completes c := by
  cases c
  case powerUp agrees => exact powerUp_completes agrees
  case powerLoss held => exact fun s => ⟨_, rfl, rfl⟩
  case warmStart => exact completes_of_react (f := State.warmStart) (fun _ => rfl) fun _ => rfl
  case tick => exact completes_of_react (fun s => expireAll_keepsQueue _ s.ticked) fun _ => rfl
  case moveTimerExpiry l => exact completes_of_react (tickExpiring_keepsQueue (.move l)) fun _ => rfl
  case pickupTimerExpiry r => exact completes_of_react (tickExpiring_keepsQueue (.pickup r)) fun _ => rfl
  case holdTimerExpiry n => exact completes_of_react (tickExpiring_keepsQueue (.hold n)) fun _ => rfl
  case poll p => exact completes_of_react (pollNext_keepsQueue p) fun _ => rfl
  case miss p => exact completes_of_react (endExchange_keepsQueue p (chargeMiss_keepsQueue p)) fun _ => rfl
  case empty p =>
    exact completes_of_react (endExchange_keepsQueue p fun st => heard_keepsQueue p st true) fun _ => rfl
  case frameDiscarded p =>
    exact completes_of_react (endExchange_keepsQueue p (discardAnswer_keepsQueue p)) fun _ => rfl
  case idleTimeEnd p => exact completes_of_react (endExchange_keepsQueue p (discardAnswer_keepsQueue p)) fun _ => rfl
  case sourceMismatch p =>
    exact completes_of_react
      (endExchange_keepsQueue p fun st s => chargeMiss_keepsQueue p st (s.tallyFault p)) fun _ => rfl
  case lineBreak p =>
    exact completes_of_react ((breakLine_keepsQueue p).guard fun s => (s.port p).mode = .running) fun _ => rfl
  case lineReturn p =>
    have turn : KeepsQueue fun s => (s.modPort p fun ps => { ps with mode := .running }).beginTurn p :=
      fun s => beginTurn_keepsQueue p (s.modPort p _)
    exact completes_of_react (turn.guard fun s => (s.port p).mode = .lineFault) fun _ => rfl
  case frameSent p => exact completes_of_react (endTransmission_keepsQueue p) fun _ => rfl
  case moveOrderSent l => exact moveOrderSent_completes l
  case lineSettingsTakeEffect p => exact lineSettingsTakeEffect_completes p
  case transit p f =>
    exact completes_of_react
      (dataFrame_keepsQueue p f.flags f.payload fun st => route_keepsQueue p st.number f) fun _ => rfl
  all_goals exact completes_of_answerFrame rfl (fun _ e => by cases e) fun _ _ e => by cases e

/-- Settles O2, command by command: each operation on the lines, the blocks and time keeps the queue of commands. -/
theorem everyCommandCompletes : Obligations.EveryCommandCompletes := exec_completes

end Sys2Proof.Machine

/-! ### The step and the queue of commands (log 1) -/

namespace Sys2Proof.Machine

/-- The front command does not stand in the queue of the state that it runs on. -/
theorem step_of_pending_cons {s : State} {c : Instr} {rest : List Instr} (waiting : s.pending = c :: rest) :
    step s = exec c { s with pending := rest } := by
  rw [step, waiting]

theorem step_of_pending_nil {s : State} (idle : s.pending = []) : step s = .next s := by
  rw [step, idle]

/-- Settles O1, by the two shapes of the queue. -/
theorem stepRunsFront : Obligations.StepRunsFront := fun _ =>
  ⟨fun _ _ => step_of_pending_cons, step_of_pending_nil⟩

end Sys2Proof.Machine
